-- ==== Sys2Proof/Word.lean ====
section
/-!
DEFINITION. Words of the Terub and their plainest arithmetic: bytes, 32-bit lane words, 64-bit scalar words, lane
masks and the 32 lanes of a group (spec 00 R1, 01 R16, 02 R44).
-/
namespace Sys2Proof

/-- A byte of memory (R1). -/
abbrev Byte := BitVec 8
/-- A 32-bit value: a vector lane, an instruction word (R44, R157). -/
abbrev Word := BitVec 32
/-- A 64-bit value: an s register, an address while it is formed (R44, R114). -/
abbrev DWord := BitVec 64
/-- A set of the 32 lanes of a group: bit n stands for lane n (R16). -/
abbrev Mask := BitVec 32
/-- One 32-bit value for each of the 32 lanes of a group. -/
abbrev Lanes := Vector Word 32

/-- The mask of every lane. -/
abbrev Mask.all : Mask := 0xFFFFFFFF#32

/-- Lane `n` is in the mask. -/
def Mask.has (m : Mask) (n : Nat) : Bool := m.getLsbD n

/-- The lanes of a mask, in increasing order. -/
def Mask.lanes (m : Mask) : List (Fin 32) :=
  (List.finRange 32).filter fun n => m.getLsbD n.val

/-- The lowest lane of a mask; 32 when the mask is empty. -/
def Mask.lowest (m : Mask) : Nat :=
  ((List.range 32).find? fun n => m.getLsbD n).getD 32

/-- The number of lanes of a mask. -/
def Mask.count (m : Mask) : Nat := m.lanes.length

/-- The mask of the lanes that satisfy a test. -/
def Mask.ofTest (f : Nat → Bool) : Mask :=
  (List.range 32).foldl (fun m n => if f n then m ||| ((1 : Mask) <<< n) else m) 0

/-- The mask that holds lane `n` alone. -/
def Mask.one (n : Nat) : Mask := (1 : Mask) <<< n

/-- The lanes whose values a function of the lane number gives. -/
def Lanes.tab (f : Nat → Word) : Lanes := Vector.ofFn fun n => f n.val

/-- The value of lane `n` (0 for a number that names no lane). -/
def Lanes.at (l : Lanes) (n : Nat) : Word := l.toArray.getD n 0

/-- One value in every lane. -/
def Lanes.const (w : Word) : Lanes := Lanes.tab fun _ => w

/-- The lanes of `new` inside the mask, of `old` outside it. -/
def Lanes.blend (m : Mask) (new old : Lanes) : Lanes :=
  Lanes.tab fun n => if m.has n then new.at n else old.at n

/-- The value of one lane replaced. -/
def Lanes.put (l : Lanes) (n : Nat) (w : Word) : Lanes :=
  Lanes.tab fun k => if k = n then w else l.at k

/-- Little-endian bytes of a number: the lowest byte first (R1). -/
def leBytes : Nat → Nat → List Byte
  | 0, _ => []
  | k + 1, n => BitVec.ofNat 8 n :: leBytes k (n / 256)

/-- The number that little-endian bytes spell (R1). -/
def leNat : List Byte → Nat
  | [] => 0
  | b :: bs => b.toNat + 256 * leNat bs

/-- The slice of a list of bytes from offset `o`, `n` bytes long. -/
def slice (bs : List Byte) (o n : Nat) : List Byte := (bs.drop o).take n

/-- The number held in the `n` bytes at offset `o` of a record (R1). -/
def fieldAt (bs : List Byte) (o n : Nat) : Nat := leNat (slice bs o n)

/-- Every byte of the `n` bytes at offset `o` is zero. -/
def zeroAt (bs : List Byte) (o n : Nat) : Bool := (slice bs o n).all (· == 0)

/-- Bits [hi:lo] of a number. -/
def bitsOf (n hi lo : Nat) : Nat := (n >>> lo) % 2 ^ (hi + 1 - lo)

/-- The signed value of the low `w` bits of a number. -/
def signedOf (w n : Nat) : Int := (BitVec.ofNat w n).toInt

end Sys2Proof
end

