-- ==== Sys2Proof/Machine/Float.lean ====
section
/-!
DEFINITION. Floating-point numbers to the bit (spec 02 R47 to R76): values are exact (a sign, a natural significand and
an exponent of two), every operation computes exactly and rounds once. Raw encodings are natural numbers of the
format's width; FP32 wrappers on `Word` stand in FloatVec.lean.
-/
namespace Sys2Proof.Machine

open Sys2Proof

/-- Rounding modes (R49, R51). -/
inductive Rm where
  | rne | rtz | rup | rdn
  deriving DecidableEq, Repr

/-- Sticky flags: NV [4], DZ [3], OF [2], UF [1], IX [0] (R49). -/
abbrev Flags := BitVec 5
/-- Invalid operation. -/
abbrev flagNV : Flags := 0b10000
/-- Division by zero. -/
abbrev flagDZ : Flags := 0b01000
/-- Overflow. -/
abbrev flagOF : Flags := 0b00100
/-- Underflow. -/
abbrev flagUF : Flags := 0b00010
/-- Inexact. -/
abbrev flagIX : Flags := 0b00001

/-- An IEEE interchange format: exponent width and trailing significand width (R47). -/
structure FFmt where
  e : Nat
  t : Nat
  deriving DecidableEq, Repr

/-- binary32 (R47). -/
def fp32 : FFmt := ⟨8, 23⟩
/-- binary16 (R47). -/
def fp16 : FFmt := ⟨5, 10⟩
/-- bfloat16 (R47). -/
def bf16 : FFmt := ⟨8, 7⟩

/-- The exponent of two of the format's smallest subnormal (R47). -/
def FFmt.emin (f : FFmt) : Int := 2 - 2 ^ (f.e - 1) - f.t
/-- The infinity of a sign, raw. -/
def FFmt.inf (f : FFmt) (neg : Bool) : Nat := (2 ^ f.e - 1) * 2 ^ f.t + (if neg then 2 ^ (f.e + f.t) else 0)
/-- The zero of a sign, raw. -/
def FFmt.zero (f : FFmt) (neg : Bool) : Nat := if neg then 2 ^ (f.e + f.t) else 0
/-- The largest finite value of a sign, raw (R47, R54). -/
def FFmt.maxFin (f : FFmt) (neg : Bool) : Nat := f.inf neg - 1
/-- The canonical NaN, raw (R48). -/
def FFmt.nan (f : FFmt) : Nat := (2 ^ f.e - 1) * 2 ^ f.t + 2 ^ (f.t - 1)
/-- A NaN with its quiet bit set (R48). -/
def FFmt.quiet (f : FFmt) (w : Nat) : Nat := w ||| 2 ^ (f.t - 1)

/-- A value: a NaN with its raw encoding, an infinity, or an exact finite number (-1)^neg * man * 2^exp. -/
inductive Num where
  | nan (raw : Nat)
  | inf (neg : Bool)
  | fin (neg : Bool) (man : Nat) (exp : Int)
  deriving DecidableEq, Repr

/-- The value that raw bits encode (R47). -/
def FFmt.unpack (f : FFmt) (w : Nat) : Num :=
  let frac := w % 2 ^ f.t
  let e := w / 2 ^ f.t % 2 ^ f.e
  let neg := w / 2 ^ (f.e + f.t) % 2 == 1
  if e = 2 ^ f.e - 1 then (if frac = 0 then .inf neg else .nan w)
  else if e = 0 then .fin neg frac f.emin
  else .fin neg (frac + 2 ^ f.t) (f.emin + e - 1)

/-- The sign with its bit flipped, NaN untouched. -/
def Num.negate : Num → Num
  | .nan r => .nan r
  | .inf n => .inf (!n)
  | .fin n m e => .fin (!n) m e

/-- The significand cut at bit `sh`, rounded, and whether anything was lost; `sticky` says that a positive part below
the last bit is missing from `man` (R54). -/
def cutAt (rm : Rm) (neg : Bool) (man sh : Nat) (sticky : Bool) : Nat × Bool :=
  let q := man >>> sh
  let rem := man % 2 ^ sh
  let half := 2 ^ sh / 2
  let inexact := rem != 0 || sticky
  let up := match rm with
    | .rne => sh != 0 && (decide (half < rem) || (rem == half && (sticky || q % 2 == 1)))
    | .rtz => false
    | .rup => !neg && inexact
    | .rdn => neg && inexact
  (if up then q + 1 else q, inexact)

/-- The value rounded to `t` trailing bits with no last bit below 2^low (no lower bound when `low` is none): its
significand, the exponent of its last bit, and whether it is inexact (R54). -/
def roundTo (rm : Rm) (neg : Bool) (t : Nat) (low : Option Int) (man : Nat) (exp : Int) (sticky : Bool) :
    Nat × Int × Bool :=
  let lead := exp + (Nat.log2 man : Int) - t
  let e := match low with
    | some l => if lead < l then l else lead
    | none => lead
  let r := if e ≤ exp then cutAt rm neg (man <<< (exp - e).toNat) 0 sticky
           else cutAt rm neg man (e - exp).toNat sticky
  if r.1 = 2 ^ (t + 1) then (2 ^ t, e + 1, r.2) else (r.1, e, r.2)

/-- The mode points away from zero for this sign: an overflow becomes an infinity (R54). -/
def awayFromZero (rm : Rm) (neg : Bool) : Bool :=
  match rm with
  | .rne => true
  | .rtz => false
  | .rup => !neg
  | .rdn => neg

/-- A non-zero finite value rounded into a format, and its flags (R50, R54). -/
def FFmt.round (f : FFmt) (rm : Rm) (sat : Bool) (neg : Bool) (man : Nat) (exp : Int) (sticky : Bool) : Nat × Flags :=
  let r := roundTo rm neg f.t (some f.emin) man exp sticky
  let u := roundTo rm neg f.t none man exp sticky
  let sign := f.zero neg
  if f.emin + (2 ^ f.e - 3 : Int) < r.2.1 then
    (if sat || !awayFromZero rm neg then f.maxFin neg else f.inf neg, flagOF ||| flagIX)
  else
    let field := if r.1 < 2 ^ f.t then r.1 else (r.2.1 - f.emin + 1).toNat * 2 ^ f.t + (r.1 - 2 ^ f.t)
    let ix := if r.2.2 then flagIX else 0
    let uf := if r.2.2 && decide (u.2.1 < f.emin) then flagUF else 0
    (sign + field, ix ||| uf)

/-- A finite value into a format; `zero` says which zero an exact 0 gives. -/
def FFmt.pack (f : FFmt) (rm : Rm) (sat : Bool) (neg : Bool) (man : Nat) (exp : Int) (sticky : Bool) : Nat × Flags :=
  if man = 0 then (f.zero neg, 0) else f.round rm sat neg man exp sticky

/-- The sign of a sum that is exactly zero: of two zeros of one sign, that sign; else R74 or, with ZC, R75. -/
def zeroSign (rm : Rm) (zc : Bool) (bothZero : Bool) (n1 n2 : Bool) : Bool :=
  if bothZero && n1 == n2 then n1 else if zc then false else rm == .rdn

/-- The exact sum of two finite values: signed significand and exponent. -/
def exactSum (n1 : Bool) (m1 : Nat) (e1 : Int) (n2 : Bool) (m2 : Nat) (e2 : Int) : Int × Int :=
  let e := if e1 ≤ e2 then e1 else e2
  let v1 : Int := (m1 <<< (e1 - e).toNat : Nat)
  let v2 : Int := (m2 <<< (e2 - e).toNat : Nat)
  ((if n1 then -v1 else v1) + (if n2 then -v2 else v2), e)

/-- The sum of two values that are no NaN (R50, R54, R74, R75). -/
def FFmt.addNum (f : FFmt) (rm : Rm) (sat zc : Bool) (x y : Num) : Nat × Flags :=
  match x, y with
  | .nan r, _ => (f.quiet r, 0)
  | _, .nan r => (f.quiet r, 0)
  | .inf n, .inf m => if n = m then (f.inf n, 0) else (f.nan, flagNV)
  | .inf n, .fin _ _ _ => (f.inf n, 0)
  | .fin _ _ _, .inf n => (f.inf n, 0)
  | .fin n1 m1 e1, .fin n2 m2 e2 =>
    let s := exactSum n1 m1 e1 n2 m2 e2
    if s.1 = 0 then (f.zero (zeroSign rm zc (m1 == 0 && m2 == 0) n1 n2), 0)
    else f.round rm sat (decide (s.1 < 0)) s.1.natAbs s.2 false

/-- The exact product of two values that are no NaN; none for 0 times infinity (R50). -/
def mulNum (x y : Num) : Option Num :=
  match x, y with
  | .nan r, _ => some (.nan r)
  | _, .nan r => some (.nan r)
  | .inf n, .inf m => some (.inf (n != m))
  | .inf n, .fin m k _ => if k = 0 then none else some (.inf (n != m))
  | .fin m k _, .inf n => if k = 0 then none else some (.inf (n != m))
  | .fin n m e, .fin n' m' e' => some (.fin (n != n') (m * m') (e + e'))

/-- Round(a + b) (R192). -/
def FFmt.add (f : FFmt) (rm : Rm) (sat zc : Bool) (a b : Nat) : Nat × Flags :=
  f.addNum rm sat zc (f.unpack a) (f.unpack b)

/-- Round(a - b) (R192). -/
def FFmt.sub (f : FFmt) (rm : Rm) (sat zc : Bool) (a b : Nat) : Nat × Flags :=
  f.addNum rm sat zc (f.unpack a) (f.unpack b).negate

/-- Round(a * b) (R192). -/
def FFmt.mul (f : FFmt) (rm : Rm) (sat : Bool) (a b : Nat) : Nat × Flags :=
  match mulNum (f.unpack a) (f.unpack b) with
  | none => (f.nan, flagNV)
  | some (.nan r) => (f.quiet r, 0)
  | some (.inf n) => (f.inf n, 0)
  | some (.fin n m e) => f.pack rm sat n m e false

/-- Round(a * b + d), or Round(d - a * b) with `neg` (R192): one rounding; a NaN operand in the order A, B, D. -/
def FFmt.fma (f : FFmt) (rm : Rm) (sat zc : Bool) (neg : Bool) (a b d : Nat) : Nat × Flags :=
  match f.unpack a, f.unpack b, f.unpack d with
  | .nan r, _, _ => (f.quiet r, 0)
  | _, .nan r, _ => (f.quiet r, 0)
  | _, _, .nan r => (f.quiet r, 0)
  | x, y, z =>
    match mulNum x y with
    | none => (f.nan, flagNV)
    | some p => f.addNum rm sat zc (if neg then p.negate else p) z

/-- The number of bits of a natural number. -/
def bitLen (n : Nat) : Nat := if n = 0 then 0 else Nat.log2 n + 1

/-- The quotient of two finite non-zero values, rounded once (R66). -/
def FFmt.divFin (f : FFmt) (rm : Rm) (sat neg : Bool) (m1 : Nat) (e1 : Int) (m2 : Nat) (e2 : Int) : Nat × Flags :=
  let k := f.t + 4 + bitLen m2 - bitLen m1
  let n := m1 <<< k
  f.pack rm sat neg (n / m2) (e1 - e2 - k) (n % m2 != 0)

/-- Round(a / b) (R66, R67, R192). -/
def FFmt.div (f : FFmt) (rm : Rm) (sat : Bool) (a b : Nat) : Nat × Flags :=
  match f.unpack a, f.unpack b with
  | .nan r, _ => (f.quiet r, 0)
  | _, .nan r => (f.quiet r, 0)
  | .inf _, .inf _ => (f.nan, flagNV)
  | .inf n, .fin m _ _ => (f.inf (n != m), 0)
  | .fin n _ _, .inf m => (f.zero (n != m), 0)
  | .fin n m e, .fin n' m' e' =>
    if m' = 0 then (if m = 0 then (f.nan, flagNV) else (f.inf (n != n'), flagDZ))
    else if m = 0 then (f.zero (n != n'), 0)
    else f.divFin rm sat (n != n') m e m' e'

/-- The bits of a square root, from bit `k` down. -/
def isqrtBits (n : Nat) : Nat → Nat → Nat
  | 0, r => if (r + 1) * (r + 1) ≤ n then r + 1 else r
  | k + 1, r =>
    let c := r + 2 ^ (k + 1)
    isqrtBits n k (if c * c ≤ n then c else r)

/-- The integer square root. -/
def isqrt (n : Nat) : Nat := isqrtBits n (bitLen n / 2) 0

/-- The square root of m * 2^e, rounded once (R66). -/
def FFmt.sqrtFin (f : FFmt) (rm : Rm) (sat : Bool) (m : Nat) (e : Int) : Nat × Flags :=
  let k0 := 2 * (f.t + 4)
  let k := if (e - k0) % 2 = 0 then k0 else k0 + 1
  let n := m <<< k
  let r := isqrt n
  f.pack rm sat false r ((e - k) / 2) (r * r != n)

/-- The reciprocal square root of m * 2^e, rounded once (R66). -/
def FFmt.rsqrtFin (f : FFmt) (rm : Rm) (sat : Bool) (m : Nat) (e : Int) : Nat × Flags :=
  let m' := if e % 2 = 0 then m else 2 * m
  let e' := if e % 2 = 0 then e else e - 1
  let k := bitLen m' + f.t + 4
  let r := isqrt (2 ^ (2 * k) / m')
  f.pack rm sat false r (-(e' / 2) - k) (r * r * m' != 2 ^ (2 * k))

/-- a times 2^b with b signed (R192 FSCALE). Beyond 1024 either way the result no longer depends on b. -/
def FFmt.scale (f : FFmt) (rm : Rm) (sat : Bool) (a : Nat) (b : Int) : Nat × Flags :=
  match f.unpack a with
  | .nan r => (f.quiet r, 0)
  | .inf n => (f.inf n, 0)
  | .fin n m e =>
    let c := if b < -1024 then -1024 else if 1024 < b then 1024 else b
    f.pack rm sat n m (e + c) false

/-- (a + b) - RoundNE(a + b) (R68). -/
def FFmt.addErr (f : FFmt) (a b : Nat) : Nat × Flags :=
  match f.unpack a, f.unpack b with
  | .nan r, _ => (f.quiet r, 0)
  | _, .nan r => (f.quiet r, 0)
  | .fin n1 m1 e1, .fin n2 m2 e2 =>
    let s := exactSum n1 m1 e1 n2 m2 e2
    match f.unpack (f.add .rne false false a b).1 with
    | .fin n m e =>
      let d := exactSum (decide (s.1 < 0)) s.1.natAbs s.2 (!n) m e
      if d.1 = 0 then (0, 0) else ((f.round .rne false (decide (d.1 < 0)) d.1.natAbs d.2 false).1, 0)
    | _ => (f.nan, 0)
  | _, _ => (f.nan, 0)

/-- a * b - RoundNE(a * b) (R68): exact, or rounded with UF and IX when it lies off the grid. -/
def FFmt.mulErr (f : FFmt) (a b : Nat) : Nat × Flags :=
  match f.unpack a, f.unpack b with
  | .nan r, _ => (f.quiet r, 0)
  | _, .nan r => (f.quiet r, 0)
  | .fin n1 m1 e1, .fin n2 m2 e2 =>
    match f.unpack (f.mul .rne false a b).1 with
    | .fin n m e =>
      let d := exactSum (n1 != n2) (m1 * m2) (e1 + e2) (!n) m e
      if d.1 = 0 then (0, 0)
      else
        let r := roundTo .rne (decide (d.1 < 0)) f.t (some f.emin) d.1.natAbs d.2 false
        let w := (f.round .rne false (decide (d.1 < 0)) d.1.natAbs d.2 false).1
        (w, if r.2.2 then flagUF ||| flagIX else 0)
    | _ => (f.nan, 0)
  | _, _ => (f.nan, 0)

/-- The value of an order-preserving key: -0 below +0, infinities at the ends; for values that are no NaN. -/
def FFmt.key (f : FFmt) (w : Nat) : Int :=
  let mag : Int := (w % 2 ^ (f.e + f.t) : Nat)
  if w / 2 ^ (f.e + f.t) % 2 = 1 then -1 - mag else mag

/-- The raw encoding is a NaN. -/
def FFmt.isNan (f : FFmt) (w : Nat) : Bool :=
  match f.unpack w with
  | .nan _ => true
  | _ => false

/-- Smaller or larger of two values, -0 below +0 (R193); `num` prefers a number over a NaN. -/
def FFmt.minMax (f : FFmt) (max num : Bool) (a b : Nat) : Nat :=
  if f.isNan a then (if num && !f.isNan b then b else f.quiet a)
  else if f.isNan b then (if num then a else f.quiet b)
  else if max then (if f.key a < f.key b then b else a)
  else (if f.key b < f.key a then b else a)

/-- The order of two values that are no NaN, with -0 equal to +0: negative, zero or positive (R194). -/
def cmpNum (x y : Num) : Int :=
  match x, y with
  | .inf n, .inf m => if n = m then 0 else if n then -1 else 1
  | .inf n, _ => if n then -1 else 1
  | _, .inf m => if m then 1 else -1
  | .fin n1 m1 e1, .fin n2 m2 e2 =>
    let s := (exactSum n1 m1 e1 (!n2) m2 e2).1
    if s < 0 then -1 else if 0 < s then 1 else 0
  | _, _ => 0

/-- A finite value rounded to an integer in a mode, and whether it was inexact (R65, R199). -/
def roundInt (rm : Rm) (neg : Bool) (man : Nat) (exp : Int) : Int × Bool :=
  let r := if 0 ≤ exp then (man <<< exp.toNat, false)
           else if man = 0 then (0, false)
           else cutAt rm neg man (-exp).toNat false
  ((if neg then -(r.1 : Int) else r.1), r.2)

/-- A float-to-integer conversion with its range (R65). -/
def FFmt.toInt (f : FFmt) (rm : Rm) (lo hi : Int) (a : Nat) : Int × Flags :=
  match f.unpack a with
  | .nan _ => (0, flagNV)
  | .inf n => (if n then lo else hi, flagNV)
  | .fin n m e =>
    let r := roundInt rm n m e
    if r.1 < lo then (lo, flagNV) else if hi < r.1 then (hi, flagNV)
    else (r.1, if r.2 then flagIX else 0)

/-- An integer-to-float conversion (R65). -/
def FFmt.ofInt (f : FFmt) (rm : Rm) (v : Int) : Nat × Flags :=
  f.pack rm false (decide (v < 0)) v.natAbs 0 false

/-- FP32 narrowed to a half format (R48, R54). -/
def narrow (f : FFmt) (rm : Rm) (sat : Bool) (a : Nat) : Nat × Flags :=
  match fp32.unpack a with
  | .nan r => (f.zero (r / 2 ^ 31 % 2 == 1) + (2 ^ f.e - 1) * 2 ^ f.t + 2 ^ (f.t - 1) +
      r / 2 ^ (23 - f.t) % 2 ^ (f.t - 1), 0)
  | .inf n => (f.inf n, 0)
  | .fin n m e => f.pack rm sat n m e false

/-- A half format widened to FP32, exactly (R48). -/
def widen (f : FFmt) (a : Nat) : Nat :=
  match f.unpack a with
  | .nan r => fp32.quiet (fp32.inf (r / 2 ^ (f.e + f.t) % 2 == 1) + r % 2 ^ f.t * 2 ^ (23 - f.t))
  | .inf n => fp32.inf n
  | .fin n m e => (fp32.pack .rne false n m e false).1

/-- An integral value in the mode (R199 FRND). -/
def frnd (rm : Rm) (raiseIx : Bool) (a : Nat) : Nat × Flags :=
  match fp32.unpack a with
  | .nan r => (fp32.quiet r, 0)
  | .inf n => (fp32.inf n, 0)
  | .fin n m e =>
    let r := roundInt rm n m e
    ((fp32.pack .rne false n r.1.natAbs 0 false).1, if raiseIx && r.2 then flagIX else 0)

/-! ### The binary8 family (R55 to R59) -/

/-- A binary8 format: unsigned, with infinities, precision P (R55, R60). -/
structure B8 where
  uns : Bool
  infs : Bool
  p : Nat
  deriving DecidableEq, Repr

/-- The format that the five low bits of a page FMT name (R60, R198). -/
def B8.ofBits (n : Nat) : B8 := ⟨n / 16 % 2 == 1, n / 8 % 2 == 1, n % 8⟩
/-- The bias (R55). -/
def B8.bias (f : B8) : Int := if f.uns then 2 ^ (8 - f.p) else 2 ^ (7 - f.p)
/-- The exponent of two of the last place of the subnormals: 1 - B - t. -/
def B8.emin (f : B8) : Int := 2 - f.bias - f.p
/-- The code of NaN (R55). -/
def B8.nan (f : B8) : Nat := if f.uns then 0xFF else 0x80
/-- The code of the largest finite value of a sign (R55, R58). -/
def B8.maxCode (f : B8) (neg : Bool) : Nat :=
  if f.uns then (if f.infs then 0xFD else 0xFE)
  else (if f.infs then 0x7E else 0x7F) + (if neg then 0x80 else 0)
/-- The code of infinity of a sign, where the format has one. -/
def B8.infCode (f : B8) (neg : Bool) : Nat := if f.uns then 0xFE else if neg then 0xFF else 0x7F

/-- The value of a code (R55). -/
def B8.decode (f : B8) (c : Nat) : Num :=
  let t := f.p - 1
  let neg := !f.uns && decide (0x80 ≤ c)
  let k := if f.uns then c else c % 0x80
  let e := k / 2 ^ t
  let m := k % 2 ^ t
  if c = f.nan then .nan (FFmt.nan fp32)
  else if f.infs && c == f.infCode neg then .inf neg
  else if e = 0 then .fin neg m f.emin
  else .fin neg (2 ^ t + m) (f.emin + e - 1)

/-- The largest finite magnitude: significand and exponent (R58). -/
def B8.maxFin (f : B8) : Nat × Int :=
  match f.decode (f.maxCode false) with
  | .fin _ m e => (m, e)
  | _ => (0, 0)

/-- The magnitude m * 2^e exceeds m' * 2^e'. -/
def magGt (m : Nat) (e : Int) (m' : Nat) (e' : Int) : Bool := decide (0 < (exactSum false m e true m' e').1)

/-- A value encoded into a binary8 format (R59). -/
def B8.encode (f : B8) (rm : Rm) (sat : Bool) (x : Num) : Nat × Flags :=
  match x with
  | .nan _ => (f.nan, 0)
  | .inf n =>
    if f.uns && n then (0, flagIX)
    else if f.infs then (f.infCode n, 0)
    else (f.maxCode n, flagIX)
  | .fin n m e =>
    if m = 0 then (0, 0)
    else if f.uns && n then (0, flagIX)
    else
      let t := f.p - 1
      let r := roundTo rm n t (some f.emin) m e false
      let u := roundTo rm n t none m e false
      if magGt r.1 r.2.1 f.maxFin.1 f.maxFin.2 then
        (if f.infs && !sat && awayFromZero rm n then f.infCode n else f.maxCode n, flagOF ||| flagIX)
      else
        let ix := if r.2.2 then flagIX else 0
        let uf := if r.2.2 && decide (u.2.1 < f.emin) then flagUF else 0
        if r.1 = 0 then (0, ix ||| uf)
        else
          let code := if r.1 < 2 ^ t then r.1 else (r.2.1 - f.emin + 1).toNat * 2 ^ t + (r.1 - 2 ^ t)
          (code + (if n then 0x80 else 0), ix ||| uf)

/-- A value as FP32, exact where it fits (R62, R198). -/
def numToFp32 (rm : Rm) (x : Num) : Nat × Flags :=
  match x with
  | .nan r => (fp32.quiet r, 0)
  | .inf n => (fp32.inf n, 0)
  | .fin n m e => fp32.pack rm false n m e false

/-- A value times a block scale (R62): code 0 is zero, 0xFF NaN, c else 2^(c - 128); none for infinity times zero. -/
def scaleNum (x : Num) (c : Nat) : Option Num :=
  if c = 0xFF then (match x with | .nan r => some (.nan r) | _ => some (.nan (FFmt.nan fp32)))
  else if c = 0 then
    match x with
    | .nan r => some (.nan r)
    | .inf _ => none
    | .fin n _ _ => some (.fin n 0 0)
  else
    match x with
    | .fin n m e => some (.fin n m (e + c - 128))
    | y => some y

/-! ### Sums of more than two terms -/

/-- Terms of a sum that are no NaN: whether both infinities occur, the infinity, or the exact sum and whether every
term is a zero of one sign. -/
inductive ExactSum where
  | invalid
  | inf (neg : Bool)
  | fin (v : Int) (exp : Int) (allZero : Option Bool)
  deriving DecidableEq, Repr

/-- The exact sum of two partial sums. -/
def ExactSum.add (x y : ExactSum) : ExactSum :=
  match x, y with
  | .invalid, _ => .invalid
  | _, .invalid => .invalid
  | .inf n, .inf m => if n = m then .inf n else .invalid
  | .inf n, _ => .inf n
  | _, .inf m => .inf m
  | .fin v1 e1 z1, .fin v2 e2 z2 =>
    let s := exactSum (decide (v1 < 0)) v1.natAbs e1 (decide (v2 < 0)) v2.natAbs e2
    .fin s.1 s.2 (match z1, z2 with
      | some a, some b => if a = b then some a else none
      | _, _ => none)

/-- One term of an exact sum; `none` is 0 times infinity. -/
def ExactSum.ofNum : Option Num → ExactSum
  | none => .invalid
  | some (.nan _) => .invalid
  | some (.inf n) => .inf n
  | some (.fin n m e) => .fin (if n then -(m : Int) else m) e (if m = 0 then some n else none)

/-- An exact sum rounded once, with the zero rule (R54, R74, R75). -/
def ExactSum.round (f : FFmt) (rm : Rm) (sat zc : Bool) : ExactSum → Nat × Flags
  | .invalid => (f.nan, flagNV)
  | .inf n => (f.inf n, 0)
  | .fin v e z =>
    if v = 0 then
      (f.zero (match z with | some n => n | none => if zc then false else rm == .rdn), 0)
    else f.round rm sat (decide (v < 0)) v.natAbs e false

/-- The first NaN of a list of raw encodings. -/
def firstNan (f : FFmt) (ws : List Nat) : Option Nat := ws.find? f.isNan

/-- HDOT2: d + a.lo * b.lo + a.hi * b.hi, rounded once to FP32 (R69, R200). -/
def hdot2 (h : FFmt) (rm : Rm) (sat zc : Bool) (a b d : Nat) : Nat × Flags :=
  let lo w := w % 2 ^ 16
  let hi w := w / 2 ^ 16 % 2 ^ 16
  match firstNan h [lo a, hi a, lo b, hi b] with
  | some r => (widen h r, 0)
  | none =>
    if fp32.isNan d then (fp32.quiet d, 0)
    else
      let p0 := mulNum (h.unpack (lo a)) (h.unpack (lo b))
      let p1 := mulNum (h.unpack (hi a)) (h.unpack (hi b))
      ((ExactSum.ofNum (some (fp32.unpack d))).add ((ExactSum.ofNum p0).add (ExactSum.ofNum p1))).round fp32 rm sat zc

end Sys2Proof.Machine
end

