-- ==== Sys2Proof/Syntax/Events.lean ====
section
/-!
DEFINITION. What the event rows of the opcode table carry: the names of contexts, crews and units, command packets,
packets of the pod fabric, and the parameters of errors. An event row has no instruction word; its parameters say
which unit it concerns and what arrives from outside.
-/
namespace Sys2Proof

/-- A context's name: TAG and GEN (R306). -/
structure CtxId where
  tag : Nat
  gen : Nat
  deriving DecidableEq, Repr, Inhabited

/-- TAG and GEN as the CTXID word spells them (R306). -/
def CtxId.word (c : CtxId) : Word := BitVec.ofNat 32 (c.tag % 4096 + (c.gen % 256) * 4096)

/-- The TAG and GEN that a CTXID word names (R306). -/
def CtxId.ofNat (n : Nat) : CtxId := ⟨n % 4096, n / 4096 % 256⟩

/-- A crew of a launch (R16, R354). -/
structure CrewKey where
  ctx : CtxId
  launch : Nat
  sheet : Nat
  crew : Nat
  deriving DecidableEq, Repr, Inhabited

/-- A unit of a crew: group `ix` of gang `gang`, or Gaffer thread `ix` (R16). -/
structure UnitKey where
  gaffer : Bool
  gang : Nat
  ix : Nat
  deriving DecidableEq, Repr, Inhabited

/-- A unit of the part: the memory agent (R128). -/
structure AgentKey where
  crew : CrewKey
  unit : UnitKey
  deriving DecidableEq, Repr, Inhabited

/-- A command packet as it arrives at the command endpoint of I/O die `die`, header first (R401). -/
structure Cmd where
  die : Nat
  bytes : List Byte
  deriving DecidableEq, Repr, Inhabited

/-- Command header: OPC (R401). -/
def Cmd.opc (c : Cmd) : Nat := fieldAt c.bytes 0 2
/-- Command header: LEN (R401). -/
def Cmd.len (c : Cmd) : Nat := fieldAt c.bytes 2 2
/-- Command header: SEQ (R401). -/
def Cmd.seq (c : Cmd) : Nat := fieldAt c.bytes 4 4
/-- Command header: CTXID, as a word (R401). -/
def Cmd.ctxWord (c : Cmd) : Nat := fieldAt c.bytes 8 4
/-- Command header: the context named (R401). -/
def Cmd.ctx (c : Cmd) : CtxId := CtxId.ofNat c.ctxWord
/-- Command header: ADDR (R401). -/
def Cmd.addr (c : Cmd) : Nat := fieldAt c.bytes 0x10 8
/-- Command body: the bytes from 0x20 (R401). -/
def Cmd.body (c : Cmd) : List Byte := c.bytes.drop 0x20
/-- LEN states the packet's length and lies in its range (R401). -/
def Cmd.lenOk (c : Cmd) : Bool :=
  c.len == c.bytes.length && decide (32 ≤ c.len) && decide (c.len ≤ 4096) && c.len % 8 == 0
/-- The reserved fields of the header are zero (R401). -/
def Cmd.headOk (c : Cmd) : Bool :=
  zeroAt c.bytes 0x0C 4 && zeroAt c.bytes 0x18 8 && decide (c.ctxWord < 2 ^ 20)

/-- One entry of a bind list: a 128-bit name and an OID, 0 to unbind (R283). -/
structure BindEntry where
  name : Nat
  oid : Nat
  deriving DecidableEq, Repr, Inhabited

/-- What an ordered-class packet carries (R389, R396). -/
inductive OrdBody where
  /-- An OSEND word for an address (R287). -/
  | write (addr : DWord) (data : Word)
  /-- A DBIND.o list (R284). -/
  | bind (list : List BindEntry)
  /-- The probe of a POD-scope DOPEN, waited on by slot `slot` of a unit (R396). -/
  | probe (agent : AgentKey) (slot : Nat) (name : Nat)
  deriving DecidableEq, Repr, Inhabited

/-- An ordered-class packet: stamp, source part and socket, destination part, hop count (R390, R391). -/
structure OrdPacket where
  stamp : Nat
  srcPart : Nat
  srcSocket : Nat
  dest : Nat
  hops : Nat
  ctx : CtxId
  /-- The issuing unit, while the packet is at its own part. -/
  agent : Option AgentKey
  body : OrdBody
  deriving DecidableEq, Repr, Inhabited

/-- The 16-bit source of a packet: part in [15:4], socket in [3:0] (R390). -/
def OrdPacket.source (p : OrdPacket) : Nat := p.srcPart * 16 + p.srcSocket

/-- A RENQ entry on its way to a queue (R274). -/
structure RenqPacket where
  id : Nat
  srcPart : Nat
  dest : Nat
  ctx : CtxId
  queue : Nat
  entry : List Byte
  ack : Bool
  /-- The horizon of the issuing die, which a FABRIC-scope release carries (R390). -/
  horizon : Nat
  deriving DecidableEq, Repr, Inhabited

/-- A bulk-class access of FABRIC scope that arrives from another part (R389). -/
inductive FabricAccess where
  /-- Bytes stored at a virtual address of the context. -/
  | store (va : DWord) (data : List Byte)
  /-- `count` bytes read at a virtual address of the context. -/
  | load (va : DWord) (count : Nat)
  deriving DecidableEq, Repr, Inhabited

/-- A bulk-class packet: its access, the source part and group, and the horizon a release carries (R389, R390). -/
structure FabricPacket where
  id : Nat
  srcPart : Nat
  ctx : CtxId
  access : FabricAccess
  horizon : Nat
  deriving DecidableEq, Repr, Inhabited

/-- What power-up's self-test and strap find (R411). -/
structure PowerUp where
  /-- Bit s set: compute socket s's die or stack has no usable part. -/
  failed : Nat
  /-- The management port links up. -/
  link : Bool
  /-- The self-test record. -/
  selfTest : List Byte
  deriving DecidableEq, Repr, Inhabited

/-- One two-way time exchange of a die (R387, R388). -/
structure TimeExchange where
  /-- The pod link it runs on; none for an exchange with the interposer's time reference (R387). -/
  port : Option Nat
  /-- The die's estimated error after the exchange, in 1/16 ns. -/
  err : Nat
  /-- Where the reference stands for this die's PTIME; the die slews towards it. -/
  reference : Nat
  /-- The chain of exchanges reaches the pod's time root. -/
  chain : Bool
  deriving DecidableEq, Repr, Inhabited

/-- An uncorrectable error in core state (R381). -/
structure CoreError where
  die : Nat
  cluster : Nat
  /-- The core fenced; none fences the whole cluster (an error in a Gaffer, a Marver or a Blowpipe). -/
  core : Option Nat
  /-- Units whose register rows cannot be read. -/
  badUnits : List AgentKey
  /-- Scratchpad sectors that cannot be read: crew, gang, sector. -/
  badSectors : List (CrewKey × Nat × Nat)
  /-- Dirty L1 sectors that cannot be read, by canonical sector number. -/
  badLines : List Nat
  /-- The save area that firmware gives each crew it saves. -/
  areas : List (CrewKey × Nat)
  deriving DecidableEq, Repr, Inhabited

/-- A credited link: an interposer link of a compute die, or a pod port (R399). -/
inductive LinkKey where
  | interposer (die : Nat) (link : Nat)
  | port (p : Nat)
  deriving DecidableEq, Repr, Inhabited

/-- One path of a group: an active split by its slot, or a park entry by its lowest lane (R23, R24). -/
inductive PathKey where
  | slot (n : Nat)
  | parked (lane : Nat)
  deriving DecidableEq, Repr, Inhabited

end Sys2Proof
end

