-- ==== Sys2Proof/Syntax.lean ====
section
/-!
DEFINITION. The instructions of the Terub, one constructor per row of the opcode table (spec 07 R157 to R180): the
words of the part with their fields as the formats lay them out, then the events of the table, which have no word.
A field that a word leaves unused is no argument. LDS, STS and MCST keep T: its non-zero value is an operand trap for LDS
and STS and ILLEGAL_INSN for MCST (R160, R230, R231). HMOD keeps its reserved bits, which trap at the instruction it modifies (R168).
-/
namespace Sys2Proof

/-- An instruction word, or an event of the part. -/
inductive Instr where
  /-- Adds A and B per participating lane, wrapping to 32 bits (R184). -/
  | iadd (g : BitVec 3) (d : BitVec 7) (a : BitVec 7) (b : BitVec 7)
  /-- Subtracts B from A per lane, wrapping to 32 bits (R184). -/
  | isub (g : BitVec 3) (d : BitVec 7) (a : BitVec 7) (b : BitVec 7)
  /-- Adds A and B per lane and clamps once to the signed or unsigned range (R184). -/
  | iadds (g : BitVec 3) (d : BitVec 7) (a : BitVec 7) (b : BitVec 7)
  /-- Subtracts B from A per lane and clamps once as IADDS does (R184). -/
  | isubs (g : BitVec 3) (d : BitVec 7) (a : BitVec 7) (b : BitVec 7)
  /-- Writes the low 32 bits of A times B per lane (R184). -/
  | imul (g : BitVec 3) (d : BitVec 7) (a : BitVec 7) (b : BitVec 7)
  /-- Writes bits 63:32 of the exact signed or unsigned product per lane (R184). -/
  | imulh (g : BitVec 3) (d : BitVec 7) (a : BitVec 7) (b : BitVec 7)
  /-- Writes the low 32 bits of A times B plus D per lane (R184). -/
  | imad (g : BitVec 3) (d : BitVec 7) (a : BitVec 7) (b : BitVec 7)
  /-- Divides A by B with truncation per lane, raising INT_DIV0 with a lane mask if any participating divisor is zero (R185). -/
  | idiv (g : BitVec 3) (d : BitVec 7) (a : BitVec 7) (b : BitVec 7)
  /-- Writes the truncated-division remainder per lane, raising INT_DIV0 on a zero divisor (R185). -/
  | irem (g : BitVec 3) (d : BitVec 7) (a : BitVec 7) (b : BitVec 7)
  /-- Writes the smaller of A and B per lane, signed or unsigned (R184). -/
  | imin (g : BitVec 3) (d : BitVec 7) (a : BitVec 7) (b : BitVec 7)
  /-- Writes the larger of A and B per lane, signed or unsigned (R184). -/
  | imax (g : BitVec 3) (d : BitVec 7) (a : BitVec 7) (b : BitVec 7)
  /-- Writes the bitwise AND of A and B per lane (R184). -/
  | and (g : BitVec 3) (d : BitVec 7) (a : BitVec 7) (b : BitVec 7)
  /-- Writes the bitwise OR of A and B per lane (R184). -/
  | or (g : BitVec 3) (d : BitVec 7) (a : BitVec 7) (b : BitVec 7)
  /-- Writes the bitwise XOR of A and B per lane (R184). -/
  | xor (g : BitVec 3) (d : BitVec 7) (a : BitVec 7) (b : BitVec 7)
  /-- Writes A AND NOT B per lane (R184). -/
  | andn (g : BitVec 3) (d : BitVec 7) (a : BitVec 7) (b : BitVec 7)
  /-- Shifts A left by B[4:0] per lane (R184). -/
  | shl (g : BitVec 3) (d : BitVec 7) (a : BitVec 7) (b : BitVec 7)
  /-- Shifts A right by B[4:0], zero-filled, per lane (R184). -/
  | shr (g : BitVec 3) (d : BitVec 7) (a : BitVec 7) (b : BitVec 7)
  /-- Shifts A right by B[4:0], sign-filled, per lane (R184). -/
  | sar (g : BitVec 3) (d : BitVec 7) (a : BitVec 7) (b : BitVec 7)
  /-- Rotates A left by B[4:0] per lane (R184). -/
  | rotl (g : BitVec 3) (d : BitVec 7) (a : BitVec 7) (b : BitVec 7)
  /-- Compares A and B per lane under the condition in D[6:3] and writes predicate D[2:0] (R188). -/
  | icmp (g : BitVec 3) (c : BitVec 4) (p : BitVec 3) (a : BitVec 7) (b : BitVec 7)
  /-- Writes A where the select predicate named by G is true and B otherwise, in every active lane (R190). -/
  | sel (g : BitVec 3) (d : BitVec 7) (a : BitVec 7) (b : BitVec 7)
  /-- Extracts a bit field of A given by B, sign- or zero-extended, per lane (R186). -/
  | bfe (g : BitVec 3) (d : BitVec 7) (a : BitVec 7) (b : BitVec 7)
  /-- Inserts A into a bit field of D given by B, per lane (R186). -/
  | bfi (g : BitVec 3) (d : BitVec 7) (a : BitVec 7) (b : BitVec 7)
  /-- Counts the one bits of A per lane (R184). -/
  | popc (g : BitVec 3) (d : BitVec 7) (a : BitVec 7)
  /-- Counts the leading zero bits of A per lane (R184). -/
  | clz (g : BitVec 3) (d : BitVec 7) (a : BitVec 7)
  /-- Reverses the bits of A per lane (R184). -/
  | brev (g : BitVec 3) (d : BitVec 7) (a : BitVec 7)
  /-- Writes the absolute value of A per lane, optionally saturating (R184). -/
  | iabs (g : BitVec 3) (d : BitVec 7) (a : BitVec 7)
  /-- Adds four byte products to D exactly and keeps the low 32 bits (R187). -/
  | dp4 (g : BitVec 3) (d : BitVec 7) (a : BitVec 7) (b : BitVec 7)
  /-- Adds four byte products to D exactly and clamps the total once (R187). -/
  | dp4s (g : BitVec 3) (d : BitVec 7) (a : BitVec 7) (b : BitVec 7)
  /-- Adds two halfword products to D exactly and keeps the low 32 bits (R187). -/
  | dp2 (g : BitVec 3) (d : BitVec 7) (a : BitVec 7) (b : BitVec 7)
  /-- Adds two halfword products to D exactly and clamps the total once (R187). -/
  | dp2s (g : BitVec 3) (d : BitVec 7) (a : BitVec 7) (b : BitVec 7)
  /-- Adds the immediate to A per lane, wrapping (R189). -/
  | iaddi (g : BitVec 3) (d : BitVec 7) (a : BitVec 7) (i : BitVec 8)
  /-- ANDs A with the immediate per lane (R189). -/
  | andi (g : BitVec 3) (d : BitVec 7) (a : BitVec 7) (i : BitVec 8)
  /-- ORs A with the immediate per lane (R189). -/
  | ori (g : BitVec 3) (d : BitVec 7) (a : BitVec 7) (i : BitVec 8)
  /-- XORs A with the immediate per lane (R189). -/
  | xori (g : BitVec 3) (d : BitVec 7) (a : BitVec 7) (i : BitVec 8)
  /-- Shifts A left by the immediate per lane (R189). -/
  | shli (g : BitVec 3) (d : BitVec 7) (a : BitVec 7) (i : BitVec 8)
  /-- Shifts A right, zero-filled, by the immediate per lane (R189). -/
  | shri (g : BitVec 3) (d : BitVec 7) (a : BitVec 7) (i : BitVec 8)
  /-- Shifts A right, sign-filled, by the immediate per lane (R189). -/
  | sari (g : BitVec 3) (d : BitVec 7) (a : BitVec 7) (i : BitVec 8)
  /-- Compares A with the immediate per lane and writes a predicate (R189). -/
  | icmpi (g : BitVec 3) (c : BitVec 4) (p : BitVec 3) (a : BitVec 7) (i : BitVec 8)
  /-- Multiplies A by the immediate per lane, keeping the low 32 bits (R189). -/
  | imuli (g : BitVec 3) (d : BitVec 7) (a : BitVec 7) (i : BitVec 8)
  /-- Adds two FP32 values per lane with one rounding (R192). -/
  | fadd (g : BitVec 3) (d : BitVec 7) (a : BitVec 7) (b : BitVec 7)
  /-- Subtracts two FP32 values per lane with one rounding (R192). -/
  | fsub (g : BitVec 3) (d : BitVec 7) (a : BitVec 7) (b : BitVec 7)
  /-- Multiplies two FP32 values per lane with one rounding (R192). -/
  | fmul (g : BitVec 3) (d : BitVec 7) (a : BitVec 7) (b : BitVec 7)
  /-- Divides FP32 values per lane, correctly rounded (R192). -/
  | fdiv (g : BitVec 3) (d : BitVec 7) (a : BitVec 7) (b : BitVec 7)
  /-- Computes A times B plus D per lane with one rounding (R192). -/
  | ffma (g : BitVec 3) (d : BitVec 7) (a : BitVec 7) (b : BitVec 7)
  /-- Computes D minus A times B per lane with one rounding (R192). -/
  | ffms (g : BitVec 3) (d : BitVec 7) (a : BitVec 7) (b : BitVec 7)
  /-- Writes the smaller FP32 value per lane with the NaN handling set by TV (R193). -/
  | fmin (g : BitVec 3) (d : BitVec 7) (a : BitVec 7) (b : BitVec 7)
  /-- Writes the larger FP32 value per lane with the NaN handling set by TV (R193). -/
  | fmax (g : BitVec 3) (d : BitVec 7) (a : BitVec 7) (b : BitVec 7)
  /-- Compares FP32 values per lane under a quiet or signalling condition and writes a predicate (R194). -/
  | fcmp (g : BitVec 3) (c : BitVec 4) (p : BitVec 3) (a : BitVec 7) (b : BitVec 7)
  /-- Sets a predicate to the bit of mask B that A's class selects (R195). -/
  | fclass (g : BitVec 3) (p : BitVec 3) (a : BitVec 7) (b : BitVec 7)
  /-- Evaluates the correctly rounded special function named by B per lane (R196). -/
  | fsfu (g : BitVec 3) (d : BitVec 7) (a : BitVec 7) (b : BitVec 7)
  /-- Converts A per lane under the conversion code in B, including binary8 encode and decode (R197). -/
  | fcvt (g : BitVec 3) (d : BitVec 7) (a : BitVec 7) (b : BitVec 7)
  /-- Rounds A to an integral FP32 value per lane, optionally raising IX (R199). -/
  | frnd (g : BitVec 3) (d : BitVec 7) (a : BitVec 7) (b : BitVec 7)
  /-- Adds packed half pairs, rounding each half to its format (R200). -/
  | hadd2 (g : BitVec 3) (d : BitVec 7) (a : BitVec 7) (b : BitVec 7)
  /-- Multiplies packed half pairs, rounding each half to its format (R200). -/
  | hmul2 (g : BitVec 3) (d : BitVec 7) (a : BitVec 7) (b : BitVec 7)
  /-- Fused multiply-adds packed half pairs into D (R200). -/
  | hfma2 (g : BitVec 3) (d : BitVec 7) (a : BitVec 7) (b : BitVec 7)
  /-- Adds both half products to FP32 D with one rounding (R200). -/
  | hdot2 (g : BitVec 3) (d : BitVec 7) (a : BitVec 7) (b : BitVec 7)
  /-- Writes the exact rounding error of A plus B per lane (R68). -/
  | faddx (g : BitVec 3) (d : BitVec 7) (a : BitVec 7) (b : BitVec 7)
  /-- Writes the exact rounding error of A times B per lane (R68). -/
  | fmulx (g : BitVec 3) (d : BitVec 7) (a : BitVec 7) (b : BitVec 7)
  /-- Clears the sign bit of A per lane, quieting NaNs (R192). -/
  | fabs (g : BitVec 3) (d : BitVec 7) (a : BitVec 7)
  /-- Inverts the sign bit of A per lane, quieting NaNs (R192). -/
  | fneg (g : BitVec 3) (d : BitVec 7) (a : BitVec 7)
  /-- Computes A times 2 to the integer B per lane with one rounding (R192). -/
  | fscale (g : BitVec 3) (d : BitVec 7) (a : BitVec 7) (b : BitVec 7)
  /-- Copies A to D bit for bit per lane (R206). -/
  | mov (g : BitVec 3) (d : BitVec 7) (a : BitVec 7)
  /-- Writes the immediate to D per lane (R206). -/
  | movi (g : BitVec 3) (d : BitVec 7) (i : BitVec 8)
  /-- Moves values between lanes of one tile in the mode set by TV (R202). -/
  | shfl (g : BitVec 3) (d : BitVec 7) (a : BitVec 7) (b : BitVec 7)
  /-- Writes an all, any or uniform vote of each tile's participants to a predicate (R203). -/
  | vote (g : BitVec 3) (m : BitVec 4) (p : BitVec 3) (a : BitVec 7)
  /-- Writes each participant the mask of tile lanes whose A is non-zero (R203). -/
  | ballot (g : BitVec 3) (d : BitVec 7) (a : BitVec 7)
  /-- Reduces each tile's participants by a pairwise integer tree and writes the result to each (R204). -/
  | redl (g : BitVec 3) (d : BitVec 7) (a : BitVec 7) (b : BitVec 7)
  /-- Reduces each tile's participants by a pairwise floating tree (R204). -/
  | fredl (g : BitVec 3) (d : BitVec 7) (a : BitVec 7) (b : BitVec 7)
  /-- Forms an inclusive integer scan within each tile (R205). -/
  | scanl (g : BitVec 3) (d : BitVec 7) (a : BitVec 7) (b : BitVec 7)
  /-- Forms an inclusive floating scan within each tile (R205). -/
  | fscanl (g : BitVec 3) (d : BitVec 7) (a : BitVec 7) (b : BitVec 7)
  /-- Sets PRT.TILE from B of the lowest participating lane (R207). -/
  | part (g : BitVec 3) (b : BitVec 7)
  /-- Combines predicates per lane under the function in D[6:3] (R208). -/
  | plop (g : BitVec 3) (f : BitVec 4) (d : BitVec 3) (a : BitVec 3) (b : BitVec 3)
  /-- Moves predicates to or from a register, or reads or writes FPC, in the form set by TV (R209). -/
  | pmov (g : BitVec 3) (d : BitVec 7) (a : BitVec 7) (b : BitVec 7)
  /-- Sets the register window index IX to the immediate (R210). -/
  | ixset (g : BitVec 3) (i : BitVec 8)
  /-- Moves A of the lowest participating lane into an s register (R211). -/
  | v2s (g : BitVec 3) (d : BitVec 7) (a : BitVec 7)
  /-- Adds two 64-bit scalar values (R223). -/
  | sadd (g : BitVec 3) (d : BitVec 7) (a : BitVec 7) (b : BitVec 7)
  /-- Subtracts two 64-bit scalar values (R223). -/
  | ssub (g : BitVec 3) (d : BitVec 7) (a : BitVec 7) (b : BitVec 7)
  /-- Writes the low 64 bits of a scalar product (R223). -/
  | smul (g : BitVec 3) (d : BitVec 7) (a : BitVec 7) (b : BitVec 7)
  /-- Writes the high 64 bits of the exact scalar product (R223). -/
  | smulh (g : BitVec 3) (d : BitVec 7) (a : BitVec 7) (b : BitVec 7)
  /-- ANDs two scalar values (R223). -/
  | sand (g : BitVec 3) (d : BitVec 7) (a : BitVec 7) (b : BitVec 7)
  /-- ORs two scalar values (R223). -/
  | sor (g : BitVec 3) (d : BitVec 7) (a : BitVec 7) (b : BitVec 7)
  /-- XORs two scalar values (R223). -/
  | sxor (g : BitVec 3) (d : BitVec 7) (a : BitVec 7) (b : BitVec 7)
  /-- Shifts a scalar left by B[5:0] (R223). -/
  | sshl (g : BitVec 3) (d : BitVec 7) (a : BitVec 7) (b : BitVec 7)
  /-- Shifts a scalar right, zero-filled (R223). -/
  | sshr (g : BitVec 3) (d : BitVec 7) (a : BitVec 7) (b : BitVec 7)
  /-- Shifts a scalar right, sign-filled (R223). -/
  | ssar (g : BitVec 3) (d : BitVec 7) (a : BitVec 7) (b : BitVec 7)
  /-- Compares two scalars and writes the predicate in every active lane or the scalar predicate (R224). -/
  | scmp (g : BitVec 3) (c : BitVec 4) (p : BitVec 3) (a : BitVec 7) (b : BitVec 7)
  /-- Copies a scalar value (R223). -/
  | smov (g : BitVec 3) (d : BitVec 7) (a : BitVec 7)
  /-- Adds a 64-bit immediate to a scalar (R223). -/
  | saddi (g : BitVec 3) (d : BitVec 7) (a : BitVec 7) (i : BitVec 8)
  /-- Loads a 64-, 32-, 16- or 8-bit value from global memory into an s register (R225). -/
  | sld (g : BitVec 3) (d : BitVec 7) (a : BitVec 7) (b : BitVec 7)
  /-- Stores the low bytes of an s register to global memory (R225). -/
  | sst (g : BitVec 3) (d : BitVec 7) (a : BitVec 7) (b : BitVec 7)
  /-- Writes the smaller of two scalars (R223). -/
  | smin (g : BitVec 3) (d : BitVec 7) (a : BitVec 7) (b : BitVec 7)
  /-- Writes the larger of two scalars (R223). -/
  | smax (g : BitVec 3) (d : BitVec 7) (a : BitVec 7) (b : BitVec 7)
  /-- Writes a 64-bit immediate to an s register (R223). -/
  | smovi (g : BitVec 3) (d : BitVec 7) (i : BitVec 8)
  /-- Branches PC-relative in taken lanes, dividing the split by next PC (R212). -/
  | br (g : BitVec 3) (o : BitVec 22)
  /-- Calls PC-relative in taken lanes, pushing the return address (R212). -/
  | call (g : BitVec 3) (o : BitVec 22)
  /-- Calls register targets, grouping lanes by target and checking each target's HFUNC budget (R29). -/
  | calli (g : BitVec 3) (a : BitVec 7)
  /-- Jumps to register targets, dividing the split by target (R212). -/
  | jmpi (g : BitVec 3) (a : BitVec 7)
  /-- Returns taken lanes to the top of their path's return stack, or exits them if empty (R212). -/
  | ret (g : BitVec 3)
  /-- Retires the taken lanes, freeing the split slot when all its lanes retire (R18). -/
  | exit (g : BitVec 3)
  /-- Makes the group not ready until its awaited tokens clear, offering its issue slot (R36). -/
  | yield (g : BitVec 3) (i : BitVec 8)
  /-- Raises BREAK for code 0 or SW_TRAP with the code in TVAL (R217). -/
  | trap (g : BitVec 3) (i : BitVec 8)
  /-- Writes the feature, configuration or generation word the selector names to an s register (R219). -/
  | featq (g : BitVec 3) (d : BitVec 7) (i : BitVec 8)
  /-- Advances the PC and consumes a prefix, changing nothing else (R220). -/
  | nop (g : BitVec 3)
  /-- Returns from the current trap level to TEPC less the prefix, resuming the TSPLIT lanes under TMASK (R218). -/
  | tret (g : BitVec 3)
  /-- Loads an element or raw width per lane through a translation register, parking the group on a miss (R229). -/
  | ld (g : BitVec 3) (d : BitVec 7) (t : BitVec 3) (x : BitVec 7) (w : BitVec 3) (c : BitVec 2)
  /-- Stores per lane through a translation register, sending missed lanes to the replay queue (R229). -/
  | st (g : BitVec 3) (d : BitVec 7) (t : BitVec 3) (x : BitVec 7) (w : BitVec 3) (c : BitVec 2)
  /-- Loads per lane from the issuer's scratchpad (R230). -/
  | lds (g : BitVec 3) (d : BitVec 7) (t : BitVec 3) (x : BitVec 7) (w : BitVec 3) (c : BitVec 2)
  /-- Stores per lane to the issuer's scratchpad (R230). -/
  | sts (g : BitVec 3) (d : BitVec 7) (t : BitVec 3) (x : BitVec 7) (w : BitVec 3) (c : BitVec 2)
  /-- Writes each lane's word at the same offset in the scratchpads the core mask names (R231). -/
  | mcst (g : BitVec 3) (d : BitVec 7) (t : BitVec 3) (x : BitVec 7) (m : BitVec 4)
  /-- Prefetches the lane's sector or line into L1 or L2 without traps beyond binding (R232). -/
  | pfx (g : BitVec 3) (t : BitVec 3) (x : BitVec 7) (w : BitVec 3) (c : BitVec 2)
  /-- Binds a translation register from a uniform pointer, walking BASE and setting LIMIT (R233). -/
  | abind (g : BitVec 3) (t : BitVec 3) (x : BitVec 7)
  /-- Binds a translation register from a Punty handle, with HBOUND the object size (R233). -/
  | abindH (g : BitVec 3) (t : BitVec 3) (x : BitVec 7)
  /-- Loads one word per lane as an acquire at the scope in word bits 4:1 (R234). -/
  | lda (g : BitVec 3) (d : BitVec 7) (t : BitVec 3) (x : BitVec 7) (s : BitVec 4)
  /-- Stores one word per lane as a release, completing only when the replay queue is empty (R234). -/
  | stl (g : BitVec 3) (d : BitVec 7) (t : BitVec 3) (x : BitVec 7) (s : BitVec 4)
  /-- Performs an atomic read-modify-write per lane in increasing lane order and returns the old word (R236). -/
  | atom (g : BitVec 3) (d : BitVec 7) (t : BitVec 3) (x : BitVec 7) (o : BitVec 4) (p : BitVec 1)
  /-- Performs an atomic reduction per lane without returning a value (R236). -/
  | red (g : BitVec 3) (d : BitVec 7) (t : BitVec 3) (x : BitVec 7) (o : BitVec 4) (p : BitVec 1)
  /-- Orders the group's accesses at a scope, draining the replay queue and L1 as its order requires (R239). -/
  | fence (g : BitVec 3)
  /-- Holds the split until every participating lane's word meets the condition, optionally with a deadline (R240). -/
  | waitv (g : BitVec 3) (d : BitVec 7) (t : BitVec 3) (x : BitVec 7) (w : BitVec 3) (c : BitVec 2)
  /-- Starts a Blowpipe copy from global memory to scratchpad under a control block (R243). -/
  | cpy (a : BitVec 5) (b : BitVec 5) (y : BitVec 1)
  /-- Starts a copy from scratchpad to global memory (R243). -/
  | cpyo (a : BitVec 5) (b : BitVec 5) (y : BitVec 1)
  /-- Starts a copy from global to global memory (R243). -/
  | cpyg (a : BitVec 5) (b : BitVec 5) (y : BitVec 1)
  /-- Starts a copy from scratchpad to scratchpad (R243). -/
  | cpys (a : BitVec 5) (b : BitVec 5) (y : BitVec 1)
  /-- Starts a copy from global memory into the same offset of several cores' scratchpads (R243). -/
  | cpym (a : BitVec 5) (b : BitVec 5) (y : BitVec 1)
  /-- Starts a copy that encodes FP32 units into a binary8 page with block scales (R244). -/
  | cpye (a : BitVec 5) (b : BitVec 5) (y : BitVec 1)
  /-- Initialises a barrier with EXP and REM from B and clears PEND, PHASE and POISON (R250). -/
  | binit (a : BitVec 5) (b : BitVec 5)
  /-- Arrives on a barrier as a release, decrementing REM and possibly completing the phase (R250). -/
  | barv (d : BitVec 5) (a : BitVec 5)
  /-- Adds expected bytes to a barrier's PEND (R250). -/
  | bexp (a : BitVec 5) (b : BitVec 5)
  /-- Waits as an acquire until the barrier advances past phase B, raising BARRIER_POISON if poisoned (R251). -/
  | bwait (a : BitVec 5) (b : BitVec 5)
  /-- Reports without waiting whether the barrier has passed phase B or is poisoned (R251). -/
  | btest (d : BitVec 5) (a : BitVec 5) (b : BitVec 5)
  /-- Synchronises every group and Gaffer thread of the crew as an acq_rel event at CLUSTER scope (R252). -/
  | cbar
  /-- Attaches a queue register to a stream described by a scratchpad descriptor (R253). -/
  | qcfg (d : BitVec 5) (a : BitVec 5)
  /-- Detaches a queue register, discarding fetched-ahead entries or waiting for pushed entries to be written (R254). -/
  | qdrn (d : BitVec 5)
  /-- Removes the head entry of a task queue into scratchpad, waiting while open and empty (R273). -/
  | qpop (d : BitVec 5) (a : BitVec 5) (b : BitVec 5)
  /-- Appends an entry to a task queue as a PACKAGE release, waiting while open and full (R273). -/
  | qpush (d : BitVec 5) (a : BitVec 5) (b : BitVec 5)
  /-- Sends an entry to a queue of another part over the enqueue channel using a reserved slot (R274). -/
  | renq (d : BitVec 5) (a : BitVec 5) (b : BitVec 5) (k : BitVec 1)
  /-- Sends a request to the distributor to withdraw one unplaced crew, answered in a mailbox (R276). -/
  | fetchw (a : BitVec 5)
  /-- Ends a task, committing an open version and retiring a withdrawn crew named by a mailbox (R277). -/
  | taske (a : BitVec 5)
  /-- Opens a version for the issuer tagged with a task identifier (R278). -/
  | taska (a : BitVec 5)
  /-- Returns a queue's closed flag, drops, capacity and occupancy without changing it (R275). -/
  | qstat (d : BitVec 5) (a : BitVec 5)
  /-- Resolves a name, takes an open reference on its object and returns the handle (R281). -/
  | dopen (d : BitVec 5) (a : BitVec 5) (w : BitVec 1)
  /-- Releases one open reference to a handle's object, reclaiming it if unbound and last (R282). -/
  | dclose (d : BitVec 5) (a : BitVec 5)
  /-- Writes a weak snapshot block describing a handle's object (R282). -/
  | dinfo (d : BitVec 5) (a : BitVec 5) (b : BitVec 5)
  /-- Checks and atomically rebinds up to 16 names, or injects an ordered bind with .o (R283). -/
  | dbind (d : BitVec 5) (a : BitVec 5) (o : BitVec 1)
  /-- Reads the issuer's die PTIME (R286). -/
  | tstamp (d : BitVec 5)
  /-- Reads the time error bound and the HEALTHY and PODSYNC flags (R286). -/
  | tserr (d : BitVec 5)
  /-- Sends an ordered-class stamped word write to an address on another part (R287). -/
  | osend (d : BitVec 5) (a : BitVec 5) (b : BitVec 5)
  /-- Contributes LEN words to a router reduction round as a PACKAGE release (R289). -/
  | redp (a : BitVec 5) (b : BitVec 5) (o : BitVec 4)
  /-- Waits at the root until a reduction round closes complete or at its deadline (R290). -/
  | redw (d : BitVec 5) (a : BitVec 5) (b : BitVec 5) (o : BitVec 4)
  /-- Holds the split until PTIME reaches the target (R286). -/
  | twait (a : BitVec 5)
  /-- Waits for earlier Marver operations, checks a rule image and loads it into a slot (R86). -/
  | mrule (a : BitVec 5) (b : BitVec 5)
  /-- Reads and optionally writes the Marver configuration register MCF (R260). -/
  | mcfg (d : BitVec 5) (a : BitVec 5)
  /-- Queues a load of a weight tile into the shadow weights SHD (R262). -/
  | mstat (a : BitVec 5) (b : BitVec 5)
  /-- Queues an exchange of STA and SHD after every earlier operation (R79). -/
  | mswap (b : BitVec 5)
  /-- Queues streaming activation rows past STA into ACC (R89). -/
  | mstrm (a : BitVec 5) (b : BitVec 5) (s : BitVec 1)
  /-- Queues a forward wave of a rule over independent planes (R93). -/
  | mwave (a : BitVec 5) (b : BitVec 5)
  /-- Queues a backward gradient sweep of a backward rule (R96). -/
  | mback (a : BitVec 5) (b : BitVec 5)
  /-- Queues a move of an ACC window to memory, narrowing and optionally clearing (R265). -/
  | mdrain (a : BitVec 5) (b : BitVec 5)
  /-- Queues clearing ACC to +0 (R267). -/
  | mzero (b : BitVec 5)
  /-- Queues writing one sub-position of STA transposed into ACC (R92). -/
  | mtrn (a : BitVec 5) (b : BitVec 5)
  /-- Queues writing permuted STA rows into ACC by an index vector (R92). -/
  | mprm (a : BitVec 5) (b : BitVec 5)
  /-- Queues a column reduction of STA into the first ACC row of each chain (R92). -/
  | mred (b : BitVec 5) (s : BitVec 1)
  /-- Holds the thread until its earlier Marver operations complete and returns MST (R268). -/
  | mwait (d : BitVec 5)
  /-- Reads MST and clears its flag bits (R269). -/
  | mstep (d : BitVec 5)
  /-- Reads and clears MST and resumes the stopped operation at MST.STEP (R269). -/
  | mstepRes (d : BitVec 5)
  /-- Reads and clears MST and resumes the stopped operation at a supplied step rounded to a drain point (R269). -/
  | mstepResat (d : BitVec 5) (a : BitVec 5)
  /-- Reads and clears MST and discards the stopped operation, poisoning its barrier (R269). -/
  | mstepDis (d : BitVec 5)
  /-- Holds the thread until every operation that reached the Marver before it completes (R268). -/
  | mfence (d : BitVec 5)
  /-- Reads a system register into an s register subject to privilege and trap-level checks (R324). -/
  | rdsr (d : BitVec 5) (a : BitVec 5)
  /-- Writes a system register, with each register's side effects such as TEPC clearing PFX (R324). -/
  | wrsr (a : BitVec 5) (b : BitVec 5)
  /-- Releases earlier accesses and removes every translation of one page of the target context package-wide (R325). -/
  | tlbiPage (d : BitVec 5) (a : BitVec 5) (b : BitVec 5)
  /-- Releases earlier accesses and removes every translation of the target context package-wide (R325). -/
  | tlbiCtx (d : BitVec 5) (b : BitVec 5)
  /-- Clears LIMIT in overlapping translation registers of the target context and counts the invalidation (R326). -/
  | xrinv (d : BitVec 5) (a : BitVec 5) (b : BitVec 5)
  /-- Saves the target context's crew on a logical cluster into a save area (R328). -/
  | ctxsv (d : BitVec 5) (a : BitVec 5) (b : BitVec 5)
  /-- Checks a save area and restores its crew onto a logical cluster (R329). -/
  | ctxld (d : BitVec 5) (a : BitVec 5) (b : BitVec 5)
  /-- Removes the target context's work from the engines named by the mask (R330). -/
  | engrst (d : BitVec 5) (a : BitVec 5) (b : BitVec 5)
  /-- Writes dirty copies of a physical range back to DRAM in every cache (R331). -/
  | cfenceWb (a : BitVec 5) (b : BitVec 5)
  /-- Writes back and invalidates every cached copy of a physical range (R331). -/
  | cfenceInv (a : BitVec 5) (b : BitVec 5)
  /-- Invalidates every cached copy of a physical range without write-back (R331). -/
  | cfenceDrop (a : BitVec 5) (b : BitVec 5)
  /-- Gives up the split's issue slot until an enabled time or queue event occurs (R332). -/
  | idle (d : BitVec 5) (a : BitVec 5) (b : BitVec 5) (q : BitVec 1) (t : BitVec 1)
  /-- Opens a run of N body instructions, checking the trailer position and zeroing the latches (R30). -/
  | runb (n : BitVec 5) (a : BitVec 8)
  /-- Commits a run's held writes together and sets its token pending (R33). -/
  | trl (t : BitVec 3) (v : BitVec 1)
  /-- Shifts a 24-bit payload into the prefix's immediate accumulator (R167). -/
  | himm (p : BitVec 24)
  /-- Sets scope, order, rounding, saturate, unsigned and type-variant fields for the next instruction (R168). -/
  | hmod (s : BitVec 4) (o : BitVec 2) (r : BitVec 3) (a : BitVec 1) (u : BitVec 1) (v : BitVec 3) (z : BitVec 7)
  /-- Sets the issuing group's urgency weight (R169). -/
  | hsched (u : BitVec 3)
  /-- Sets the L2 allocation policy of the prefixed instruction's accesses (R170). -/
  | hcache (l : BitVec 2)
  /-- Declares a function's register budget for CALLI and acts as NOP when executed (R172). -/
  | hfunc (b : BitVec 5)
  /-- Host command writing bytes at a virtual address of a context, released at HOST scope (R401). -/
  | write (c : Cmd)
  /-- Host command returning bytes read under R145 as a HOST-scope acquire (R401). -/
  | read (c : Cmd)
  /-- Host command that checks a launch, writes its arguments and hands its crews to placement (R352). -/
  | launch (c : Cmd)
  /-- Host command that starts removal of a context (R382). -/
  | remove (c : Cmd)
  /-- Host command registering a context descriptor (R401). -/
  | regctx (c : Cmd)
  /-- Host command registering a Punty object and giving it a slot (R401). -/
  | regobj (c : Cmd)
  /-- Host command applying a bind list, creating missing names for the context (R429). -/
  | bind (c : Cmd)
  /-- Host command loading a code object into a context, choosing or translating a variant and relocating it (R421). -/
  | loadobj (c : Cmd)
  /-- Host command configuring, sizing or closing a task queue with reserved RENQ slots (R401). -/
  | qconf (c : Cmd)
  /-- Host command returning an attestation report and, with COMMIT, fixing the acknowledged feature set (R416). -/
  | featneg (c : Cmd)
  /-- Host command setting the part number, time parent, pod and ordered ports and pod domain (R401). -/
  | podcfg (c : Cmd)
  /-- Power-up runs the boot ROM self-test and brings up the management port (R411). -/
  | powerUp (p : PowerUp)
  /-- A WRITE to the boot staging buffer before the firmware runs (R411). -/
  | bootWrite (c : Cmd)
  /-- A pre-emption request stops a crew, drains its engines and writes its save area (R370). -/
  | preemptionRequest (k : CrewKey) (area : Nat)
  /-- A resident crew's quantum expires and the Headstock may save it (R357). -/
  | quantumExpiry (k : CrewKey) (area : Nat)
  /-- Every 4096 dc the longest-held split is parked and the next parked entry resumes (R24). -/
  | parkRotation (u : AgentKey)
  /-- Two paths with equal PC and return stack merge at an instruction boundary (R25). -/
  | pathMerge (u : AgentKey) (p q : PathKey)
  /-- A long-latency result lands, releasing stalled readers and clearing tokens when all of a run's results are in (R33). -/
  | resultWriteback (u : AgentKey) (token : Nat)
  /-- A pending imprecise trap from a discarded replay store is taken at the group's next issue slot at TL 0 (R142). -/
  | impreciseTrapTaken (u : AgentKey) (slot : Nat)
  /-- A waiting WAITV re-reads its word after it may have changed and completes when the condition holds (R240). -/
  | waitvRecheck (u : AgentKey) (slot : Nat)
  /-- A WAITV deadline passes with the condition unmet and the split raises PROGRESS (R241). -/
  | waitvDeadline (u : AgentKey) (slot : Nat)
  /-- PTIME reaches a TWAIT target and the split continues (R286). -/
  | twaitTargetReached (u : AgentKey) (slot : Nat)
  /-- An enabled time or queue event completes a waiting IDLE (R332). -/
  | idleWake (u : AgentKey) (slot : Nat)
  /-- The load engine fetches a stream entry ahead of the pops, holding any fault for the pop (R121). -/
  | queueStreamFetch (u : AgentKey) (q : Nat)
  /-- The Blowpipe writes a destination sector and, once visible, subtracts it from PEND and adds it to DONE (R125). -/
  | copySectorCount (k : CrewKey) (id : Nat)
  /-- The Marver starts the next queued operation once the previous one has completed (R79). -/
  | marverOpStart (k : CrewKey) (ix : Nat)
  /-- A Marver operation completes and arrives on its barrier, releasing waiting MWAIT or MFENCE (R267). -/
  | marverOpComplete (k : CrewKey) (ix : Nat)
  /-- The Lehr flushes a batch at 256 records or 20 us, sorting and merging it into range records (R344). -/
  | lehrBatchFlush (die : Nat)
  /-- The merge table pops a RETRY reply, freeing entries so waiters translate again and replay stores (R347). -/
  | faultReplyRetry (die : Nat)
  /-- The merge table pops a FAIL reply, sending every waiter down its fatal path (R347). -/
  | faultReplyFail (die : Nat)
  /-- A Headstock writes a bind record into a slot table; invalid records are rejected into SLOTREJ (R354). -/
  | bindRecordWrite (die cluster slot : Nat) (record : List Byte)
  /-- Dispatch places the first fitting crew of a cluster's valid slots in priority and DSEQ order (R355). -/
  | crewPlacement (die cluster : Nat)
  /-- A crew retires once its units and engine work have ended, decrementing its sheet's counter (R358). -/
  | crewRetire (k : CrewKey)
  /-- The distributor ranks FETCHW requests and writes grant or EMPTY answers to their mailboxes (R363). -/
  | distributorCycle (die : Nat)
  /-- A Headstock window write to a register with no row of its own, such as LEHRQ, URGCTL or ORDCTL (R317). -/
  | registerWrite (die offset width value : Nat)
  /-- Every 1 us a two-way time exchange disciplines PTIME by slewing (R387). -/
  | timeExchange (die : Nat) (x : TimeExchange)
  /-- No exchange completing for 1 ms clears HEALTHY (R388). -/
  | timeHealthTimeout (die : Nat)
  /-- An ordered-class packet arrives at a hub and is held or forwarded, or dropped beyond 31 hops (R391). -/
  | orderedPacketArrival (port : Option Nat) (p : OrdPacket)
  /-- A watermark vector arrives on VC 3 and raises the port's entries if in order (R394). -/
  | watermarkFlitReceive (port : Nat) (inOrder : Bool) (vec : List Nat)
  /-- An idle pod out-port sends a watermark flit every 1 us (R394). -/
  | watermarkBeacon (port : Nat)
  /-- A port whose watermark has not advanced for LIMIT us stalls, reporting an EVENT and withdrawing probes (R395). -/
  | portStall (port : Nat)
  /-- A destination acknowledgement returns and decrements a fence counter, releasing held synchronisation (R398). -/
  | fabricAck (u : AgentKey) (part : Nat)
  /-- Every 10 us the receiver sends an audit flit carrying FREED (R399). -/
  | creditAuditSend (l : LinkKey) (vc : Nat)
  /-- An intact audit flit recomputes CRED, counting corrections or retraining the link (R399). -/
  | creditAuditReceive (l : LinkKey) (vc freed : Nat) (intact : Bool)
  /-- A RENQ entry arrives at the destination queue in a reserved slot (R274). -/
  | renqDelivery (p : RenqPacket)
  /-- The destination's answer to a RENQ.ack returns and completes the waiting split (R274). -/
  | renqAck (id status : Nat)
  /-- A reduction contribution reaches the routers and the round combines when all are present (R289). -/
  | redpArrival (id : Nat)
  /-- A REDW deadline passes and the round closes with the missing-contributor mask (R290). -/
  | redwDeadline (u : AgentKey) (slot : Nat)
  /-- A corrected error is reported to the Headstock and changes no visible state (R380). -/
  | correctedError (die : Nat)
  /-- An uncorrectable error in DRAM, L2 or clean L1 data poisons its sector (R380). -/
  | uncorrectableDataError (pa : Nat)
  /-- An uncorrectable error in core state fences the core or cluster and saves and restores its crews (R381). -/
  | coreStateError (e : CoreError)
  /-- A fatal error such as in a Headstock or page table starts removal of the context (R381). -/
  | fatalError (c : CtxId)
  /-- A die reaching a power or temperature limit lowers its own clock (R426). -/
  | powerThermalLimit (die : Nat)
  /-- A reserved instruction word, such as MAJ 0x00 or a reserved sub-op, raises ILLEGAL_INSN at that word (R174). -/
  | reservedEncoding (w : Word)
  /-- A bulk-class FABRIC-scope access from another part arrives on VC 0 and is performed at this part, which returns its
  acknowledgement (R389). -/
  | fabricAccessArrival (p : FabricPacket)
  /-- A compute die's promise to its hub, min(PTIME, least unpassed stamp) minus 1, advances with PTIME and can raise the
  delivery watermark D (R392). -/
  | computeDiePromise (die : Nat)
  /-- A running Marver operation reaches a drain point after a pre-emption request, its started chains finish, and the save can
  continue (R98). -/
  | marverDrainPoint (k : CrewKey)
  /-- Returns the handling split straight to TL 0 from either trap level (R323). -/
  | eret
  /-- The supply is lost, all state except MRAM is lost, and an LMS leaf committed but not yet released is wasted (R415). -/
  | powerLoss
  deriving DecidableEq, Repr

end Sys2Proof
end

