-- ==== Sys2Proof/WellFormed.lean ====
section
/-!
DEFINITION. Which field values an instruction word may hold: the codes that the opcode map reserves are ill-formed
(spec 07 R158, R160, R170, R174 to R177), and the decoder refuses them. What an instruction refuses when it executes
(an operand specifier, an HMOD field, a privilege) is not looked at here.
-/
namespace Sys2Proof

/-- The conversion codes of FCVT: 0x00 to 0x0B, and 0x40 to 0x7F with a precision of 1 to 7 (R197, R198). -/
def fcvtCodeOk (b : BitVec 7) : Bool :=
  decide (b.toNat ≤ 0x0B) || (decide (0x40 ≤ b.toNat) && decide (b.toNat % 8 ≠ 0))

/-- The fields hold no reserved code. -/
def Instr.wellFormed : Instr → Bool
  | .icmp _ c _ _ _ => decide (c.toNat ≤ 5)            -- R188
  | .icmpi _ c _ _ _ => decide (c.toNat ≤ 5)           -- R188, R189
  | .scmp _ c _ _ _ => decide (c.toNat ≤ 5)            -- R224
  | .fcmp _ c _ _ _ => decide (c.toNat ≤ 11)           -- R194
  | .fsfu _ _ _ b => decide (b.toNat ≤ 6)              -- R196
  | .fcvt _ _ _ b => fcvtCodeOk b                      -- R197, R198
  | .frnd _ _ _ b => decide (b.toNat ≤ 1)              -- R199
  | .vote _ m _ _ => decide (m.toNat ≤ 2)              -- R203
  | .redl _ _ _ b => decide (b.toNat ≤ 7)              -- R204
  | .scanl _ _ _ b => decide (b.toNat ≤ 7)             -- R205
  | .fredl _ _ _ b => decide (b.toNat ≤ 2)             -- R204
  | .fscanl _ _ _ b => decide (b.toNat ≤ 2)            -- R205
  | .plop _ f _ _ b => decide (f.toNat ≤ 5) && (decide (f.toNat ≤ 3) || b == 0)   -- R208
  | .lds _ _ _ _ _ c => c == 0                         -- R171, R230
  | .sts _ _ _ _ _ c => c == 0                         -- R171, R230
  | .pfx _ _ _ w _ => decide (w.toNat ≤ 2)             -- R232
  | .lda _ _ _ _ s => decide (s.toNat ≤ 9)             -- R130
  | .stl _ _ _ _ s => decide (s.toNat ≤ 9)             -- R130
  | .atom _ _ _ _ o _ => decide (o.toNat ≤ 13)         -- R174
  | .red _ _ _ _ o _ => decide (o.toNat ≤ 13) && o != 9 && o != 10   -- R174
  | .waitv _ _ _ _ w c => decide (w.toNat ≤ 5) && decide (c.toNat ≤ 1)   -- R174
  | .cpy _ b y => y == 1 || b == 0                     -- R160, R243
  | .cpyo _ b y => y == 1 || b == 0
  | .cpyg _ b y => y == 1 || b == 0
  | .cpys _ b y => y == 1 || b == 0
  | .cpym _ b y => y == 1 || b == 0
  | .cpye _ b y => y == 1 || b == 0
  | .renq d _ _ k => k == 1 || d == 0                  -- R160, R274
  | .redp _ _ o => decide (o.toNat ≤ 7)                -- R288
  | .redw _ _ _ o => decide (o.toNat ≤ 7)              -- R288
  | .runb n _ => decide (1 ≤ n.toNat) && decide (n.toNat ≤ 24)   -- R177
  | .trl t v => v == 1 || t == 0                       -- R177
  | .hcache l => l != 3                                -- R170
  | _ => true

/-- The instruction is a word of the part. The others are events: they have no encoding (the rows of the opcode table
without bits). `reservedEncoding` stands for the words that spell no instruction. -/
def Instr.isWord : Instr → Bool
  | .write _ => false
  | .read _ => false
  | .launch _ => false
  | .remove _ => false
  | .regctx _ => false
  | .regobj _ => false
  | .bind _ => false
  | .loadobj _ => false
  | .qconf _ => false
  | .featneg _ => false
  | .podcfg _ => false
  | .powerUp _ => false
  | .bootWrite _ => false
  | .preemptionRequest _ _ => false
  | .quantumExpiry _ _ => false
  | .parkRotation _ => false
  | .pathMerge _ _ _ => false
  | .resultWriteback _ _ => false
  | .impreciseTrapTaken _ _ => false
  | .waitvRecheck _ _ => false
  | .waitvDeadline _ _ => false
  | .twaitTargetReached _ _ => false
  | .idleWake _ _ => false
  | .queueStreamFetch _ _ => false
  | .copySectorCount _ _ => false
  | .marverOpStart _ _ => false
  | .marverOpComplete _ _ => false
  | .lehrBatchFlush _ => false
  | .faultReplyRetry _ => false
  | .faultReplyFail _ => false
  | .bindRecordWrite _ _ _ _ => false
  | .crewPlacement _ _ => false
  | .crewRetire _ => false
  | .distributorCycle _ => false
  | .registerWrite _ _ _ _ => false
  | .timeExchange _ _ => false
  | .timeHealthTimeout _ => false
  | .orderedPacketArrival _ _ => false
  | .watermarkFlitReceive _ _ _ => false
  | .watermarkBeacon _ => false
  | .portStall _ => false
  | .fabricAck _ _ => false
  | .creditAuditSend _ _ => false
  | .creditAuditReceive _ _ _ _ => false
  | .renqDelivery _ => false
  | .renqAck _ _ => false
  | .redpArrival _ => false
  | .redwDeadline _ _ => false
  | .correctedError _ => false
  | .uncorrectableDataError _ => false
  | .coreStateError _ => false
  | .fatalError _ => false
  | .powerThermalLimit _ => false
  | .fabricAccessArrival _ => false
  | .computeDiePromise _ => false
  | .marverDrainPoint _ => false
  | .powerLoss => false
  | .reservedEncoding _ => false
  | _ => true

end Sys2Proof
end

