-- ==== Sys2Proof/Decode.lean ====
section
/-!
DEFINITION. The decoder: total on any word and any bytes, rejecting by name; and the encoder, written from the same
encoding tables of the spec (07 R157 to R177). Every word that the decoder rejects raises ILLEGAL_INSN where it is
issued (R160, R174 to R178).
-/
namespace Sys2Proof

/-- Why a word is no instruction. -/
inductive Reject where
  /-- MAJ is absent from the opcode map (R174). -/
  | reservedMaj
  /-- S = 1 of a MAJ that lists one mnemonic (R158). -/
  | reservedS
  /-- A reserved sub-op, EOP, SOP or MOD form (R175, R176). -/
  | reservedSub
  /-- A field that the instruction does not use is not zero (R160). -/
  | unusedField
  /-- A reserved condition, function, width, operation, scope or hint code (R158, R166, R170, R174, R177). -/
  | reservedCode
  /-- Fewer than four bytes. -/
  | truncated
  deriving DecidableEq, Repr

/-! ### Layouts (R157) -/

/-- An F3 word. -/
def mkF3 (maj : BitVec 7) (g : BitVec 3) (d a b : BitVec 7) (s : BitVec 1) : Word := maj ++ g ++ d ++ a ++ b ++ s
/-- An FI word. -/
def mkFI (maj : BitVec 7) (g : BitVec 3) (d a : BitVec 7) (i : BitVec 8) : Word := maj ++ g ++ d ++ a ++ i
/-- An FM word. -/
def mkFM (maj : BitVec 7) (g : BitVec 3) (d : BitVec 7) (t : BitVec 3) (x : BitVec 7) (w : BitVec 3) (c : BitVec 2) :
    Word := maj ++ g ++ d ++ t ++ x ++ w ++ c
/-- An FM/LS or FM/AT word: bits [4:1] a scope, an operation or a core mask, bit [0] a selector. -/
def mkFMS (maj : BitVec 7) (g : BitVec 3) (d : BitVec 7) (t : BitVec 3) (x : BitVec 7) (q : BitVec 4) (p : BitVec 1) :
    Word := maj ++ g ++ d ++ t ++ x ++ q ++ p
/-- An FB word. -/
def mkFB (maj : BitVec 7) (g : BitVec 3) (o : BitVec 22) : Word := maj ++ g ++ o
/-- An FX, FE or FS word. -/
def mkFX (maj : BitVec 7) (op d a b m : BitVec 5) : Word := maj ++ op ++ d ++ a ++ b ++ m
/-- An FR or FH word: bit [24] and the payload. -/
def mkFH (maj : BitVec 7) (k : BitVec 1) (y : BitVec 24) : Word := maj ++ k ++ y

/-- MAJ, bits [31:25]. -/
def fMaj (w : Word) : BitVec 7 := w.extractLsb' 25 7
/-- G, bits [24:22]. -/
def fG (w : Word) : BitVec 3 := w.extractLsb' 22 3
/-- D of F3, FI and FM, bits [21:15]. -/
def fD (w : Word) : BitVec 7 := w.extractLsb' 15 7
/-- A of F3 and FI, bits [14:8]. -/
def fA (w : Word) : BitVec 7 := w.extractLsb' 8 7
/-- B of F3, bits [7:1]. -/
def fB (w : Word) : BitVec 7 := w.extractLsb' 1 7
/-- S of F3, the selector of FM/LS and FM/AT, bit [0]. -/
def fS (w : Word) : BitVec 1 := w.extractLsb' 0 1
/-- I8 of FI, bits [7:0]. -/
def fI (w : Word) : BitVec 8 := w.extractLsb' 0 8
/-- T of FM, bits [14:12]. -/
def fT (w : Word) : BitVec 3 := w.extractLsb' 12 3
/-- X of FM, bits [11:5]. -/
def fX (w : Word) : BitVec 7 := w.extractLsb' 5 7
/-- W of FM, bits [4:2]. -/
def fW (w : Word) : BitVec 3 := w.extractLsb' 2 3
/-- C of FM, bits [1:0]. -/
def fC (w : Word) : BitVec 2 := w.extractLsb' 0 2
/-- Scope, operation or core mask, bits [4:1]. -/
def fQ (w : Word) : BitVec 4 := w.extractLsb' 1 4
/-- OFF of FB, bits [21:0]. -/
def fOff (w : Word) : BitVec 22 := w.extractLsb' 0 22
/-- Sub-op of FX, FE and FS, bits [24:20]. -/
def fSub (w : Word) : BitVec 5 := w.extractLsb' 20 5
/-- D of FX, FE and FS, bits [19:15]. -/
def fD5 (w : Word) : BitVec 5 := w.extractLsb' 15 5
/-- A of FX, FE and FS, bits [14:10]. -/
def fA5 (w : Word) : BitVec 5 := w.extractLsb' 10 5
/-- B of FX, FE and FS, bits [9:5]. -/
def fB5 (w : Word) : BitVec 5 := w.extractLsb' 5 5
/-- MOD of FX, FE and FS, bits [4:0]. -/
def fM5 (w : Word) : BitVec 5 := w.extractLsb' 0 5
/-- Bit [24] of FR and FH. -/
def fK (w : Word) : BitVec 1 := w.extractLsb' 24 1
/-- The payload of FR and FH, bits [23:0]. -/
def fPay (w : Word) : BitVec 24 := w.extractLsb' 0 24

/-- The word of an instruction (R157, R174 to R177); an event has no word, and the model gives it 0. -/
def encode : Instr → Word
  | .iadd g d a b => mkF3 0x1#7 g d a b 0x0#1
  | .isub g d a b => mkF3 0x1#7 g d a b 0x1#1
  | .iadds g d a b => mkF3 0x2#7 g d a b 0x0#1
  | .isubs g d a b => mkF3 0x2#7 g d a b 0x1#1
  | .imul g d a b => mkF3 0x3#7 g d a b 0x0#1
  | .imulh g d a b => mkF3 0x3#7 g d a b 0x1#1
  | .imad g d a b => mkF3 0x4#7 g d a b 0x0#1
  | .idiv g d a b => mkF3 0x5#7 g d a b 0x0#1
  | .irem g d a b => mkF3 0x5#7 g d a b 0x1#1
  | .imin g d a b => mkF3 0x6#7 g d a b 0x0#1
  | .imax g d a b => mkF3 0x6#7 g d a b 0x1#1
  | .and g d a b => mkF3 0x7#7 g d a b 0x0#1
  | .or g d a b => mkF3 0x7#7 g d a b 0x1#1
  | .xor g d a b => mkF3 0x8#7 g d a b 0x0#1
  | .andn g d a b => mkF3 0x8#7 g d a b 0x1#1
  | .shl g d a b => mkF3 0x9#7 g d a b 0x0#1
  | .shr g d a b => mkF3 0x9#7 g d a b 0x1#1
  | .sar g d a b => mkF3 0xa#7 g d a b 0x0#1
  | .rotl g d a b => mkF3 0xa#7 g d a b 0x1#1
  | .icmp g c p a b => mkF3 0xb#7 g (c ++ p) a b 0x0#1
  | .sel g d a b => mkF3 0xc#7 g d a b 0x0#1
  | .bfe g d a b => mkF3 0xd#7 g d a b 0x0#1
  | .bfi g d a b => mkF3 0xd#7 g d a b 0x1#1
  | .popc g d a => mkF3 0xe#7 g d a 0x78#7 0x0#1
  | .clz g d a => mkF3 0xe#7 g d a 0x78#7 0x1#1
  | .brev g d a => mkF3 0xf#7 g d a 0x78#7 0x0#1
  | .iabs g d a => mkF3 0xf#7 g d a 0x78#7 0x1#1
  | .dp4 g d a b => mkF3 0x10#7 g d a b 0x0#1
  | .dp4s g d a b => mkF3 0x10#7 g d a b 0x1#1
  | .dp2 g d a b => mkF3 0x11#7 g d a b 0x0#1
  | .dp2s g d a b => mkF3 0x11#7 g d a b 0x1#1
  | .iaddi g d a i => mkFI 0x12#7 g d a i
  | .andi g d a i => mkFI 0x13#7 g d a i
  | .ori g d a i => mkFI 0x14#7 g d a i
  | .xori g d a i => mkFI 0x15#7 g d a i
  | .shli g d a i => mkFI 0x16#7 g d a i
  | .shri g d a i => mkFI 0x17#7 g d a i
  | .sari g d a i => mkFI 0x18#7 g d a i
  | .icmpi g c p a i => mkFI 0x19#7 g (c ++ p) a i
  | .imuli g d a i => mkFI 0x1a#7 g d a i
  | .fadd g d a b => mkF3 0x20#7 g d a b 0x0#1
  | .fsub g d a b => mkF3 0x20#7 g d a b 0x1#1
  | .fmul g d a b => mkF3 0x21#7 g d a b 0x0#1
  | .fdiv g d a b => mkF3 0x21#7 g d a b 0x1#1
  | .ffma g d a b => mkF3 0x22#7 g d a b 0x0#1
  | .ffms g d a b => mkF3 0x22#7 g d a b 0x1#1
  | .fmin g d a b => mkF3 0x23#7 g d a b 0x0#1
  | .fmax g d a b => mkF3 0x23#7 g d a b 0x1#1
  | .fcmp g c p a b => mkF3 0x24#7 g (c ++ p) a b 0x0#1
  | .fclass g p a b => mkF3 0x24#7 g (0x0#4 ++ p) a b 0x1#1
  | .fsfu g d a b => mkF3 0x25#7 g d a b 0x0#1
  | .fcvt g d a b => mkF3 0x26#7 g d a b 0x0#1
  | .frnd g d a b => mkF3 0x26#7 g d a b 0x1#1
  | .hadd2 g d a b => mkF3 0x27#7 g d a b 0x0#1
  | .hmul2 g d a b => mkF3 0x27#7 g d a b 0x1#1
  | .hfma2 g d a b => mkF3 0x28#7 g d a b 0x0#1
  | .hdot2 g d a b => mkF3 0x28#7 g d a b 0x1#1
  | .faddx g d a b => mkF3 0x29#7 g d a b 0x0#1
  | .fmulx g d a b => mkF3 0x29#7 g d a b 0x1#1
  | .fabs g d a => mkF3 0x2a#7 g d a 0x78#7 0x0#1
  | .fneg g d a => mkF3 0x2a#7 g d a 0x78#7 0x1#1
  | .fscale g d a b => mkF3 0x2b#7 g d a b 0x0#1
  | .mov g d a => mkF3 0x40#7 g d a 0x78#7 0x0#1
  | .movi g d i => mkFI 0x41#7 g d 0x78#7 i
  | .shfl g d a b => mkF3 0x42#7 g d a b 0x0#1
  | .vote g m p a => mkF3 0x43#7 g (m ++ p) a 0x78#7 0x0#1
  | .ballot g d a => mkF3 0x43#7 g d a 0x78#7 0x1#1
  | .redl g d a b => mkF3 0x44#7 g d a b 0x0#1
  | .fredl g d a b => mkF3 0x44#7 g d a b 0x1#1
  | .scanl g d a b => mkF3 0x45#7 g d a b 0x0#1
  | .fscanl g d a b => mkF3 0x45#7 g d a b 0x1#1
  | .part g b => mkF3 0x46#7 g 0x78#7 0x78#7 b 0x0#1
  | .plop g f d a b => mkF3 0x47#7 g (f ++ d) (0x0#4 ++ a) (0x0#4 ++ b) 0x0#1
  | .pmov g d a b => mkF3 0x47#7 g d a b 0x1#1
  | .ixset g i => mkFI 0x48#7 g 0x78#7 0x78#7 i
  | .v2s g d a => mkF3 0x49#7 g d a 0x78#7 0x0#1
  | .sadd g d a b => mkF3 0x50#7 g d a b 0x0#1
  | .ssub g d a b => mkF3 0x50#7 g d a b 0x1#1
  | .smul g d a b => mkF3 0x51#7 g d a b 0x0#1
  | .smulh g d a b => mkF3 0x51#7 g d a b 0x1#1
  | .sand g d a b => mkF3 0x52#7 g d a b 0x0#1
  | .sor g d a b => mkF3 0x52#7 g d a b 0x1#1
  | .sxor g d a b => mkF3 0x53#7 g d a b 0x0#1
  | .sshl g d a b => mkF3 0x53#7 g d a b 0x1#1
  | .sshr g d a b => mkF3 0x54#7 g d a b 0x0#1
  | .ssar g d a b => mkF3 0x54#7 g d a b 0x1#1
  | .scmp g c p a b => mkF3 0x55#7 g (c ++ p) a b 0x0#1
  | .smov g d a => mkF3 0x56#7 g d a 0x78#7 0x0#1
  | .saddi g d a i => mkFI 0x57#7 g d a i
  | .sld g d a b => mkF3 0x58#7 g d a b 0x0#1
  | .sst g d a b => mkF3 0x58#7 g d a b 0x1#1
  | .smin g d a b => mkF3 0x59#7 g d a b 0x0#1
  | .smax g d a b => mkF3 0x59#7 g d a b 0x1#1
  | .smovi g d i => mkFI 0x5a#7 g d 0x78#7 i
  | .br g o => mkFB 0x60#7 g o
  | .call g o => mkFB 0x61#7 g o
  | .calli g a => mkF3 0x62#7 g 0x78#7 a 0x78#7 0x0#1
  | .jmpi g a => mkF3 0x62#7 g 0x78#7 a 0x78#7 0x1#1
  | .ret g => mkF3 0x63#7 g 0x78#7 0x78#7 0x78#7 0x0#1
  | .exit g => mkF3 0x63#7 g 0x78#7 0x78#7 0x78#7 0x1#1
  | .yield g i => mkFI 0x64#7 g 0x78#7 0x78#7 i
  | .trap g i => mkFI 0x65#7 g 0x78#7 0x78#7 i
  | .featq g d i => mkFI 0x66#7 g d 0x78#7 i
  | .nop g => mkF3 0x67#7 g 0x78#7 0x78#7 0x78#7 0x0#1
  | .tret g => mkF3 0x67#7 g 0x78#7 0x78#7 0x78#7 0x1#1
  | .ld g d t x w c => mkFM 0x68#7 g d t x w c
  | .st g d t x w c => mkFM 0x69#7 g d t x w c
  | .lds g d t x w c => mkFM 0x6a#7 g d t x w c
  | .sts g d t x w c => mkFM 0x6b#7 g d t x w c
  | .mcst g d t x m => mkFMS 0x6c#7 g d t x m 0x0#1
  | .pfx g t x w c => mkFM 0x6d#7 g 0x78#7 t x w c
  | .abind g t x => mkFM 0x6e#7 g 0x78#7 t x 0x0#3 0x0#2
  | .abindH g t x => mkFM 0x6e#7 g 0x78#7 t x 0x1#3 0x0#2
  | .lda g d t x s => mkFMS 0x6f#7 g d t x s 0x0#1
  | .stl g d t x s => mkFMS 0x6f#7 g d t x s 0x1#1
  | .atom g d t x o p => mkFMS 0x70#7 g d t x o p
  | .red g d t x o p => mkFMS 0x71#7 g d t x o p
  | .fence g => mkF3 0x72#7 g 0x78#7 0x78#7 0x78#7 0x0#1
  | .waitv g d t x w c => mkFM 0x73#7 g d t x w c
  | .cpy a b y => mkFX 0x74#7 0x0#5 0x0#5 a b (0x0#4 ++ y)
  | .cpyo a b y => mkFX 0x74#7 0x1#5 0x0#5 a b (0x0#4 ++ y)
  | .cpyg a b y => mkFX 0x74#7 0x2#5 0x0#5 a b (0x0#4 ++ y)
  | .cpys a b y => mkFX 0x74#7 0x3#5 0x0#5 a b (0x0#4 ++ y)
  | .cpym a b y => mkFX 0x74#7 0x4#5 0x0#5 a b (0x0#4 ++ y)
  | .cpye a b y => mkFX 0x74#7 0x5#5 0x0#5 a b (0x0#4 ++ y)
  | .binit a b => mkFX 0x75#7 0x0#5 0x0#5 a b 0x0#5
  | .barv d a => mkFX 0x75#7 0x1#5 d a 0x0#5 0x0#5
  | .bexp a b => mkFX 0x75#7 0x2#5 0x0#5 a b 0x0#5
  | .bwait a b => mkFX 0x75#7 0x3#5 0x0#5 a b 0x0#5
  | .btest d a b => mkFX 0x75#7 0x4#5 d a b 0x0#5
  | .cbar => mkFX 0x75#7 0x5#5 0x0#5 0x0#5 0x0#5 0x0#5
  | .qcfg d a => mkFX 0x76#7 0x0#5 d a 0x0#5 0x0#5
  | .qdrn d => mkFX 0x76#7 0x1#5 d 0x0#5 0x0#5 0x0#5
  | .qpop d a b => mkFX 0x78#7 0x0#5 d a b 0x0#5
  | .qpush d a b => mkFX 0x78#7 0x1#5 d a b 0x0#5
  | .renq d a b k => mkFX 0x78#7 0x2#5 d a b (0x0#4 ++ k)
  | .fetchw a => mkFX 0x78#7 0x3#5 0x0#5 a 0x0#5 0x0#5
  | .taske a => mkFX 0x78#7 0x4#5 0x0#5 a 0x0#5 0x0#5
  | .taska a => mkFX 0x78#7 0x5#5 0x0#5 a 0x0#5 0x0#5
  | .qstat d a => mkFX 0x78#7 0x6#5 d a 0x0#5 0x0#5
  | .dopen d a w => mkFX 0x79#7 0x0#5 d a 0x0#5 (0x0#4 ++ w)
  | .dclose d a => mkFX 0x79#7 0x1#5 d a 0x0#5 0x0#5
  | .dinfo d a b => mkFX 0x79#7 0x2#5 d a b 0x0#5
  | .dbind d a o => mkFX 0x79#7 0x3#5 d a 0x0#5 (0x0#4 ++ o)
  | .tstamp d => mkFX 0x7a#7 0x0#5 d 0x0#5 0x0#5 0x0#5
  | .tserr d => mkFX 0x7a#7 0x1#5 d 0x0#5 0x0#5 0x0#5
  | .osend d a b => mkFX 0x7a#7 0x2#5 d a b 0x0#5
  | .redp a b o => mkFX 0x7a#7 0x3#5 0x0#5 a b (o ++ 0x0#1)
  | .redw d a b o => mkFX 0x7a#7 0x4#5 d a b (o ++ 0x0#1)
  | .twait a => mkFX 0x7a#7 0x5#5 0x0#5 a 0x0#5 0x0#5
  | .mrule a b => mkFX 0x7c#7 0x0#5 0x0#5 a b 0x0#5
  | .mcfg d a => mkFX 0x7c#7 0x1#5 d a 0x0#5 0x0#5
  | .mstat a b => mkFX 0x7c#7 0x2#5 0x0#5 a b 0x0#5
  | .mswap b => mkFX 0x7c#7 0x3#5 0x0#5 0x0#5 b 0x0#5
  | .mstrm a b s => mkFX 0x7c#7 0x4#5 0x0#5 a b (0x0#4 ++ s)
  | .mwave a b => mkFX 0x7c#7 0x5#5 0x0#5 a b 0x0#5
  | .mback a b => mkFX 0x7c#7 0x6#5 0x0#5 a b 0x0#5
  | .mdrain a b => mkFX 0x7c#7 0x7#5 0x0#5 a b 0x0#5
  | .mzero b => mkFX 0x7c#7 0x8#5 0x0#5 0x0#5 b 0x0#5
  | .mtrn a b => mkFX 0x7c#7 0x9#5 0x0#5 a b 0x0#5
  | .mprm a b => mkFX 0x7c#7 0xa#5 0x0#5 a b 0x0#5
  | .mred b s => mkFX 0x7c#7 0xb#5 0x0#5 0x0#5 b (0x0#4 ++ s)
  | .mwait d => mkFX 0x7c#7 0xc#5 d 0x0#5 0x0#5 0x0#5
  | .mstep d => mkFX 0x7c#7 0xd#5 d 0x0#5 0x0#5 0x0#5
  | .mstepRes d => mkFX 0x7c#7 0xd#5 d 0x0#5 0x0#5 0x1#5
  | .mstepResat d a => mkFX 0x7c#7 0xd#5 d a 0x0#5 0x2#5
  | .mstepDis d => mkFX 0x7c#7 0xd#5 d 0x0#5 0x0#5 0x3#5
  | .mfence d => mkFX 0x7c#7 0xe#5 d 0x0#5 0x0#5 0x0#5
  | .eret => mkFX 0x7d#7 0x0#5 0x0#5 0x0#5 0x0#5 0x0#5
  | .rdsr d a => mkFX 0x7d#7 0x1#5 d a 0x0#5 0x0#5
  | .wrsr a b => mkFX 0x7d#7 0x2#5 0x0#5 a b 0x0#5
  | .tlbiPage d a b => mkFX 0x7d#7 0x3#5 d a b 0x0#5
  | .tlbiCtx d b => mkFX 0x7d#7 0x3#5 d 0x0#5 b 0x1#5
  | .xrinv d a b => mkFX 0x7d#7 0x4#5 d a b 0x0#5
  | .ctxsv d a b => mkFX 0x7d#7 0x5#5 d a b 0x0#5
  | .ctxld d a b => mkFX 0x7d#7 0x6#5 d a b 0x0#5
  | .engrst d a b => mkFX 0x7d#7 0x7#5 d a b 0x0#5
  | .cfenceWb a b => mkFX 0x7d#7 0x8#5 0x0#5 a b 0x0#5
  | .cfenceInv a b => mkFX 0x7d#7 0x8#5 0x0#5 a b 0x1#5
  | .cfenceDrop a b => mkFX 0x7d#7 0x8#5 0x0#5 a b 0x2#5
  | .idle d a b q t => mkFX 0x7d#7 0x9#5 d a b (0x0#3 ++ q ++ t)
  | .runb n a => mkFH 0x7e#7 0#1 (n ++ a ++ 0#11)
  | .trl t v => mkFH 0x7e#7 1#1 (t ++ v ++ 0#20)
  | .himm p => mkFH 0x7f#7 0#1 (p)
  | .hmod s o r a u v z => mkFH 0x7f#7 1#1 (0#3 ++ s ++ o ++ r ++ a ++ u ++ v ++ z)
  | .hsched u => mkFH 0x7f#7 1#1 (1#3 ++ u ++ 0#18)
  | .hcache l => mkFH 0x7f#7 1#1 (2#3 ++ l ++ 0#19)
  | .hfunc b => mkFH 0x7f#7 1#1 (3#3 ++ b ++ 0#16)
  | .write _ => 0
  | .read _ => 0
  | .launch _ => 0
  | .remove _ => 0
  | .regctx _ => 0
  | .regobj _ => 0
  | .bind _ => 0
  | .loadobj _ => 0
  | .qconf _ => 0
  | .featneg _ => 0
  | .podcfg _ => 0
  | .powerUp _ => 0
  | .bootWrite _ => 0
  | .preemptionRequest _ _ => 0
  | .quantumExpiry _ _ => 0
  | .parkRotation _ => 0
  | .pathMerge _ _ _ => 0
  | .resultWriteback _ _ => 0
  | .impreciseTrapTaken _ _ => 0
  | .waitvRecheck _ _ => 0
  | .waitvDeadline _ _ => 0
  | .twaitTargetReached _ _ => 0
  | .idleWake _ _ => 0
  | .queueStreamFetch _ _ => 0
  | .copySectorCount _ _ => 0
  | .marverOpStart _ _ => 0
  | .marverOpComplete _ _ => 0
  | .lehrBatchFlush _ => 0
  | .faultReplyRetry _ => 0
  | .faultReplyFail _ => 0
  | .bindRecordWrite _ _ _ _ => 0
  | .crewPlacement _ _ => 0
  | .crewRetire _ => 0
  | .distributorCycle _ => 0
  | .registerWrite _ _ _ _ => 0
  | .timeExchange _ _ => 0
  | .timeHealthTimeout _ => 0
  | .orderedPacketArrival _ _ => 0
  | .watermarkFlitReceive _ _ _ => 0
  | .watermarkBeacon _ => 0
  | .portStall _ => 0
  | .fabricAck _ _ => 0
  | .creditAuditSend _ _ => 0
  | .creditAuditReceive _ _ _ _ => 0
  | .renqDelivery _ => 0
  | .renqAck _ _ => 0
  | .redpArrival _ => 0
  | .redwDeadline _ _ => 0
  | .correctedError _ => 0
  | .uncorrectableDataError _ => 0
  | .coreStateError _ => 0
  | .fatalError _ => 0
  | .powerThermalLimit _ => 0
  | .reservedEncoding w => w
  | .fabricAccessArrival _ => 0
  | .computeDiePromise _ => 0
  | .marverDrainPoint _ => 0
  | .powerLoss => 0

/-- The sub-ops of MAJ 0x74 (R175, R176). -/
def decodeFX74 (w : Word) : Except Reject Instr :=
  match (fSub w).toNat with
  | 0 => if fD5 w = 0x0#5 ∧ (fM5 w).extractLsb' 1 4 = 0x0#4 then .ok (.cpy (fA5 w) (fB5 w) ((fM5 w).extractLsb' 0 1)) else .error .unusedField
  | 1 => if fD5 w = 0x0#5 ∧ (fM5 w).extractLsb' 1 4 = 0x0#4 then .ok (.cpyo (fA5 w) (fB5 w) ((fM5 w).extractLsb' 0 1)) else .error .unusedField
  | 2 => if fD5 w = 0x0#5 ∧ (fM5 w).extractLsb' 1 4 = 0x0#4 then .ok (.cpyg (fA5 w) (fB5 w) ((fM5 w).extractLsb' 0 1)) else .error .unusedField
  | 3 => if fD5 w = 0x0#5 ∧ (fM5 w).extractLsb' 1 4 = 0x0#4 then .ok (.cpys (fA5 w) (fB5 w) ((fM5 w).extractLsb' 0 1)) else .error .unusedField
  | 4 => if fD5 w = 0x0#5 ∧ (fM5 w).extractLsb' 1 4 = 0x0#4 then .ok (.cpym (fA5 w) (fB5 w) ((fM5 w).extractLsb' 0 1)) else .error .unusedField
  | 5 => if fD5 w = 0x0#5 ∧ (fM5 w).extractLsb' 1 4 = 0x0#4 then .ok (.cpye (fA5 w) (fB5 w) ((fM5 w).extractLsb' 0 1)) else .error .unusedField
  | _ => .error .reservedSub

/-- The sub-ops of MAJ 0x75 (R175, R176). -/
def decodeFX75 (w : Word) : Except Reject Instr :=
  match (fSub w).toNat with
  | 0 => if fD5 w = 0x0#5 ∧ fM5 w = 0x0#5 then .ok (.binit (fA5 w) (fB5 w)) else .error .unusedField
  | 1 => if fB5 w = 0x0#5 ∧ fM5 w = 0x0#5 then .ok (.barv (fD5 w) (fA5 w)) else .error .unusedField
  | 2 => if fD5 w = 0x0#5 ∧ fM5 w = 0x0#5 then .ok (.bexp (fA5 w) (fB5 w)) else .error .unusedField
  | 3 => if fD5 w = 0x0#5 ∧ fM5 w = 0x0#5 then .ok (.bwait (fA5 w) (fB5 w)) else .error .unusedField
  | 4 => if fM5 w = 0x0#5 then .ok (.btest (fD5 w) (fA5 w) (fB5 w)) else .error .unusedField
  | 5 => if fD5 w = 0x0#5 ∧ fA5 w = 0x0#5 ∧ fB5 w = 0x0#5 ∧ fM5 w = 0x0#5 then .ok (.cbar) else .error .unusedField
  | _ => .error .reservedSub

/-- The sub-ops of MAJ 0x76 (R175, R176). -/
def decodeFX76 (w : Word) : Except Reject Instr :=
  match (fSub w).toNat with
  | 0 => if fB5 w = 0x0#5 ∧ fM5 w = 0x0#5 then .ok (.qcfg (fD5 w) (fA5 w)) else .error .unusedField
  | 1 => if fA5 w = 0x0#5 ∧ fB5 w = 0x0#5 ∧ fM5 w = 0x0#5 then .ok (.qdrn (fD5 w)) else .error .unusedField
  | _ => .error .reservedSub

/-- The sub-ops of MAJ 0x78 (R175, R176). -/
def decodeFX78 (w : Word) : Except Reject Instr :=
  match (fSub w).toNat with
  | 0 => if fM5 w = 0x0#5 then .ok (.qpop (fD5 w) (fA5 w) (fB5 w)) else .error .unusedField
  | 1 => if fM5 w = 0x0#5 then .ok (.qpush (fD5 w) (fA5 w) (fB5 w)) else .error .unusedField
  | 2 => if (fM5 w).extractLsb' 1 4 = 0x0#4 then .ok (.renq (fD5 w) (fA5 w) (fB5 w) ((fM5 w).extractLsb' 0 1)) else .error .unusedField
  | 3 => if fD5 w = 0x0#5 ∧ fB5 w = 0x0#5 ∧ fM5 w = 0x0#5 then .ok (.fetchw (fA5 w)) else .error .unusedField
  | 4 => if fD5 w = 0x0#5 ∧ fB5 w = 0x0#5 ∧ fM5 w = 0x0#5 then .ok (.taske (fA5 w)) else .error .unusedField
  | 5 => if fD5 w = 0x0#5 ∧ fB5 w = 0x0#5 ∧ fM5 w = 0x0#5 then .ok (.taska (fA5 w)) else .error .unusedField
  | 6 => if fB5 w = 0x0#5 ∧ fM5 w = 0x0#5 then .ok (.qstat (fD5 w) (fA5 w)) else .error .unusedField
  | _ => .error .reservedSub

/-- The sub-ops of MAJ 0x79 (R175, R176). -/
def decodeFX79 (w : Word) : Except Reject Instr :=
  match (fSub w).toNat with
  | 0 => if fB5 w = 0x0#5 ∧ (fM5 w).extractLsb' 1 4 = 0x0#4 then .ok (.dopen (fD5 w) (fA5 w) ((fM5 w).extractLsb' 0 1)) else .error .unusedField
  | 1 => if fB5 w = 0x0#5 ∧ fM5 w = 0x0#5 then .ok (.dclose (fD5 w) (fA5 w)) else .error .unusedField
  | 2 => if fM5 w = 0x0#5 then .ok (.dinfo (fD5 w) (fA5 w) (fB5 w)) else .error .unusedField
  | 3 => if fB5 w = 0x0#5 ∧ (fM5 w).extractLsb' 1 4 = 0x0#4 then .ok (.dbind (fD5 w) (fA5 w) ((fM5 w).extractLsb' 0 1)) else .error .unusedField
  | _ => .error .reservedSub

/-- The sub-ops of MAJ 0x7A (R175, R176). -/
def decodeFX7A (w : Word) : Except Reject Instr :=
  match (fSub w).toNat with
  | 0 => if fA5 w = 0x0#5 ∧ fB5 w = 0x0#5 ∧ fM5 w = 0x0#5 then .ok (.tstamp (fD5 w)) else .error .unusedField
  | 1 => if fA5 w = 0x0#5 ∧ fB5 w = 0x0#5 ∧ fM5 w = 0x0#5 then .ok (.tserr (fD5 w)) else .error .unusedField
  | 2 => if fM5 w = 0x0#5 then .ok (.osend (fD5 w) (fA5 w) (fB5 w)) else .error .unusedField
  | 3 => if fD5 w = 0x0#5 ∧ (fM5 w).extractLsb' 0 1 = 0x0#1 then .ok (.redp (fA5 w) (fB5 w) ((fM5 w).extractLsb' 1 4)) else .error .unusedField
  | 4 => if (fM5 w).extractLsb' 0 1 = 0x0#1 then .ok (.redw (fD5 w) (fA5 w) (fB5 w) ((fM5 w).extractLsb' 1 4)) else .error .unusedField
  | 5 => if fD5 w = 0x0#5 ∧ fB5 w = 0x0#5 ∧ fM5 w = 0x0#5 then .ok (.twait (fA5 w)) else .error .unusedField
  | _ => .error .reservedSub

/-- The sub-ops of MAJ 0x7C (R175, R176). -/
def decodeFX7C (w : Word) : Except Reject Instr :=
  match (fSub w).toNat with
  | 0 => if fD5 w = 0x0#5 ∧ fM5 w = 0x0#5 then .ok (.mrule (fA5 w) (fB5 w)) else .error .unusedField
  | 1 => if fB5 w = 0x0#5 ∧ fM5 w = 0x0#5 then .ok (.mcfg (fD5 w) (fA5 w)) else .error .unusedField
  | 2 => if fD5 w = 0x0#5 ∧ fM5 w = 0x0#5 then .ok (.mstat (fA5 w) (fB5 w)) else .error .unusedField
  | 3 => if fD5 w = 0x0#5 ∧ fA5 w = 0x0#5 ∧ fM5 w = 0x0#5 then .ok (.mswap (fB5 w)) else .error .unusedField
  | 4 => if fD5 w = 0x0#5 ∧ (fM5 w).extractLsb' 1 4 = 0x0#4 then .ok (.mstrm (fA5 w) (fB5 w) ((fM5 w).extractLsb' 0 1)) else .error .unusedField
  | 5 => if fD5 w = 0x0#5 ∧ fM5 w = 0x0#5 then .ok (.mwave (fA5 w) (fB5 w)) else .error .unusedField
  | 6 => if fD5 w = 0x0#5 ∧ fM5 w = 0x0#5 then .ok (.mback (fA5 w) (fB5 w)) else .error .unusedField
  | 7 => if fD5 w = 0x0#5 ∧ fM5 w = 0x0#5 then .ok (.mdrain (fA5 w) (fB5 w)) else .error .unusedField
  | 8 => if fD5 w = 0x0#5 ∧ fA5 w = 0x0#5 ∧ fM5 w = 0x0#5 then .ok (.mzero (fB5 w)) else .error .unusedField
  | 9 => if fD5 w = 0x0#5 ∧ fM5 w = 0x0#5 then .ok (.mtrn (fA5 w) (fB5 w)) else .error .unusedField
  | 10 => if fD5 w = 0x0#5 ∧ fM5 w = 0x0#5 then .ok (.mprm (fA5 w) (fB5 w)) else .error .unusedField
  | 11 => if fD5 w = 0x0#5 ∧ fA5 w = 0x0#5 ∧ (fM5 w).extractLsb' 1 4 = 0x0#4 then .ok (.mred (fB5 w) ((fM5 w).extractLsb' 0 1)) else .error .unusedField
  | 12 => if fA5 w = 0x0#5 ∧ fB5 w = 0x0#5 ∧ fM5 w = 0x0#5 then .ok (.mwait (fD5 w)) else .error .unusedField
  | 13 => if fM5 w = 0x0#5 then (if fA5 w = 0x0#5 ∧ fB5 w = 0x0#5 then .ok (.mstep (fD5 w)) else .error .unusedField) else if fM5 w = 0x1#5 then (if fA5 w = 0x0#5 ∧ fB5 w = 0x0#5 then .ok (.mstepRes (fD5 w)) else .error .unusedField) else if fM5 w = 0x2#5 then (if fB5 w = 0x0#5 then .ok (.mstepResat (fD5 w) (fA5 w)) else .error .unusedField) else if fM5 w = 0x3#5 then (if fA5 w = 0x0#5 ∧ fB5 w = 0x0#5 then .ok (.mstepDis (fD5 w)) else .error .unusedField) else .error .reservedSub
  | 14 => if fA5 w = 0x0#5 ∧ fB5 w = 0x0#5 ∧ fM5 w = 0x0#5 then .ok (.mfence (fD5 w)) else .error .unusedField
  | _ => .error .reservedSub

/-- The sub-ops of MAJ 0x7D (R175, R176). -/
def decodeFX7D (w : Word) : Except Reject Instr :=
  match (fSub w).toNat with
  | 0 => if fD5 w = 0x0#5 ∧ fA5 w = 0x0#5 ∧ fB5 w = 0x0#5 ∧ fM5 w = 0x0#5 then .ok (.eret) else .error .unusedField
  | 1 => if fB5 w = 0x0#5 ∧ fM5 w = 0x0#5 then .ok (.rdsr (fD5 w) (fA5 w)) else .error .unusedField
  | 2 => if fD5 w = 0x0#5 ∧ fM5 w = 0x0#5 then .ok (.wrsr (fA5 w) (fB5 w)) else .error .unusedField
  | 3 => if fM5 w = 0x0#5 then (.ok (.tlbiPage (fD5 w) (fA5 w) (fB5 w))) else if fM5 w = 0x1#5 then (if fA5 w = 0x0#5 then .ok (.tlbiCtx (fD5 w) (fB5 w)) else .error .unusedField) else .error .reservedSub
  | 4 => if fM5 w = 0x0#5 then .ok (.xrinv (fD5 w) (fA5 w) (fB5 w)) else .error .unusedField
  | 5 => if fM5 w = 0x0#5 then .ok (.ctxsv (fD5 w) (fA5 w) (fB5 w)) else .error .unusedField
  | 6 => if fM5 w = 0x0#5 then .ok (.ctxld (fD5 w) (fA5 w) (fB5 w)) else .error .unusedField
  | 7 => if fM5 w = 0x0#5 then .ok (.engrst (fD5 w) (fA5 w) (fB5 w)) else .error .unusedField
  | 8 => if fM5 w = 0x0#5 then (if fD5 w = 0x0#5 then .ok (.cfenceWb (fA5 w) (fB5 w)) else .error .unusedField) else if fM5 w = 0x1#5 then (if fD5 w = 0x0#5 then .ok (.cfenceInv (fA5 w) (fB5 w)) else .error .unusedField) else if fM5 w = 0x2#5 then (if fD5 w = 0x0#5 then .ok (.cfenceDrop (fA5 w) (fB5 w)) else .error .unusedField) else .error .reservedSub
  | 9 => if (fM5 w).extractLsb' 2 3 = 0x0#3 then .ok (.idle (fD5 w) (fA5 w) (fB5 w) ((fM5 w).extractLsb' 1 1) ((fM5 w).extractLsb' 0 1)) else .error .unusedField
  | _ => .error .reservedSub

/-- The hint words with bit [24] set, by kind (R166). -/
def decodeHint (w : Word) : Except Reject Instr :=
  match (w.extractLsb' 21 3).toNat with
  | 0 => .ok (.hmod (w.extractLsb' 17 4) (w.extractLsb' 15 2) (w.extractLsb' 12 3) (w.extractLsb' 11 1) (w.extractLsb' 10 1) (w.extractLsb' 7 3) (w.extractLsb' 0 7))
  | 1 => if w.extractLsb' 0 18 = 0#18 then .ok (.hsched (w.extractLsb' 18 3)) else .error .unusedField
  | 2 => if w.extractLsb' 0 19 = 0#19 then .ok (.hcache (w.extractLsb' 19 2)) else .error .unusedField
  | 3 => if w.extractLsb' 0 16 = 0#16 then .ok (.hfunc (w.extractLsb' 16 5)) else .error .unusedField
  | _ => .error .reservedCode

/-- The instructions of MAJ 0x00 to 0x0F (R174). -/
def decodeMaj0 (w : Word) : Except Reject Instr :=
  match (fMaj w).toNat with
  | 0x01 => if fS w = 0#1 then (.ok (.iadd (fG w) (fD w) (fA w) (fB w))) else (.ok (.isub (fG w) (fD w) (fA w) (fB w)))
  | 0x02 => if fS w = 0#1 then (.ok (.iadds (fG w) (fD w) (fA w) (fB w))) else (.ok (.isubs (fG w) (fD w) (fA w) (fB w)))
  | 0x03 => if fS w = 0#1 then (.ok (.imul (fG w) (fD w) (fA w) (fB w))) else (.ok (.imulh (fG w) (fD w) (fA w) (fB w)))
  | 0x04 => if fS w = 0#1 then (.ok (.imad (fG w) (fD w) (fA w) (fB w))) else (.error .reservedS)
  | 0x05 => if fS w = 0#1 then (.ok (.idiv (fG w) (fD w) (fA w) (fB w))) else (.ok (.irem (fG w) (fD w) (fA w) (fB w)))
  | 0x06 => if fS w = 0#1 then (.ok (.imin (fG w) (fD w) (fA w) (fB w))) else (.ok (.imax (fG w) (fD w) (fA w) (fB w)))
  | 0x07 => if fS w = 0#1 then (.ok (.and (fG w) (fD w) (fA w) (fB w))) else (.ok (.or (fG w) (fD w) (fA w) (fB w)))
  | 0x08 => if fS w = 0#1 then (.ok (.xor (fG w) (fD w) (fA w) (fB w))) else (.ok (.andn (fG w) (fD w) (fA w) (fB w)))
  | 0x09 => if fS w = 0#1 then (.ok (.shl (fG w) (fD w) (fA w) (fB w))) else (.ok (.shr (fG w) (fD w) (fA w) (fB w)))
  | 0x0A => if fS w = 0#1 then (.ok (.sar (fG w) (fD w) (fA w) (fB w))) else (.ok (.rotl (fG w) (fD w) (fA w) (fB w)))
  | 0x0B => if fS w = 0#1 then (.ok (.icmp (fG w) ((fD w).extractLsb' 3 4) ((fD w).extractLsb' 0 3) (fA w) (fB w))) else (.error .reservedS)
  | 0x0C => if fS w = 0#1 then (.ok (.sel (fG w) (fD w) (fA w) (fB w))) else (.error .reservedS)
  | 0x0D => if fS w = 0#1 then (.ok (.bfe (fG w) (fD w) (fA w) (fB w))) else (.ok (.bfi (fG w) (fD w) (fA w) (fB w)))
  | 0x0E => if fS w = 0#1 then (if fB w = 0x78#7 then .ok (.popc (fG w) (fD w) (fA w)) else .error .unusedField) else (if fB w = 0x78#7 then .ok (.clz (fG w) (fD w) (fA w)) else .error .unusedField)
  | 0x0F => if fS w = 0#1 then (if fB w = 0x78#7 then .ok (.brev (fG w) (fD w) (fA w)) else .error .unusedField) else (if fB w = 0x78#7 then .ok (.iabs (fG w) (fD w) (fA w)) else .error .unusedField)
  | _ => .error .reservedMaj

/-- The instructions of MAJ 0x10 to 0x1F (R174). -/
def decodeMaj1 (w : Word) : Except Reject Instr :=
  match (fMaj w).toNat with
  | 0x10 => if fS w = 0#1 then (.ok (.dp4 (fG w) (fD w) (fA w) (fB w))) else (.ok (.dp4s (fG w) (fD w) (fA w) (fB w)))
  | 0x11 => if fS w = 0#1 then (.ok (.dp2 (fG w) (fD w) (fA w) (fB w))) else (.ok (.dp2s (fG w) (fD w) (fA w) (fB w)))
  | 0x12 => .ok (.iaddi (fG w) (fD w) (fA w) (fI w))
  | 0x13 => .ok (.andi (fG w) (fD w) (fA w) (fI w))
  | 0x14 => .ok (.ori (fG w) (fD w) (fA w) (fI w))
  | 0x15 => .ok (.xori (fG w) (fD w) (fA w) (fI w))
  | 0x16 => .ok (.shli (fG w) (fD w) (fA w) (fI w))
  | 0x17 => .ok (.shri (fG w) (fD w) (fA w) (fI w))
  | 0x18 => .ok (.sari (fG w) (fD w) (fA w) (fI w))
  | 0x19 => .ok (.icmpi (fG w) ((fD w).extractLsb' 3 4) ((fD w).extractLsb' 0 3) (fA w) (fI w))
  | 0x1A => .ok (.imuli (fG w) (fD w) (fA w) (fI w))
  | _ => .error .reservedMaj

/-- The instructions of MAJ 0x20 to 0x2F (R174). -/
def decodeMaj2 (w : Word) : Except Reject Instr :=
  match (fMaj w).toNat with
  | 0x20 => if fS w = 0#1 then (.ok (.fadd (fG w) (fD w) (fA w) (fB w))) else (.ok (.fsub (fG w) (fD w) (fA w) (fB w)))
  | 0x21 => if fS w = 0#1 then (.ok (.fmul (fG w) (fD w) (fA w) (fB w))) else (.ok (.fdiv (fG w) (fD w) (fA w) (fB w)))
  | 0x22 => if fS w = 0#1 then (.ok (.ffma (fG w) (fD w) (fA w) (fB w))) else (.ok (.ffms (fG w) (fD w) (fA w) (fB w)))
  | 0x23 => if fS w = 0#1 then (.ok (.fmin (fG w) (fD w) (fA w) (fB w))) else (.ok (.fmax (fG w) (fD w) (fA w) (fB w)))
  | 0x24 => if fS w = 0#1 then (.ok (.fcmp (fG w) ((fD w).extractLsb' 3 4) ((fD w).extractLsb' 0 3) (fA w) (fB w))) else (if (fD w).extractLsb' 3 4 = 0x0#4 then .ok (.fclass (fG w) ((fD w).extractLsb' 0 3) (fA w) (fB w)) else .error .unusedField)
  | 0x25 => if fS w = 0#1 then (.ok (.fsfu (fG w) (fD w) (fA w) (fB w))) else (.error .reservedS)
  | 0x26 => if fS w = 0#1 then (.ok (.fcvt (fG w) (fD w) (fA w) (fB w))) else (.ok (.frnd (fG w) (fD w) (fA w) (fB w)))
  | 0x27 => if fS w = 0#1 then (.ok (.hadd2 (fG w) (fD w) (fA w) (fB w))) else (.ok (.hmul2 (fG w) (fD w) (fA w) (fB w)))
  | 0x28 => if fS w = 0#1 then (.ok (.hfma2 (fG w) (fD w) (fA w) (fB w))) else (.ok (.hdot2 (fG w) (fD w) (fA w) (fB w)))
  | 0x29 => if fS w = 0#1 then (.ok (.faddx (fG w) (fD w) (fA w) (fB w))) else (.ok (.fmulx (fG w) (fD w) (fA w) (fB w)))
  | 0x2A => if fS w = 0#1 then (if fB w = 0x78#7 then .ok (.fabs (fG w) (fD w) (fA w)) else .error .unusedField) else (if fB w = 0x78#7 then .ok (.fneg (fG w) (fD w) (fA w)) else .error .unusedField)
  | 0x2B => if fS w = 0#1 then (.ok (.fscale (fG w) (fD w) (fA w) (fB w))) else (.error .reservedS)
  | _ => .error .reservedMaj

/-- The instructions of MAJ 0x40 to 0x4F (R174). -/
def decodeMaj4 (w : Word) : Except Reject Instr :=
  match (fMaj w).toNat with
  | 0x40 => if fS w = 0#1 then (if fB w = 0x78#7 then .ok (.mov (fG w) (fD w) (fA w)) else .error .unusedField) else (.error .reservedS)
  | 0x41 => if fA w = 0x78#7 then .ok (.movi (fG w) (fD w) (fI w)) else .error .unusedField
  | 0x42 => if fS w = 0#1 then (.ok (.shfl (fG w) (fD w) (fA w) (fB w))) else (.error .reservedS)
  | 0x43 => if fS w = 0#1 then (if fB w = 0x78#7 then .ok (.vote (fG w) ((fD w).extractLsb' 3 4) ((fD w).extractLsb' 0 3) (fA w)) else .error .unusedField) else (if fB w = 0x78#7 then .ok (.ballot (fG w) (fD w) (fA w)) else .error .unusedField)
  | 0x44 => if fS w = 0#1 then (.ok (.redl (fG w) (fD w) (fA w) (fB w))) else (.ok (.fredl (fG w) (fD w) (fA w) (fB w)))
  | 0x45 => if fS w = 0#1 then (.ok (.scanl (fG w) (fD w) (fA w) (fB w))) else (.ok (.fscanl (fG w) (fD w) (fA w) (fB w)))
  | 0x46 => if fS w = 0#1 then (if fD w = 0x78#7 ∧ fA w = 0x78#7 then .ok (.part (fG w) (fB w)) else .error .unusedField) else (.error .reservedS)
  | 0x47 => if fS w = 0#1 then (if (fA w).extractLsb' 3 4 = 0x0#4 ∧ (fB w).extractLsb' 3 4 = 0x0#4 then .ok (.plop (fG w) ((fD w).extractLsb' 3 4) ((fD w).extractLsb' 0 3) ((fA w).extractLsb' 0 3) ((fB w).extractLsb' 0 3)) else .error .unusedField) else (.ok (.pmov (fG w) (fD w) (fA w) (fB w)))
  | 0x48 => if fD w = 0x78#7 ∧ fA w = 0x78#7 then .ok (.ixset (fG w) (fI w)) else .error .unusedField
  | 0x49 => if fS w = 0#1 then (if fB w = 0x78#7 then .ok (.v2s (fG w) (fD w) (fA w)) else .error .unusedField) else (.error .reservedS)
  | _ => .error .reservedMaj

/-- The instructions of MAJ 0x50 to 0x5F (R174). -/
def decodeMaj5 (w : Word) : Except Reject Instr :=
  match (fMaj w).toNat with
  | 0x50 => if fS w = 0#1 then (.ok (.sadd (fG w) (fD w) (fA w) (fB w))) else (.ok (.ssub (fG w) (fD w) (fA w) (fB w)))
  | 0x51 => if fS w = 0#1 then (.ok (.smul (fG w) (fD w) (fA w) (fB w))) else (.ok (.smulh (fG w) (fD w) (fA w) (fB w)))
  | 0x52 => if fS w = 0#1 then (.ok (.sand (fG w) (fD w) (fA w) (fB w))) else (.ok (.sor (fG w) (fD w) (fA w) (fB w)))
  | 0x53 => if fS w = 0#1 then (.ok (.sxor (fG w) (fD w) (fA w) (fB w))) else (.ok (.sshl (fG w) (fD w) (fA w) (fB w)))
  | 0x54 => if fS w = 0#1 then (.ok (.sshr (fG w) (fD w) (fA w) (fB w))) else (.ok (.ssar (fG w) (fD w) (fA w) (fB w)))
  | 0x55 => if fS w = 0#1 then (.ok (.scmp (fG w) ((fD w).extractLsb' 3 4) ((fD w).extractLsb' 0 3) (fA w) (fB w))) else (.error .reservedS)
  | 0x56 => if fS w = 0#1 then (if fB w = 0x78#7 then .ok (.smov (fG w) (fD w) (fA w)) else .error .unusedField) else (.error .reservedS)
  | 0x57 => .ok (.saddi (fG w) (fD w) (fA w) (fI w))
  | 0x58 => if fS w = 0#1 then (.ok (.sld (fG w) (fD w) (fA w) (fB w))) else (.ok (.sst (fG w) (fD w) (fA w) (fB w)))
  | 0x59 => if fS w = 0#1 then (.ok (.smin (fG w) (fD w) (fA w) (fB w))) else (.ok (.smax (fG w) (fD w) (fA w) (fB w)))
  | 0x5A => if fA w = 0x78#7 then .ok (.smovi (fG w) (fD w) (fI w)) else .error .unusedField
  | _ => .error .reservedMaj

/-- The instructions of MAJ 0x60 to 0x6F (R174). -/
def decodeMaj6 (w : Word) : Except Reject Instr :=
  match (fMaj w).toNat with
  | 0x60 => .ok (.br (fG w) (fOff w))
  | 0x61 => .ok (.call (fG w) (fOff w))
  | 0x62 => if fS w = 0#1 then (if fD w = 0x78#7 ∧ fB w = 0x78#7 then .ok (.calli (fG w) (fA w)) else .error .unusedField) else (if fD w = 0x78#7 ∧ fB w = 0x78#7 then .ok (.jmpi (fG w) (fA w)) else .error .unusedField)
  | 0x63 => if fS w = 0#1 then (if fD w = 0x78#7 ∧ fA w = 0x78#7 ∧ fB w = 0x78#7 then .ok (.ret (fG w)) else .error .unusedField) else (if fD w = 0x78#7 ∧ fA w = 0x78#7 ∧ fB w = 0x78#7 then .ok (.exit (fG w)) else .error .unusedField)
  | 0x64 => if fD w = 0x78#7 ∧ fA w = 0x78#7 then .ok (.yield (fG w) (fI w)) else .error .unusedField
  | 0x65 => if fD w = 0x78#7 ∧ fA w = 0x78#7 then .ok (.trap (fG w) (fI w)) else .error .unusedField
  | 0x66 => if fA w = 0x78#7 then .ok (.featq (fG w) (fD w) (fI w)) else .error .unusedField
  | 0x67 => if fS w = 0#1 then (if fD w = 0x78#7 ∧ fA w = 0x78#7 ∧ fB w = 0x78#7 then .ok (.nop (fG w)) else .error .unusedField) else (if fD w = 0x78#7 ∧ fA w = 0x78#7 ∧ fB w = 0x78#7 then .ok (.tret (fG w)) else .error .unusedField)
  | 0x68 => .ok (.ld (fG w) (fD w) (fT w) (fX w) (fW w) (fC w))
  | 0x69 => .ok (.st (fG w) (fD w) (fT w) (fX w) (fW w) (fC w))
  | 0x6A => .ok (.lds (fG w) (fD w) (fT w) (fX w) (fW w) (fC w))
  | 0x6B => .ok (.sts (fG w) (fD w) (fT w) (fX w) (fW w) (fC w))
  | 0x6C => if fS w = 0x0#1 then .ok (.mcst (fG w) (fD w) (fT w) (fX w) (fQ w)) else .error .unusedField
  | 0x6D => if fD w = 0x78#7 then .ok (.pfx (fG w) (fT w) (fX w) (fW w) (fC w)) else .error .unusedField
  | 0x6E => if fW w = 0#3 then (if fD w = 0x78#7 ∧ fC w = 0x0#2 then .ok (.abind (fG w) (fT w) (fX w)) else .error .unusedField) else if fW w = 1#3 then (if fD w = 0x78#7 ∧ fC w = 0x0#2 then .ok (.abindH (fG w) (fT w) (fX w)) else .error .unusedField) else .error .reservedCode
  | 0x6F => if fS w = 0#1 then (.ok (.lda (fG w) (fD w) (fT w) (fX w) (fQ w))) else (.ok (.stl (fG w) (fD w) (fT w) (fX w) (fQ w)))
  | _ => .error .reservedMaj

/-- The instructions of MAJ 0x70 to 0x7F (R174). -/
def decodeMaj7 (w : Word) : Except Reject Instr :=
  match (fMaj w).toNat with
  | 0x70 => .ok (.atom (fG w) (fD w) (fT w) (fX w) (fQ w) (fS w))
  | 0x71 => .ok (.red (fG w) (fD w) (fT w) (fX w) (fQ w) (fS w))
  | 0x72 => if fS w = 0#1 then (if fD w = 0x78#7 ∧ fA w = 0x78#7 ∧ fB w = 0x78#7 then .ok (.fence (fG w)) else .error .unusedField) else (.error .reservedS)
  | 0x73 => .ok (.waitv (fG w) (fD w) (fT w) (fX w) (fW w) (fC w))
  | 0x74 => decodeFX74 w
  | 0x75 => decodeFX75 w
  | 0x76 => decodeFX76 w
  | 0x78 => decodeFX78 w
  | 0x79 => decodeFX79 w
  | 0x7A => decodeFX7A w
  | 0x7C => decodeFX7C w
  | 0x7D => decodeFX7D w
  | 0x7E => if fK w = 0#1 then (if w.extractLsb' 0 11 = 0#11 then .ok (.runb (w.extractLsb' 19 5) (w.extractLsb' 11 8)) else .error .unusedField) else (if w.extractLsb' 0 20 = 0#20 then .ok (.trl (w.extractLsb' 21 3) (w.extractLsb' 20 1)) else .error .unusedField)
  | 0x7F => if fK w = 0#1 then (.ok (.himm (w.extractLsb' 0 24))) else decodeHint w
  | _ => .error .reservedMaj

/-- The instruction a word lays out, before the reserved codes of its fields are looked at. -/
def decodeRaw (w : Word) : Except Reject Instr :=
  match (fMaj w).toNat / 16 with
  | 0 => decodeMaj0 w
  | 1 => decodeMaj1 w
  | 2 => decodeMaj2 w
  | 4 => decodeMaj4 w
  | 5 => decodeMaj5 w
  | 6 => decodeMaj6 w
  | 7 => decodeMaj7 w
  | _ => .error .reservedMaj

/-- The decoder of words: the instruction, or why there is none (R174 to R178 step 1). -/
def decode (w : Word) : Except Reject Instr :=
  match decodeRaw w with
  | .ok i => if i.wellFormed then .ok i else .error .reservedCode
  | .error e => .error e

/-- The decoder of bytes: the word is little-endian (R1); the instruction and the bytes after it. -/
def decodeBytes (bs : List Byte) : Except Reject (Instr × List Byte) :=
  if bs.length < 4 then .error .truncated
  else match decode (BitVec.ofNat 32 (leNat (bs.take 4))) with
    | .ok i => .ok (i, bs.drop 4)
    | .error e => .error e

/-- The instruction the decoder reads from an instruction whose bits, numbered as the opcode table numbers them, are
`w`: the word is laid out in memory order and given to the decoder. -/
def decodeTableWord (nbits w : Nat) : Option Instr :=
  match decodeBytes (leBytes 4 (w % 2 ^ nbits)) with
  | .ok (i, _) => some i
  | .error _ => none

end Sys2Proof
end

