-- ==== Sys2Proof/Config.lean ====
section
/-!
DEFINITION. What an implementation or a part fixes, and the free values: constants with no body, which no proof can
see through. Each is named by an entry of the assumption log.
-/
namespace Sys2Proof.Config

/-! ### Free values: what the spec leaves open, one for every number of the machine's counter -/

/-- Which of the candidates acts next: issue order is timing alone (R22, R43). Log entry 3. -/
opaque choice : Nat → Nat
/-- How far pod time moves on a die in a step, in units of 1/16 ns (R385, R387). Log entry 4. -/
opaque elapsed : Nat → Nat → Nat
/-- A choice of yes or no that timing or replacement makes (log entries 5, 6, 13). -/
opaque freeBit : Nat → Bool
/-- Bytes the spec leaves undefined (a load region after a failed LOADOBJ, R421). Log entry 14. -/
opaque freeByte : Nat → Byte

/-! ### What one part fixes -/

/-- The depth of a Marver's operation queue: fixed for an implementation, from 8 to 16 (R77, R267). Log entry 15. -/
opaque marverDepthExtra : Fin 9
/-- The depth of a Marver's operation queue (R77). -/
def marverDepth : Nat := 8 + marverDepthExtra.val

/-- The out-port through which a part's hub reaches another part, by the two part numbers; none without a route (R272,
R391): the spec states no routing table. Log entry 22. -/
opaque route : Nat → Nat → Option Nat
/-- The buffers of a virtual channel of a credited link beyond the first, at most 2^15 in all (R399). Log entry 28. -/
opaque creditBuffers : Nat → Nat → Fin 32768
/-- The credits that come back in a step for a virtual channel of a link: timing alone (R399). Log entry 28. -/
opaque creditReturn : Nat → Nat → Nat → Nat
/-- How many of the newest stores to each byte of a sector, of those not released at PACKAGE scope, a host read does not see:
timing alone (R145). Log entry 58. -/
opaque hostBehind : Nat → Nat → Nat
/-- Every CALLI target of a YPF form has its HFUNC, where some of the labels that its relocations give have one and some have none
(R423): which of them a CALLI takes is a register value. Log entry 38. -/
opaque indirectOk : List Byte → Bool
/-- The KIND of the record that a copy's FORMAT condition sends (R246): R345 lists none for it. Log entry 52. -/
opaque formatKind : Fin 7
/-- SHA-384 of bytes (R412, R417, R419, R420). Log entry 16. -/
opaque sha384 : List Byte → BitVec 384
/-- ECDSA P-384 verification: key, message, signature (R412). Log entry 16. -/
opaque ecdsaVerify : List Byte → List Byte → List Byte → Bool
/-- LMS verification: key, message, signature (R412). Log entry 16. -/
opaque lmsVerify : List Byte → List Byte → List Byte → Bool
/-- The device's ECDSA P-384 signature over bytes, 96 bytes (R414, R417). Log entry 16. -/
opaque deviceEcdsa : List Byte → BitVec 768
/-- The device's LMS signature over bytes with a leaf, 1,772 bytes (R414, R415). Log entry 16. -/
opaque deviceLms : Nat → List Byte → BitVec 14176
/-- The device's ECDSA public key, as SHA-384 reads it (R414, R417). Log entry 16. -/
opaque deviceKey : List Byte
/-- The first and second key hash in the boot ROM (R412). Log entry 16. -/
opaque romKeyHash1 : BitVec 384
/-- The second key hash in the boot ROM (R412). Log entry 16. -/
opaque romKeyHash2 : BitVec 384
/-- The SHA-384 measurement of the boot ROM (R417). Log entry 16. -/
opaque romMeasure : BitVec 384
/-- The device's LMS public key (R414). Log entry 16. -/
opaque deviceLmsKey : List Byte
/-- The part serial number (R414). Log entry 16. -/
opaque serial : List Byte
/-- The enabled-cluster map written at manufacture (R414). Log entry 16. -/
opaque clusterMap : List Byte
/-- Weleotte's certificate of a device public key (R414). Log entry 16. -/
opaque certificate : List Byte → List Byte
/-- How the identity record lays out the serial number, the enabled-cluster map and the two certificates (R414).
Log entry 16. -/
opaque recordLayout : List Byte → List Byte → List Byte → List Byte → List Byte
/-- The identity record (R414). -/
def identityRecord : List Byte :=
  recordLayout serial clusterMap (certificate deviceKey) (certificate deviceLmsKey)
/-- The cores that bring-up leaves disabled, by die and core: those that the self-test record or the enabled-cluster map
rules out (R411, R414). Log entry 16. -/
opaque disabledCores : List Byte → List Byte → List (Nat × Nat)
/-- The feature bits this part offers: BASE, B8, WAVE, ORD, VERS, REDR (R418). -/
def featOffered : BitVec 128 := 0x3F#128

end Sys2Proof.Config
end

