-- ==== Sys2Proof/Machine/Memory.lean ====
section
/-!
DEFINITION. Sparse maps in one canonical form, and byte memory as one of them. A map lists the keys whose value
differs from what an unlisted key reads as, in strictly rising order, so that equal maps are equal lists.
-/
namespace Sys2Proof.Machine

/-- The value at a key; `d` is what an unlisted key reads as. -/
def Sparse.get {β : Type} (d : β) : List (Nat × β) → Nat → β
  | [], _ => d
  | (k, v) :: t, a => if k = a then v else Sparse.get d t a

/-- The map with the value at one key replaced; a value equal to `d` unlists the key. -/
def Sparse.set {β : Type} [DecidableEq β] (d : β) : List (Nat × β) → Nat → β → List (Nat × β)
  | [], a, v => if v = d then [] else [(a, v)]
  | (k, w) :: t, a, v =>
    if a < k then (if v = d then (k, w) :: t else (a, v) :: (k, w) :: t)
    else if a = k then (if v = d then t else (a, v) :: t)
    else (k, w) :: Sparse.set d t a v

/-- Every key of the list lies above `lo`. -/
def Sparse.above {β : Type} (lo : Nat) (m : List (Nat × β)) : Bool := m.all fun c => decide (lo < c.1)

/-- The canonical form: keys strictly rising, no listed value equal to `d`. -/
def Sparse.wf {β : Type} [DecidableEq β] (d : β) : List (Nat × β) → Bool
  | [] => true
  | (k, v) :: t => decide (v ≠ d) && Sparse.above k t && Sparse.wf d t

/-- Byte memory: (address, byte) pairs in canonical form. -/
abbrev Memory := List Host.Cell

/-- What a byte that nothing has written reads as: the spec gives DRAM and scratchpad no contents after power-up.
DESIGN CHOICE (log entry 1). -/
def Memory.unlisted : Byte := 0

/-- The byte at an address. -/
def Memory.read (m : Memory) (a : Nat) : Byte := Sparse.get Memory.unlisted m a

/-- The memory with one byte written. -/
def Memory.write (m : Memory) (a : Nat) (b : Byte) : Memory := Sparse.set Memory.unlisted m a b

/-- The canonical form of a memory. -/
def Memory.wf (m : Memory) : Bool := Sparse.wf Memory.unlisted m

/-- The `n` bytes from an address, lowest address first. -/
def Memory.readBytes (m : Memory) (a n : Nat) : List Byte := (List.range n).map fun k => m.read (a + k)

/-- The memory with bytes written from an address upward. -/
def Memory.writeBytes (m : Memory) (a : Nat) : List Byte → Memory
  | [] => m
  | b :: bs => Memory.writeBytes (m.write a b) (a + 1) bs

/-- The little-endian number in the `n` bytes from an address (R1). -/
def Memory.readLe (m : Memory) (a n : Nat) : Nat := leNat (m.readBytes a n)

/-- The memory with a number written little-endian in `n` bytes (R1). -/
def Memory.writeLe (m : Memory) (a n v : Nat) : Memory := m.writeBytes a (leBytes n v)

/-- Bytes written over others without a canonical default: `none` where nothing is written. -/
abbrev Overlay := List (Nat × Option Byte)

/-- The byte an overlay holds at an address. -/
def Overlay.read (o : Overlay) (a : Nat) : Option Byte := Sparse.get none o a

/-- The overlay with one byte written. -/
def Overlay.write (o : Overlay) (a : Nat) (b : Byte) : Overlay := Sparse.set none o a (some b)

/-- The overlay with one byte dropped. -/
def Overlay.erase (o : Overlay) (a : Nat) : Overlay := Sparse.set none o a none

/-- The canonical form of an overlay. -/
def Overlay.wf (o : Overlay) : Bool := Sparse.wf none o

end Sys2Proof.Machine
end

