-- ==== Sys2Proof/Machine/State.lean ====
section
/-!
DEFINITION. The state of one Terub part, as plain data: what every chapter of the spec names. The unit that issues
(a group or a Gaffer thread), its crew and its context stand in front (`self`, `crew`, `ctx`); the other units, crews and
contexts are lists. `turn` says which unit or event acts in the next step.
-/
namespace Sys2Proof.Machine

open Sys2Proof

/-! ### Translation registers, queue registers, trap registers -/

/-- Attributes of a page (R335, R115), and its size in bytes, which locates its scale region (R61). -/
structure Attr where
  r : Bool
  w : Bool
  x : Bool
  fmt : Nat
  geom : Nat
  ilv : Nat
  ver : Bool
  mig : Bool
  size : Nat
  deriving DecidableEq, Repr

/-- A translation register a0 to a7 (R115). Addresses and lengths are in bytes. -/
structure TransReg where
  base : Nat
  frame : Nat
  limit : Nat
  attr : Attr
  valid : Bool
  hbound : Nat
  deriving DecidableEq, Repr

/-- One element as it lies in memory: the format and geometry of its page, its raw bits and its block's scale code. -/
structure Elem where
  fmt : Nat
  geom : Nat
  raw : Nat
  scale : Nat
  deriving DecidableEq, Repr

/-- An entry of a load stream that was fetched ahead of the pops (R121): its elements by lane, or the fault held for
the pop. -/
inductive Fetched where
  | data (elems : List Elem)
  | denied (va : Nat)
  | format (va : Nat)
  | phys (pa : Nat)
  deriving DecidableEq, Repr

/-- A queue register q0 to q3 and its stream (R121). -/
structure QueueReg where
  attached : Bool
  base : Nat
  count : Nat
  stride : Int
  store : Bool
  wide : Bool
  areg : Nat
  next : Nat
  ahead : List Fetched
  deriving DecidableEq, Repr

/-- The trap registers of one level (R311, R313, R315). -/
structure TrapRegs where
  epc : DWord
  cause : Word
  val : DWord
  mask : Mask
  split : DWord
  scr : DWord
  deriving DecidableEq, Repr

/-- The causes of a trap (R314). -/
inductive Cause where
  | illegalInsn | illegalOperand | illegalIssuer | regBounds | regBudget | callDepth | intDiv0 | misaligned | xlate
  | format | barrierPoison | queueMisuse | progress | detViolation | swTrap | brk | version | watermarkStall | eccUe
  | engineFault | ctxIncompat | physErr
  deriving DecidableEq, Repr

/-- A trap on its way to delivery (R366): cause, TVAL, the lanes of TMASK, whether it is imprecise (R142), and whether
TEPC is the next word, as for TRAP (R217). -/
structure Trap where
  cause : Cause
  val : DWord
  mask : Mask
  impr : Bool
  after : Bool
  deriving DecidableEq, Repr

/-! ### Registers of a unit -/

/-- The registers a run holds back and a rollback restores (R17, R33): main file, o, s and p registers, translation and
queue registers, IX, PRT.TILE and FPC. -/
structure Regs where
  v : List (Vector Word 32)
  o : Vector (Vector Word 32) 16
  s : Vector (BitVec 64) 32
  p : Vector (BitVec 32) 8
  a : Vector TransReg 8
  q : Vector QueueReg 4
  ix : Nat
  tile : BitVec 3
  fpc : BitVec 32
  deriving DecidableEq, Repr

/-- The fields of an HMOD word (R168). -/
structure Hmod where
  scope : BitVec 4
  order : BitVec 2
  rnd : BitVec 3
  sat : BitVec 1
  uns : BitVec 1
  tv : BitVec 3
  zero : BitVec 7
  deriving DecidableEq, Repr

/-- The prefix a split has issued in front of its next instruction (R166, R167), with its last word. -/
structure Pfx where
  acc : DWord
  himm : Bool
  count : Nat
  hmod : Option Hmod
  hsched : Bool
  hcache : Bool
  twice : Bool
  last : Word
  deriving DecidableEq, Repr

/-- A key of the merge table of a die (R342): context, 64 KiB page, and whether the access writes. -/
structure MergeKey where
  die : Nat
  ctx : CtxId
  page : Nat
  write : Bool
  deriving DecidableEq, Repr

/-- An instruction that waits: its address, its prefix and its word. The path's PC stands at the first prefix word
meanwhile (R173). -/
structure HeldInsn where
  addr : DWord
  pfx : Pfx
  word : Word
  deriving DecidableEq, Repr

/-- Why a path does not issue (R375 WAIT). -/
inductive Wait where
  | none
  /-- Issues its instruction again until it can complete; nothing is awaited by name (R251, R254, R268, R273, R329). -/
  | poll
  /-- Parked with nothing that must answer first: a store that found the replay queue full, an access that found the merge
  table full. The group's other splits stand still, and the instruction issues again (R342, R343). -/
  | stuck (keys : List MergeKey)
  /-- Parked at an instruction until its merge entries are answered; the whole group stands still (R228, R343). -/
  | parked (keys : List MergeKey)
  /-- Held on an instruction fetch; the other splits issue (R214). -/
  | fetch (keys : List MergeKey)
  /-- A WAITV, with its deadline in PTIME units (R240, R241). -/
  | waitv (h : HeldInsn) (deadline : Option Nat)
  /-- A TWAIT for a PTIME target (R286). -/
  | twait (h : HeldInsn) (target : Nat)
  /-- An IDLE with its enabled events: deadline, queue (R332). -/
  | idle (h : HeldInsn) (deadline : Option Nat) (queue : Option Nat)
  /-- A REDW on a round: its descriptor as read at issue, and its deadline (R288, R290). -/
  | redw (h : HeldInsn) (desc : Nat) (deadline : Option Nat)
  /-- A RENQ.ack whose entry has been injected (R274). -/
  | renq (h : HeldInsn) (id : Nat)
  /-- A RENQ that waits for a reserved slot (R274). -/
  | slot (h : HeldInsn)
  /-- A POD-scope DOPEN performed as a probe with this stamp (R396). -/
  | probe (h : HeldInsn) (stamp : Nat)
  /-- A DOPEN.w that has found its name unbound and waits at the directory for a bind of it (R119, R281). -/
  | bind (h : HeldInsn) (name : Nat)
  /-- An MFENCE over the operations with these numbers (R268). -/
  | mfence (h : HeldInsn) (ops : List Nat)
  /-- A CBAR that has arrived and waits for the other members (R252). -/
  | cbar (h : HeldInsn)
  /-- Yielded on a copy, with the continuation (R36, R248). -/
  | copy (id : Nat) (cont : DWord)
  /-- Yielded until tokens clear (R36). -/
  | tokens (mask : BitVec 8)
  /-- A system instruction that is tried again until it can complete; a save waits for it (R322). -/
  | sys (h : HeldInsn)
  /-- An instruction whose outcome has come: D gets the value and the split goes on when it next issues. -/
  | result (h : HeldInsn) (d : BitVec 5) (v : DWord)
  /-- A trap that waits for the handler of another split (R28). -/
  | trap (t : Trap)
  deriving DecidableEq, Repr

/-- A path of a group: an active split, or an entry of the park list (R23, R24). `only` holds the lanes that alone
execute the next instruction (R218, R228); `failed` the merge entries it waited on that were answered FAIL (R347);
`handler` marks the handling split (R312). -/
structure Path where
  slot : Nat
  pc : DWord
  mask : Mask
  only : Option (BitVec 32)
  stack : List DWord
  pfx : Pfx
  wait : Wait
  failed : List MergeKey
  handler : Bool
  since : Nat
  deriving DecidableEq, Repr

/-- A byte that a body instruction of a run has stored and that becomes visible at the trailer (R33): in global memory
at a canonical address (with its virtual address), or in the scratchpad of a gang. -/
structure HeldByte where
  gang : Option Nat
  addr : Nat
  va : Nat
  byte : Byte
  deriving DecidableEq, Repr

/-- Where the lanes of a path go: one entry for each distinct next PC; `exits` are the lanes that retire (R23, R215). -/
structure Xfer where
  dests : List (Mask × DWord × List DWord)
  exits : Mask
  deriving DecidableEq, Repr

/-- A QCFG (with its descriptor bytes) or a QDRN of a run body, applied at the trailer (R254). -/
structure QueueOp where
  q : Nat
  desc : Option (List Byte)
  deriving DecidableEq, Repr

/-- A run in flight (R30 to R35): its RUNB, the body position reached (1 for the first body word), the registers as
they were at the RUNB, the latches, the held stores (newest first), what waits for the trailer, and whether a
long-latency result has been issued in it; `count` counts its instructions, the RUNB first, which retire with the trailer
(R359). -/
structure Run where
  pc : DWord
  n : Nat
  pos : Nat
  saved : Regs
  lat : Vector (Vector Word 32) 4
  stores : List HeldByte
  xfer : Option Xfer
  qops : List QueueOp
  long : Bool
  count : Nat
  deriving DecidableEq, Repr

/-- One lane of a store that waits in the replay queue (R142). -/
structure ReplayLane where
  lane : Nat
  va : Nat
  data : List Byte
  deriving DecidableEq, Repr

/-- A store in the replay queue: its word and prefix, its unfinished lanes, and the merge entries they wait on. `wide`
marks a queue push of .b32 elements, `ver` a store of the open version (R142, R278, R375). `size` is the element size of a
pushed .e entry (R121), 8 while its first page has not been found: its lanes hold the entry's address then. It is 0 for every
other store. -/
structure Replay where
  word : Word
  pfx : Pfx
  wide : Bool
  ver : Bool
  size : Nat
  lanes : List ReplayLane
  keys : List MergeKey
  deriving DecidableEq, Repr

/-- An open version of a task (R147, R278): its identifier, its bytes by canonical address, its sectors (canonical
sector and virtual address of the sector), and whether an overflow commit has already occurred. -/
structure Version where
  id : DWord
  open_ : Bool
  part : Bool
  bytes : Overlay
  sectors : List (Nat × Nat)
  deriving DecidableEq, Repr

/-- A fetch of a load stream that waits on merge entries: its queue, the stream's entry, the address of the lowest lane that
missed, and the merge entries (R342). -/
structure StreamWait where
  q : Nat
  entry : Nat
  va : Nat
  keys : List MergeKey
  deriving DecidableEq, Repr

/-- A group or a Gaffer thread (R13, R17). `cur` is the issuing split, `splits` the other active ones. A path with an
empty mask is no path: a unit whose paths are all empty has retired. -/
structure Agent where
  unit : UnitKey
  cur : Path
  splits : List Path
  park : List Path
  regs : Regs
  tokens : BitVec 8
  urg : BitVec 3
  tl : Nat
  t1 : TrapRegs
  t2 : TrapRegs
  run : Option Run
  replay : List Replay
  streams : List StreamWait
  imprecise : Option (Cause × DWord)
  version : Version
  rotLow : Nat
  pois : Bool
  retired : Nat
  deriving DecidableEq, Repr

/-! ### Crews: gangs, the Marver, copies -/

/-- A gang: its scratchpad of `size` bytes, and the poisoned sectors of it (R104, R374). `core` is the physical core
(R310). -/
structure Gang where
  size : Nat
  mem : Memory
  pois : List Nat
  core : Nat
  deriving DecidableEq, Repr

/-- A scratchpad object: the gang whose scratchpad holds it, and its offset (R242). -/
structure ScrRef where
  gang : Nat
  off : Nat
  deriving DecidableEq, Repr

/-- Where a Marver operation stands (R79, R81). -/
inductive OpState where
  | queued | running | stopped
  deriving DecidableEq, Repr

/-- An operation of the Marver's queue (R77, R267): EOP, issuing thread, barrier, arrival scope, zero rule, operand
block as read at issue, small argument (start bit or sub-position), step index. A wave computes the columns before step `skip`
again and writes nothing of them (R100). `failed` marks one whose page service has answered FAIL while another operation was
stopped (R81, R347). -/
structure MOp where
  id : Nat
  eop : Nat
  thread : Nat
  barrier : Option ScrRef
  scope : Nat
  zc : Bool
  block : List Byte
  arg : Nat
  step : Nat
  skip : Nat
  state : OpState
  failed : Bool
  keys : List MergeKey
  deriving DecidableEq, Repr

/-- What MSTAT records with a plane (R262): K, N, mode, width class (none before any load). -/
structure PlaneRec where
  k : Nat
  n : Nat
  mode : Nat
  cls : Option Nat
  deriving DecidableEq, Repr

/-- The Marver of a cluster (R77): ACC by 128m + n, STA and SHD by 4(128a + n) + sub-position, rule slots, edge
buffers by 256p + 2i + w, the operation queue, MST and MCF. -/
structure Marver where
  acc : List (Nat × BitVec 32)
  sta : List (Nat × BitVec 40)
  shd : List (Nat × BitVec 40)
  staRec : PlaneRec
  shdRec : PlaneRec
  slots : List (Nat × List Byte)
  edges : List (Nat × BitVec 32)
  queue : List MOp
  mst : BitVec 32
  mcf : BitVec 32
  nextId : Nat
  deriving DecidableEq, Repr

/-- A copy of the Blowpipe (R123, R376): sub-op, control block as read at issue and its place, bytes counted, status,
issuer, continuation of .y, scope of its counted sectors, rounding and saturation of CPYE. -/
structure Copy where
  id : Nat
  kind : Nat
  block : List Byte
  place : ScrRef
  done : Nat
  status : Nat
  issuer : UnitKey
  cont : Option DWord
  scope : Nat
  rnd : Nat
  sat : Bool
  keys : List MergeKey
  deriving DecidableEq, Repr

/-- A FETCHW request that the distributor has not answered (R40, R363). -/
structure FetchReq where
  unit : UnitKey
  box : ScrRef
  stamp : Nat
  core : Nat
  deriving DecidableEq, Repr

/-- The values of a descriptor that a crew holds for its residence (R307, R308). -/
structure Held where
  pl : Nat
  det : Bool
  part : Nat
  nlc : Nat
  ptroot : Nat
  tvec1 : DWord
  tvec2 : DWord
  feat : BitVec 128
  savebase : Nat
  cmap : Nat
  deriving DecidableEq, Repr

/-- A resident crew (R13, R354). `groups` and `budget` are the groups per gang and the allotment it was declared with (R40,
R420); `area` is the save area of a save that has stopped the crew and waits for its engines (R370), with whether the standard
policy binds the crew again. -/
structure Crew where
  key : CrewKey
  lcl : Nat
  socket : Nat
  cluster : Nat
  slot : Nat
  prio : Nat
  persist : Bool
  quantum : Nat
  dseq : Nat
  since : Nat
  groups : Nat
  budget : Nat
  gaffers : Nat
  held : Held
  gangs : List Gang
  agents : List Agent
  marver : Marver
  copies : List Copy
  nextCopy : Nat
  fetch : Option FetchReq
  cbar : List UnitKey
  featUse : BitVec 128
  area : Option (Nat × Bool)
  deriving DecidableEq, Repr

/-! ### Contexts and launches -/

/-- A live launch (R352): its command's fields, and which of its crews have a bind record, have been placed, have been
withdrawn by FETCHW, and have retired. `traced` counts the trace entries written or carried out. -/
structure Launch where
  num : Nat
  kernel : Nat
  sheets : Nat
  crews : Nat
  prio : Nat
  quantumDisc : Bool
  persist : Bool
  pin : Bool
  trec : Bool
  trep : Bool
  quantum : Nat
  argva : Nat
  argLen : Nat
  compl : Nat
  trace : Nat
  traceMax : Nat
  die : Nat
  bound : List (Nat × Nat)
  placed : List (Nat × Nat)
  withdrawn : List (Nat × Nat)
  retired : List (Nat × Nat)
  traced : Nat
  deriving DecidableEq, Repr

/-- A kernel header that a completed LOADOBJ wrote, with the mask of the variant it belongs to (R10, R420, R421). -/
structure Loaded where
  addr : Nat
  feat : BitVec 128
  deriving DecidableEq, Repr

/-- Something of a saved crew that waited on pages: a path at its instruction or at its fetch, by its unit and lowest lane; a
queued store by its place in the queue, with its SRC bit; a stream with the entry it was fetching; a copy by its number; a Marver
operation by its place in the area (R349). -/
inductive Waiter where
  | path (u : UnitKey) (lane : Nat)
  | fetch (u : UnitKey) (lane : Nat)
  | store (u : UnitKey) (n src : Nat)
  | stream (u : UnitKey) (q entry va : Nat)
  | copy (id : Nat)
  | op (n : Nat)
  deriving DecidableEq, Repr

/-- A crew that is saved, the physical address of its save area and its DSEQ. `rebind` marks one that the standard policy
saved and binds again (R357); one that software saved with CTXSV waits for its CTXLD. `waits` holds the pages that its
waiters waited on, with their class (R349); `written` the bytes that its open versions hold, by unit and virtual address
(R147). -/
structure SavedCrew where
  key : CrewKey
  area : Nat
  rebind : Bool
  dseq : Nat
  waits : List (Waiter × List (Nat × Bool))
  written : List (UnitKey × Nat)
  deriving DecidableEq, Repr

/-- A live context: the fields of its descriptor (R306, R307), its XRINV count (R326), the loader's choices (R10,
R421, R425), its launches, the closed marks of its reductions (R300), and its crews that are saved. -/
structure Context where
  id : CtxId
  pl : Nat
  det : Bool
  kill : Bool
  part : Nat
  nlc : Nat
  ptroot : Nat
  tvec1 : DWord
  tvec2 : DWord
  feat : BitVec 128
  savebase : Nat
  cmap : Nat
  xr : Nat
  loaded : List Loaded
  choices : List (Nat × Nat)
  launches : List Launch
  marks : List (Nat × Nat)
  saved : List SavedCrew
  deriving DecidableEq, Repr

/-! ### The part -/

/-- A TLB entry (R341): context, first virtual page address, page size in bytes, and the leaf it was filled from. -/
structure TlbEntry where
  ctx : CtxId
  va : Nat
  size : Nat
  leaf : BitVec 64
  deriving DecidableEq, Repr

/-- An entry of a die's merge table (R342); an unreported one has sent no record yet (R344). -/
structure MergeEntry where
  key : MergeKey
  reported : Bool
  kind : Nat
  src : Nat
  deriving DecidableEq, Repr

/-- A fault record as a die's Lehr gathers it (R344, R345). -/
structure FaultRec where
  ctx : CtxId
  page : Nat
  kind : Nat
  src : Nat
  deriving DecidableEq, Repr

/-- A compute or I/O die: its time, its horizon and promise, its Lehr, its Headstock's registers (R317, R346, R359,
R387, R388, R390, R392). `flushing` holds the range records of a started flush that the fault queue has not taken (R344);
`slots` is by 16c + i for slot i of cluster c. -/
structure Die where
  ptime : Nat
  healthy : Bool
  err : Nat
  good : Nat
  exchanged : Nat
  horizon : Nat
  promise : Nat
  unpassed : List OrdPacket
  lehrq : Word
  batch : List FaultRec
  batchAt : Nat
  spare : List FaultRec
  spareAt : Nat
  flushing : List (List Byte)
  seq : Nat
  merge : List MergeEntry
  slots : List (Nat × List Byte)
  rejected : List (Nat × Nat)
  urgctl : List (Nat × BitVec 32)
  deriving DecidableEq, Repr

/-- An entry of a task queue: its 32 bytes, and for a RENQ its source part and the horizon it carried (R271, R274,
R390). -/
structure QueueEntry where
  bytes : List Byte
  src : Option Nat
  horizon : Nat
  deriving DecidableEq, Repr

/-- A configured task queue (R271 to R275, R401). -/
structure TaskQueue where
  num : Nat
  owner : CtxId
  cap : Nat
  resv : Nat
  closed : Bool
  entries : List QueueEntry
  drops : Nat
  deriving DecidableEq, Repr

/-- A name of the Punty's directory (R118, R429). -/
structure PuntyName where
  name : Nat
  owner : CtxId
  bound : Option Nat
  deriving DecidableEq, Repr

/-- A registered object and its open references by context (R118, R282). -/
structure PuntyObj where
  slot : Nat
  gen : Nat
  owner : CtxId
  oid : Nat
  base : Nat
  size : Nat
  opens : List (CtxId × Nat)
  deriving DecidableEq, Repr

/-- The Punty (R117 to R120): names, objects, and the generation of each slot that is free. -/
structure Punty where
  names : List PuntyName
  objs : List PuntyObj
  gens : List (Nat × Nat)
  deriving DecidableEq, Repr

/-- A contribution held in the routers (R289). -/
structure Contrib where
  ix : Nat
  op : Nat
  words : List Word
  deriving DecidableEq, Repr

/-- An open round of a reduction (R288, R289): contributions in order of arrival. -/
structure Round where
  ctx : CtxId
  rid : Nat
  round : Nat
  contribs : List Contrib
  deriving DecidableEq, Repr

/-- A REDP that has not reached the routers (R289, R298): its words are read from the issuer's scratchpad. -/
structure RedpFlight where
  id : Nat
  crew : CrewKey
  src : ScrRef
  len : Nat
  rid : Nat
  round : Nat
  ix : Nat
  op : Nat
  deriving DecidableEq, Repr

/-- A pod port of the part as the hub sees it (R392 to R395): its in-port watermark vector, whether it is stalled, when
its least entry last advanced, and the vector last sent out of it. -/
structure PodPort where
  num : Nat
  vec : List Nat
  stalled : Bool
  advanced : Nat
  sent : List Nat
  sentAt : Nat
  deriving DecidableEq, Repr

/-- Ordered-class work that waits for injection: the unit that issued it, its die, its destinations, its context (R397). -/
structure OrdWork where
  unit : AgentKey
  die : Nat
  dests : List Nat
  ctx : CtxId
  body : OrdBody
  deriving DecidableEq, Repr

/-- What waits at the hub to be accepted: an ordered packet of this part, or a RENQ entry (R398). -/
inductive HubItem where
  | packet (p : OrdPacket)
  | entry (u : AgentKey) (e : RenqPacket)
  deriving DecidableEq, Repr

/-- The ordered hub of I/O die 8 (R391 to R398): packets held for this part, packets queued for out-ports, RENQ entries that
it has accepted for other parts, what waits for a fence counter, packets that I/O die 9 has still to relay with their in-ports,
the fence markers entered by unit and destination, the highest delivery watermark, ORDCTL and ORDSTAT.LATEDROP. -/
structure Hub where
  held : List OrdPacket
  out : List (Nat × OrdPacket)
  enq : List (AgentKey × RenqPacket)
  waiting : List HubItem
  relays : List (Nat × OrdPacket)
  markers : List (AgentKey × Nat)
  ports : List PodPort
  top : Nat
  ordctl : Word
  lateDrop : Nat
  deriving DecidableEq, Repr

/-- The pod configuration (R401 PODCFG): part number, time-parent port, port masks, pod domain; PODSYNC (R388), and whether
the one forward step of PTIME has been taken (R387). -/
structure PodCfg where
  part : Nat
  parent : Nat
  podPorts : Nat
  ordPorts : Nat
  llr : Nat
  cbfc : Nat
  domain : List Nat
  synced : Bool
  stepped : Bool
  deriving DecidableEq, Repr

/-- The credit counts of one virtual channel of a link (R399). -/
structure Credit where
  link : LinkKey
  vc : Nat
  buffers : Nat
  sent : Nat
  freed : Nat
  cred : Nat
  deriving DecidableEq, Repr

/-- A fence counter: accesses in flight of a group towards a part (R398); `entries` of them are RENQ entries, whose
acknowledgements come on VC 2 (R389). -/
structure FenceCtr where
  unit : AgentKey
  part : Nat
  count : Nat
  entries : Nat
  deriving DecidableEq, Repr

/-- A RENQ that has been sent and waits for its answer (R274). -/
structure RenqFlight where
  packet : RenqPacket
  from_ : AgentKey
  deriving DecidableEq, Repr

/-- Bring-up (R411 to R417): the step, whether the part is held there and why, the staging buffer, the records, the
running bundle, FEATOFF, the committed feature set, and MRAM, which a power loss does not clear. -/
structure Boot where
  step : Nat
  fail : Bool
  detail : Nat
  staging : Overlay
  selfTest : List Byte
  svn : Nat
  phash : BitVec 384
  featoff : BitVec 128
  ack : Option (BitVec 128)
  mramSvn : Nat
  mramLeaf : Nat
  deriving DecidableEq, Repr

/-- What the part reports to a Headstock (R354, R355, R357, R380). -/
inductive Report where
  | rejected (die cluster slot : Nat)
  | placed (crew : CrewKey) (die cluster : Nat)
  | quantum (crew : CrewKey)
  | corrected (die : Nat)
  | fenced (die cluster : Nat) (core : Option Nat)
  deriving DecidableEq, Repr

/-- What the part sends: the four kinds of message to the host (R401), reports to Headstocks, and packets and flits to
other parts (R389, R394, R399). -/
inductive Msg where
  | resp (die seq ctx status : Nat) (extra : Nat) (body : List Byte)
  | completion (die : Nat) (record : List Byte)
  | kill (report : List Byte)
  | event (die code value : Nat)
  | headstock (r : Report)
  | ordered (port : Nat) (p : OrdPacket)
  | watermark (port : Nat) (vec : List Nat)
  | enqueue (p : RenqPacket)
  | enqueueAck (part id status : Nat)
  | fabricAck (part id : Nat) (data : List Byte)
  | orderedAck (part stamp source : Nat)
  | time (port ptime : Nat)
  | fenceMarker (part : Nat) (u : AgentKey)
  | audit (link : LinkKey) (vc freed : Nat)
  | retrain (link : LinkKey)
  deriving DecidableEq, Repr

/-- Who stores: a unit, or an engine thread that it has issued (R129): twice the number of a Marver operation, or one more than
twice that of a copy. `die`, `cluster` and `core` are where it runs; only a group runs on a core. -/
structure Writer where
  unit : AgentKey
  engine : Option Nat
  die : Nat
  cluster : Nat
  core : Option Nat
  deriving DecidableEq, Repr

/-- A store of a byte that has not been made visible at PACKAGE scope (R145): what the byte held before it, which a host read may
still give, who stored it, and the widest scope at which it has been released. -/
structure Unpushed where
  ca : Nat
  old : Byte
  writer : Writer
  scope : Nat
  deriving DecidableEq, Repr

/-- Who acts in the next step. -/
inductive Turn where
  /-- Nothing acts: time passes. -/
  | idle
  /-- A unit issues from the split in a slot. -/
  | issue (u : AgentKey) (slot : Nat)
  /-- An event happens. -/
  | event (i : Instr)
  deriving DecidableEq, Repr

/-- One Terub part. `work` is ordered-class work not yet injected (R397); `flits` are flits that wait for a credit of their
link and virtual channel (R399); `frameDrops` counts, by port, frames dropped for their extension header (R400). -/
structure State where
  self : Agent
  crew : Crew
  ctx : Context
  crews : List Crew
  ctxs : List Context
  mem : Memory
  dirty : Overlay
  unpushed : List Unpushed
  pois : List Nat
  tlb : List TlbEntry
  dies : Vector Die 10
  queues : List TaskQueue
  punty : Punty
  rounds : List Round
  redps : List RedpFlight
  hub : Hub
  work : List OrdWork
  flits : List (LinkKey × Nat × Msg)
  pod : PodCfg
  credits : List Credit
  credfix : List (LinkKey × Nat)
  frameDrops : List (Nat × Nat)
  fences : List FenceCtr
  renqs : List RenqFlight
  ctbase : Nat
  partmap : Vector (BitVec 32) 8
  boot : Boot
  fenced : List (Nat × Nat)
  nextPacket : Nat
  turn : Turn
  tick : Nat
  free : Nat
  inputs : List Instr
  outbox : List Msg
  deriving DecidableEq, Repr

/-- Why the machine stops. -/
inductive Fault where
  /-- Raised by `step` when `turn` names a unit or a slot that is not there; no turn the machine sets names one. Safe:
  the part has nothing to do in such a state. -/
  | noUnit
  deriving DecidableEq, Repr

/-- Why an instruction has no outcome. -/
inductive Refusal where
  /-- Raised by an arm of `exec` whose instruction has no meaning yet. Safe. -/
  | notModelled (mnemonic : String)
  deriving DecidableEq, Repr

/-! ### Reset -/

/-- No attributes. -/
def Attr.none : Attr := ⟨false, false, false, 0, 0, 0, false, false, 0⟩
/-- A translation register at creation: invalid, with limit 0 (R17). -/
def TransReg.invalid : TransReg := ⟨0, 0, 0, Attr.none, false, 0⟩
/-- A queue register that is unattached (R121). -/
def QueueReg.none : QueueReg := ⟨false, 0, 0, 0, false, false, 0, 0, []⟩
/-- Trap registers of one level at reset (R311). -/
def TrapRegs.zero : TrapRegs := ⟨0, 0, 0, 0, 0, 0⟩
/-- An empty prefix. -/
def Pfx.empty : Pfx := ⟨0, false, 0, Option.none, false, false, false, 0⟩
/-- A path without lanes. -/
def Path.empty : Path := ⟨0, 0, 0, Option.none, [], Pfx.empty, .none, [], false, 0⟩
/-- No version open. -/
def Version.none : Version := ⟨0, false, false, [], []⟩

/-- Registers at creation, with `allot` rows (R17). -/
def Regs.initial (allot : Nat) (s0 s1 s2 : DWord) (fpc : Word) : Regs where
  v := List.replicate allot (Lanes.const 0)
  o := Vector.replicate 16 (Lanes.const 0)
  s := ((Vector.replicate 32 0).set 0 s0).set 1 s1 |>.set 2 s2
  p := Vector.replicate 8 0
  a := Vector.replicate 8 TransReg.invalid
  q := Vector.replicate 4 QueueReg.none
  ix := 0
  tile := 0b101
  fpc := fpc

/-- A unit at creation: one split with the given lanes at the entry PC (R17). No rotation has come before: `rotLow` starts at
lane 0 (R24; DESIGN CHOICE, log entry 63). -/
def Agent.initial (unit : UnitKey) (mask : Mask) (pc : DWord) (regs : Regs) (tick : Nat) : Agent where
  unit := unit
  cur := { Path.empty with pc := pc, mask := mask, since := tick }
  splits := []
  park := []
  regs := regs
  tokens := 0
  urg := 0
  tl := 0
  t1 := TrapRegs.zero
  t2 := TrapRegs.zero
  run := none
  replay := []
  streams := []
  imprecise := none
  version := Version.none
  rotLow := 0
  pois := false
  retired := 0

/-- No plane loaded (R77). -/
def PlaneRec.none : PlaneRec := ⟨0, 0, 0, Option.none⟩

/-- A Marver at context creation (R77). -/
def Marver.initial : Marver := ⟨[], [], [], PlaneRec.none, PlaneRec.none, [], [], [], 0, 0, 0⟩

/-- The name of no context: no TAG, which has 12 bits, spells it (R306). -/
def CtxId.none : CtxId := ⟨4096, 0⟩
/-- The name of no crew. -/
def CrewKey.none : CrewKey := ⟨CtxId.none, 0, 0, 0⟩

/-- No descriptor. -/
def Held.none : Held := ⟨0, false, 0, 0, 0, 0, 0, 0, 0, 0⟩

/-- No crew. -/
def Crew.empty : Crew where
  key := CrewKey.none
  lcl := 0
  socket := 0
  cluster := 0
  slot := 0
  prio := 0
  persist := false
  quantum := 0
  dseq := 0
  since := 0
  groups := 0
  budget := 0
  gaffers := 0
  held := Held.none
  gangs := []
  agents := []
  marver := Marver.initial
  copies := []
  nextCopy := 0
  fetch := none
  cbar := []
  featUse := 0
  area := none

/-- No context. -/
def Context.empty : Context where
  id := CtxId.none
  pl := 0
  det := false
  kill := false
  part := 0
  nlc := 0
  ptroot := 0
  tvec1 := 0
  tvec2 := 0
  feat := 0
  savebase := 0
  cmap := 0
  xr := 0
  loaded := []
  choices := []
  launches := []
  marks := []
  saved := []

/-- No unit: nothing is resident after reset. -/
def Agent.empty : Agent := Agent.initial ⟨false, 0, 0⟩ 0 0 (Regs.initial 0 0 0 0 0) 0

/-- The reset value of URGCTL: PW = 1, L1PRI = 1, SLOW = 1, bit [0] = 1 (R359). -/
def urgctlReset : Word := 0x107

/-- A die after power-up: its registers at the reset values of R346, R359 and R397; log entry 2 for the rest. -/
def Die.reset : Die where
  ptime := 0
  healthy := false
  err := 0
  good := 0
  exchanged := 0
  horizon := 0
  promise := 0
  unpassed := []
  lehrq := 0
  batch := []
  batchAt := 0
  spare := []
  spareAt := 0
  flushing := []
  seq := 0
  merge := []
  slots := []
  rejected := []
  urgctl := []

/-- The hub after power-up: LIMIT 100, EN 0 (R397). -/
def Hub.reset : Hub := ⟨[], [], [], [], [], [], [], 0, 100, 0⟩

/-- The machine right after power-up reset: nothing resident, no context, the boot ROM at step 1 (R411). -/
def State.reset : State where
  self := Agent.empty
  crew := Crew.empty
  ctx := Context.empty
  crews := []
  ctxs := []
  mem := []
  dirty := []
  unpushed := []
  pois := []
  tlb := []
  dies := Vector.replicate 10 Die.reset
  queues := []
  punty := ⟨[], [], []⟩
  rounds := []
  redps := []
  hub := Hub.reset
  work := []
  flits := []
  pod := ⟨0, 0, 0, 0, 0, 0, [], false, false⟩
  credits := []
  credfix := []
  frameDrops := []
  fences := []
  renqs := []
  ctbase := 0
  partmap := Vector.replicate 8 0
  boot := ⟨1, false, 0, [], [], 0, 0, 0, none, 0, 0⟩
  fenced := []
  nextPacket := 0
  turn := .idle
  tick := 0
  free := 0
  inputs := []
  outbox := []

end Sys2Proof.Machine
end

