-- ==== Sys2Proof/Machine/Space.lean ====
section
/-!
DEFINITION. Physical memory and translation: the two windows and their canonical form (04 R110 to R113), page walks and
the TLB (17 R333 to R341), the merge table and the Lehr's batches (17 R342 to R344).
-/
namespace Sys2Proof.Machine

open Sys2Proof

/-! ### Physical addresses -/

/-- The bytes of one DRAM stack: 48 GiB (R110). -/
def stackBytes : Nat := 0xC00000000

/-- The die and in-die offset of granule number `g` of an interleaved window, as one canonical granule base (R111,
R337): `k` is the granule size's logarithm. -/
def interleave (k f : Nat) : Nat :=
  let g := f / 2 ^ k
  let die := (g % 8) ^^^ (g / 8 % 8) ^^^ (g / 64 % 8)
  die * 2 ^ 36 + (f / 2 ^ (k + 3) * 2 ^ k + f % 2 ^ k)

/-- The canonical form of a physical address; none where nothing is populated (R110 to R113). -/
def canonical (pa : Nat) : Option Nat :=
  if pa < 2 ^ 51 then
    if pa / 2 ^ 36 < 8 ∧ pa % 2 ^ 36 < stackBytes then some pa else none
  else if pa - 2 ^ 51 < 8 * stackBytes then some (interleave 12 (pa - 2 ^ 51))
  else none

/-- The byte at a canonical address: a cached copy hides DRAM (R106, R107). -/
def State.byteAt (s : State) (ca : Nat) : Byte := (s.dirty.read ca).getD (s.mem.read ca)

/-- The state with one byte written in the caches. -/
def State.putByte (s : State) (ca : Nat) (b : Byte) : State := { s with dirty := s.dirty.write ca b }

/-- `n` bytes from a canonical address. -/
def State.bytesAt (s : State) (ca n : Nat) : List Byte := (List.range n).map fun k => s.byteAt (ca + k)

/-- The little-endian number in `n` bytes from a canonical address (R1). -/
def State.numAt (s : State) (ca n : Nat) : Nat := leNat (s.bytesAt ca n)

/-- Bytes written from a canonical address upward. -/
def State.putBytes (s : State) (ca : Nat) : List Byte → State
  | [] => s
  | b :: bs => State.putBytes (s.putByte ca b) (ca + 1) bs

/-- A byte of a physical address, in either window; 0 where nothing is populated. -/
def State.physByte (s : State) (pa : Nat) : Byte := ((canonical pa).map s.byteAt).getD 0

/-- `n` bytes from a physical address. -/
def State.physBytes (s : State) (pa n : Nat) : List Byte := (List.range n).map fun k => s.physByte (pa + k)

/-- A number in `n` bytes from a physical address. -/
def State.physNum (s : State) (pa n : Nat) : Nat := leNat (s.physBytes pa n)

/-- The stores that stay unseen when those of `p` are made visible, newest first: a store that is seen shows its byte past every
older store of it, too. `seen` are the bytes shown so far. -/
def unseen (p : Unpushed → Bool) : List Nat → List Unpushed → List Unpushed
  | _, [] => []
  | seen, u :: us => if seen.contains u.ca || p u then unseen p (u.ca :: seen) us else u :: unseen p seen us

/-- Some stores made visible at a scope: from PACKAGE on, to the host (R131, R145). -/
def State.expose (s : State) (scope : Nat) (p : Unpushed → Bool) : State :=
  { s with unpushed := if 6 ≤ scope then unseen p [] s.unpushed
      else s.unpushed.map fun u => if p u then { u with scope := max u.scope scope } else u }

/-- Bytes written from a physical address upward; those in unpopulated space are dropped. -/
def State.putPhys (s : State) (pa : Nat) : List Byte → State
  | [] => s
  | b :: bs =>
    let s' := match canonical pa with
      | some ca => (s.putByte ca b).expose 6 fun u => u.ca == ca
      | none => s
    State.putPhys s' (pa + 1) bs

/-- The sector of a canonical address is poisoned (R380). -/
def State.poisonedAt (s : State) (ca : Nat) : Bool := s.pois.contains (ca / 256)

/-- A unit of a crew as a writer. -/
def Crew.writer (c : Crew) (u : UnitKey) : Writer :=
  ⟨⟨c.key, u⟩, none, c.socket, c.cluster, if u.gaffer then none else (c.gangs[u.gang]?).map (·.core)⟩

/-- A copy as a writer. -/
def Crew.copyWriter (c : Crew) (y : Copy) : Writer := { c.writer y.issuer with engine := some (2 * y.id + 1) }

/-- The unit in front as a writer. -/
def State.writer (s : State) : Writer := s.crew.writer s.self.unit

/-- A store of bytes as the host sees it: it may still read there what it could read before (R145). -/
def State.unpush (s : State) (w : Writer) (l : List (Nat × Byte)) : List Unpushed :=
  (l.map fun c => ⟨c.1, s.byteAt c.1, w, 0⟩) ++ s.unpushed

/-- Bytes written by one access of a writer, in order; a sector that it writes whole loses its poison (R380). -/
def State.putAll (s : State) (w : Writer) (l : List (Nat × Byte)) : State :=
  let s1 := { l.foldl (fun t c => t.putByte c.1 c.2) s with unpushed := s.unpush w l }
  { s1 with pois := s1.pois.filter fun k =>
      !(List.range 256).all fun j => l.any fun c => c.1 == 256 * k + j }

/-- A release by a writer covers a store: its own, or one that is released at a scope whose instance holds the writer
(R130, R131). Log entry 58. -/
def Unpushed.coveredBy (u : Unpushed) (w : Writer) : Bool :=
  let group := !u.writer.unit.unit.gaffer && !w.unit.unit.gaffer
  (u.writer.unit == w.unit && (u.writer.engine.isNone || decide (1 ≤ u.scope))) ||
  (decide (2 ≤ u.scope) && group && u.writer.unit.crew == w.unit.crew && u.writer.unit.unit.gang == w.unit.unit.gang) ||
  (decide (3 ≤ u.scope) && group && u.writer.die == w.die && u.writer.cluster == w.cluster && u.writer.core == w.core) ||
  (decide (4 ≤ u.scope) && u.writer.die == w.die && u.writer.cluster == w.cluster) ||
  (decide (5 ≤ u.scope) && u.writer.die == w.die)

/-- A release of the unit in front at a scope, as the host sees it (R145). -/
def State.publish (s : State) (scope : Nat) : State := s.expose scope fun u => u.coveredBy s.writer

/-- A release at PACKAGE scope of everything a crew has done (R18, R149). -/
def State.exposeCrew (s : State) (k : CrewKey) : State := s.expose 6 fun u => u.writer.unit.crew == k

/-- What a host read gives for a byte: the last value made visible at PACKAGE scope, or, sector by sector, a newer one that
has reached the package (R145); log entry 58. -/
def State.hostByte (s : State) (n ca : Nat) : Byte :=
  let late := (s.unpushed.filter fun u => u.ca == ca).take (Config.hostBehind n (ca / 256))
  (late.getLast?.map (·.old)).getD (s.byteAt ca)

/-- The next number of the counter of free values. -/
def State.draw (s : State) : Nat × State := (s.free, { s with free := s.free + 1 })

/-! ### Page tables -/

/-- Kinds of access, as the walk checks them (R339). -/
inductive AccKind where
  | read | write | fetch
  deriving DecidableEq, Repr

/-- Where a walk ends (R339): a leaf with its bits, the canonical address of its entry and its page size. -/
inductive WalkEnd where
  | leaf (bits : BitVec 64) (entry size : Nat)
  | absent
  | malformed
  deriving DecidableEq, Repr

/-- FMT of a leaf (R335). -/
def leafFmt (e : BitVec 64) : Nat := (e.extractLsb' 52 6).toNat
/-- GEOM of a leaf (R335). -/
def leafGeom (e : BitVec 64) : Nat := (e.extractLsb' 58 3).toNat
/-- The frame of a leaf as an address, {FRAME, 16'b0} (R337). -/
def leafFrame (e : BitVec 64) : Nat := (e.extractLsb' 16 36).toNat * 65536
/-- HOME of a leaf (R335). -/
def leafHome (e : BitVec 64) : Nat := (e.extractLsb' 12 4).toNat
/-- ILV of a leaf (R335). -/
def leafIlv (e : BitVec 64) : Nat := (e.extractLsb' 10 2).toNat

/-- The die that HOME of a leaf names; 0xF names none (R338, R356; DEDUCED, log entry 57). -/
def leafDie (e : BitVec 64) : Option Nat := if leafHome e = 15 then none else some (leafHome e)

/-- A valid leaf at `level` breaks R336, R337 or R338; `pl` is the privilege of the context. -/
def leafMalformed (level pl : Nat) (e : BitVec 64) : Bool :=
  let frame := leafFrame e
  let size := if level = 2 then 2 ^ 30 else if level = 3 then 2 ^ 21 else 2 ^ 16
  decide (level < 2) || e.extractLsb' 61 3 != 0 || frame % size != 0 || leafIlv e == 3 ||
  (if leafIlv e = 0 then leafHome e != 15 && leafHome e != frame / 2 ^ 36
   else leafHome e != 15 || (if leafIlv e = 1 then decide (frame < 2 ^ 51) else decide (8 * stackBytes ≤ frame))) ||
  (e.getLsbD 3 && !e.getLsbD 2) || (e.getLsbD 5 && pl == 0)

/-- A valid table pointer at `level` breaks R336. -/
def pointerMalformed (level : Nat) (e : BitVec 64) : Bool :=
  level == 4 || e.extractLsb' 52 12 != 0 || e.extractLsb' 2 6 != 0 ||
  (canonical ((e.extractLsb' 8 44).toNat * 256)).isNone

/-- The page size of a leaf at `level` (R333). -/
def levelSize (level : Nat) : Nat := if level = 2 then 2 ^ 30 else if level = 3 then 2 ^ 21 else 2 ^ 16

/-- The index of a virtual address at `level` (R333). -/
def levelIndex (level va : Nat) : Nat :=
  match level with
  | 0 => va / 2 ^ 48 % 256
  | 1 => va / 2 ^ 39 % 512
  | 2 => va / 2 ^ 30 % 512
  | 3 => va / 2 ^ 21 % 512
  | _ => va / 2 ^ 16 % 32

/-- The walk from the table at physical address `base`, level `level` (R339); `n` levels remain. -/
def State.walkFrom (s : State) (pl va : Nat) : Nat → Nat → Nat → WalkEnd
  | 0, _, _ => .malformed
  | n + 1, level, base =>
    match canonical (base + 8 * levelIndex level va) with
    | none => .malformed
    | some ca =>
      let e := BitVec.ofNat 64 (s.numAt ca 8)
      if !e.getLsbD 0 then .absent
      else if e.getLsbD 1 then
        if leafMalformed level pl e then .malformed else .leaf e ca (levelSize level)
      else if pointerMalformed level e then .malformed
      else State.walkFrom s pl va n (level + 1) ((e.extractLsb' 8 44).toNat * 256)

/-- The walk of a context's page table for a virtual address (R333, R339). -/
def State.walk (s : State) (c : Context) (va : Nat) : WalkEnd := s.walkFrom c.pl va 5 0 c.ptroot

/-- The physical address of a virtual address in a leaf's page (R337); for ILV 2 it is canonical already. -/
def leafPhys (e : BitVec 64) (size va : Nat) : Nat :=
  let f := leafFrame e + va % size
  if leafIlv e = 2 then interleave 16 f else f

/-- The attributes of a leaf's page. -/
def leafAttr (e : BitVec 64) (size : Nat) : Attr where
  r := e.getLsbD 2
  w := e.getLsbD 3
  x := e.getLsbD 4
  fmt := leafFmt e
  geom := leafGeom e
  ilv := leafIlv e
  ver := e.getLsbD 9
  mig := e.getLsbD 8
  size := size

/-- The attributes deny an access (R339). -/
def Attr.denies (a : Attr) : AccKind → Bool
  | .read => !a.r
  | .write => !a.w
  | .fetch => !a.x

/-- What translating an address gives (R340): a physical address with the page's attributes, a miss, or a fatal end. -/
inductive Xl where
  | ok (pa : Nat) (a : Attr)
  | absent
  | migrating
  | denied
  | malformed
  deriving DecidableEq, Repr

/-- The A bit, and for a write the D bit, of an entry set in memory, visible at PACKAGE scope (R339). -/
def State.setAD (s : State) (entry : Nat) (write : Bool) : State :=
  let b := s.byteAt entry
  let b' := b ||| (if write then 0xC0 else 0x40)
  if b = b' then s else (s.putByte entry b').expose 6 fun u => u.ca == entry

/-- The TLB entry of a context that maps an address (R341). -/
def State.tlbHit (s : State) (c : CtxId) (va : Nat) : Option TlbEntry :=
  s.tlb.find? fun t => t.ctx == c && t.va == va - va % t.size

/-- A translation filled into the TLB in place of an older one of the page (R339, R341). -/
def State.fillTlb (s : State) (t : TlbEntry) : State :=
  { s with tlb := t :: s.tlb.filter fun u => !(u.ctx == t.ctx && u.va == t.va && u.size == t.size) }

/-- A valid leaf checked for an access (R339). -/
def checkLeaf (k : AccKind) (e : BitVec 64) (size va : Nat) : Xl :=
  let a := leafAttr e size
  if a.denies k then .denied
  else if k = .write ∧ a.mig then .migrating
  else .ok (leafPhys e size va) a

/-- The translation of an address by a fresh walk (R339): the A and D bits are set and the TLB filled at a leaf that
allows the access. -/
def State.translateWalk (s : State) (c : Context) (k : AccKind) (va : Nat) : State × Xl :=
  match s.walk c va with
  | .absent => (s, .absent)
  | .malformed => (s, .malformed)
  | .leaf e entry size =>
    match checkLeaf k e size va with
    | .ok pa a =>
      let s1 := s.setAD entry (k == .write)
      let e' := e ||| (if k = .write then 0xC0 else 0x40)
      (s1.fillTlb ⟨c.id, va - va % size, size, e'⟩, .ok pa a)
    | r => (s, r)

/-- The translation of a virtual address (R114, R339 to R341). A TLB entry that still agrees with the tables gives what
the walk gives; where the tables have changed since, a free choice says whether the entry was still held. -/
def State.translate (s : State) (c : Context) (k : AccKind) (va : Nat) : State × Xl :=
  match s.tlbHit c.id va with
  | none => s.translateWalk c k va
  | some t =>
    if k = .write ∧ !t.leaf.getLsbD 7 then s.translateWalk c k va
    else
      let held := checkLeaf k t.leaf t.size va
      let fresh := s.translateWalk c k va
      if fresh.2 = held then fresh
      else
        let d := s.draw
        if Config.freeBit d.1 then (d.2, held)
        else ({ fresh.1 with free := d.2.free }, fresh.2)

/-! ### The merge table and the Lehr -/

/-- One die's registers changed. -/
def State.mapDie (s : State) (d : Nat) (f : Die → Die) : State :=
  { s with dies := Vector.ofFn fun i => if i.val = d then f s.dies[i] else s.dies[i] }

/-- The registers of a die; those of die 0 for a number that names none. -/
def State.dieAt (s : State) (d : Nat) : Die := if h : d < 10 then s.dies[d] else s.dies[0]

/-- A batch holds 256 records, or its first record is 20 us old (R344). -/
def Die.flushDue (d : Die) : Bool :=
  !d.batch.isEmpty && (decide (256 ≤ d.batch.length) || decide (d.batchAt + 320000 ≤ d.ptime))

/-- Records join the second batch: the flush of the first is due and has not started. Once it has, its records are
`flushing` and `batch` is the second one (R344). -/
def Die.onSpare (d : Die) : Bool := d.flushing.isEmpty && (d.flushDue || !d.spare.isEmpty)

/-- A record joins the Lehr's batch of its die, or the second batch while the flush of the first waits (R344). -/
def Die.record (d : Die) (r : FaultRec) : Die :=
  if d.onSpare then { d with spare := d.spare ++ [r], spareAt := if d.spare.isEmpty then d.ptime else d.spareAt }
  else { d with batch := d.batch ++ [r], batchAt := if d.batch.isEmpty then d.ptime else d.batchAt }

/-- Both batches are full: the first waits for its flush, and the second holds 256 records (R344). -/
def Die.batchesFull (d : Die) : Bool :=
  if d.flushing.isEmpty then d.flushDue && decide (256 ≤ d.spare.length) else decide (256 ≤ d.batch.length)

/-- A record sent straight to the Lehr (R340). -/
def State.report (s : State) (die : Nat) (c : CtxId) (va kind src : Nat) : State :=
  s.mapDie die fun d => d.record ⟨c, va / 65536 * 65536, kind, src⟩

/-- The record kind of a miss (R345). -/
def missKind (k : AccKind) (x : Xl) : Nat :=
  match k, x with
  | _, .migrating => 2
  | .read, _ => 0
  | .write, _ => 1
  | .fetch, _ => 3

/-- A miss at a die's merge table (R342): it joins the entry of its key, or opens one and emits a record; with the table
full it waits unregistered, and no key is answered. -/
def State.joinMerge (s : State) (die : Nat) (c : CtxId) (va : Nat) (k : AccKind) (kind src : Nat) :
    State × List MergeKey :=
  let key : MergeKey := ⟨die, c, va / 65536 * 65536, k == .write⟩
  let d := s.dieAt die
  if d.merge.any (fun e => e.key == key) then (s, [key])
  else if 1024 ≤ d.merge.length then (s, [])
  else if d.batchesFull then
    (s.mapDie die fun d => { d with merge := d.merge ++ [⟨key, false, kind, src⟩] }, [key])
  else
    (s.mapDie die fun d => { d.record ⟨c, key.page, kind, src⟩ with merge := d.merge ++ [⟨key, true, kind, src⟩] }, [key])

end Sys2Proof.Machine
end

