-- ==== Sys2Proof/Machine/Ops.lean ====
section
/-!
DEFINITION. The named operations over a unit: its paths (01 R23 to R29), runs and their rollback (01 R30 to R34), taking
a trap and returning from one (19 R366 to R369, 09 R218, 16 R323), the outcomes of an instruction, and the checks that
stand before every instruction (07 R178).
-/
namespace Sys2Proof.Machine

open Sys2Proof

/-- The outcome of a step. -/
abbrev Step := Host.Outcome State Fault Refusal

/-- An event whose occasion is absent in the state (a completion of an operation that is not running, a wake of a split
that does not wait) does not occur: the part stays as it is. Log entry 30. -/
def State.absent (s : State) : Step := .next s

/-! ### Parts of the state changed -/

/-- The issuing unit changed. -/
def State.mapSelf (s : State) (f : Agent → Agent) : State := { s with self := f s.self }
/-- The issuing path changed. -/
def State.mapCur (s : State) (f : Path → Path) : State := s.mapSelf fun a => { a with cur := f a.cur }
/-- The registers of the issuing unit changed. -/
def State.mapRegs (s : State) (f : Regs → Regs) : State := s.mapSelf fun a => { a with regs := f a.regs }
/-- A message sent. -/
def State.send (s : State) (m : Msg) : State := { s with outbox := s.outbox ++ [m] }

/-! ### The descriptor's values that a crew holds (R307, R308) -/

/-- A context with the values that a crew of it holds for its residence (R308). -/
def Context.under (c : Context) (h : Held) : Context :=
  { c with
    pl := h.pl
    det := h.det
    part := h.part
    nlc := h.nlc
    ptroot := h.ptroot
    tvec1 := h.tvec1
    tvec2 := h.tvec2
    feat := h.feat
    savebase := h.savebase
    cmap := h.cmap }

/-- The values that a crew placed or restored now holds for its residence (R308). -/
def Context.held (c : Context) : Held :=
  ⟨c.pl, c.det, c.part, c.nlc, c.ptroot, c.tvec1, c.tvec2, c.feat, c.savebase, c.cmap⟩

/-! ### Units and lanes -/

/-- Every lane of a unit: 32 of a group; a Gaffer thread counts as lane 0 alone. -/
def UnitKey.allLanes (u : UnitKey) : Mask := if u.gaffer then 1 else Mask.all
/-- The name of the issuing unit in the part. -/
def State.selfKey (s : State) : AgentKey := ⟨s.crew.key, s.self.unit⟩
/-- The trap level as the issuing path sees it: the handling split sees the group's, every other split 0 (R312). -/
def Agent.seenTl (a : Agent) : Nat := if a.cur.handler then a.tl else 0
/-- A run is in flight. -/
def Agent.inRun (a : Agent) : Bool := a.run.isSome
/-- Every path of a unit, the issuing one first, then the other splits, then the park list. -/
def Agent.paths (a : Agent) : List Path := a.cur :: a.splits ++ a.park
/-- The lanes that have not retired. -/
def Agent.live (a : Agent) : Mask := a.paths.foldl (fun m p => m ||| p.mask) 0
/-- Every lane has retired (R18). -/
def Agent.gone (a : Agent) : Bool := a.live == 0
/-- The group has one split and an empty park list (R122, R252). -/
def Agent.whole (a : Agent) : Bool := (a.splits ++ a.park).all fun p => p.mask == 0

/-- The lanes of the issuing split that may execute: all of it, or those kept for a resumed instruction (R218, R228). -/
def Path.lanes (p : Path) : Mask :=
  match p.only with
  | none => p.mask
  | some m => p.mask &&& m

/-- The predicate that a guard field names; G = 0, like p0, is true in every lane (R165). -/
def Regs.pred (r : Regs) (g : BitVec 3) : Mask := if g = 0 then Mask.all else r.p[g.toNat]'(by have := g.isLt; omega)

/-- The participating lanes of a per-lane instruction (R165, R181). -/
def State.part (s : State) (g : BitVec 3) : Mask := s.self.cur.lanes &&& s.self.regs.pred g

/-- A uniform instruction executes: the predicate holds in the lowest executing lane (R165, R218). -/
def State.uniform (s : State) (g : BitVec 3) : Bool :=
  let m := s.self.cur.lanes
  m != 0 && (s.self.regs.pred g).has m.lowest

/-! ### Traps -/

/-- The cause codes (R314). -/
def Cause.code : Cause → Nat
  | .illegalInsn => 0x01
  | .illegalOperand => 0x02
  | .illegalIssuer => 0x03
  | .regBounds => 0x04
  | .regBudget => 0x05
  | .callDepth => 0x06
  | .intDiv0 => 0x08
  | .misaligned => 0x09
  | .xlate => 0x0A
  | .format => 0x0B
  | .barrierPoison => 0x0C
  | .queueMisuse => 0x0D
  | .progress => 0x0E
  | .detViolation => 0x0F
  | .swTrap => 0x10
  | .brk => 0x11
  | .version => 0x12
  | .watermarkStall => 0x20
  | .eccUe => 0x21
  | .engineFault => 0x22
  | .ctxIncompat => 0x23
  | .physErr => 0x24

/-- A precise trap at the instruction. -/
def Trap.at (c : Cause) (v : Nat) (m : Mask) : Trap := ⟨c, BitVec.ofNat 64 v, m, false, false⟩

/-- TVAL of an operand trap: the word in [31:0], the field in [35:32] (R179). -/
def operandVal (w : Word) (field : Nat) : Nat := w.toNat + field * 2 ^ 32

/-- A run rolled back: nothing it did is committed and the PC is the RUNB (R34). -/
def Agent.rollback (a : Agent) : Agent :=
  match a.run with
  | none => a
  | some r =>
    { a with
      regs := r.saved
      run := none
      cur := { a.cur with pc := r.pc, pfx := Pfx.empty, only := none } }

/-- The address of TEPC: the word, or the next one for TRAP outside a run (R173, R217). -/
def Agent.trapAddr (a : Agent) (t : Trap) : DWord := if t.after then a.cur.pc + 4 else a.cur.pc

/-- The prefix words that TCAUSE counts (R173). -/
def Agent.trapPfx (a : Agent) (t : Trap) : Nat := if t.after then 0 else a.cur.pfx.count

/-- TCAUSE of a trap (R313). -/
def tcauseWord (t : Trap) (pfx : Nat) (vdisc part : Bool) : Word :=
  BitVec.ofNat 32 (t.cause.code + pfx % 8 * 256 + t.impr.toNat * 2048 + vdisc.toNat * 4096 + part.toNat * 8192)

/-- TSPLIT of a path: its mask in [63:32], its slot in [1:0] (R315). -/
def Path.splitWord (p : Path) : DWord := BitVec.ofNat 64 (p.mask.toNat * 2 ^ 32 + p.slot % 4)

/-- The trap registers written at delivery; TSCR keeps its value (R366). -/
def TrapRegs.enter (r : TrapRegs) (a : Agent) (t : Trap) : TrapRegs where
  epc := (a.trapAddr t &&& 0xFFFFFFFFFFFFFF)
  cause := tcauseWord t (a.trapPfx t) a.version.open_ (a.version.open_ && a.version.part)
  val := t.val
  mask := if a.unit.gaffer then 1 else t.mask
  split := a.cur.splitWord
  scr := r.scr

/-- A trap discards an open version, its queued stores with it, and leaves its identifier in s31 (R147, R368). -/
def Agent.discard (a : Agent) : Agent :=
  if a.version.open_ then
    { a with
      version := Version.none
      replay := a.replay.filter fun r => !r.ver
      regs := { a.regs with s := a.regs.s.set 31 a.version.id } }
  else a

/-- The path at a handler: no prefix, every lane executing (R366). -/
def Path.enter (p : Path) (pc : DWord) : Path :=
  { p with pc := pc, only := none, pfx := Pfx.empty, wait := .none, failed := [], handler := true }

/-- Delivery of a trap at level `lv`, 1 or 2, to the handler at `vec` (R366). -/
def Agent.enter (a : Agent) (lv : Nat) (vec : DWord) (t : Trap) : Agent :=
  let b := a.discard
  { b with
    t1 := if lv = 1 then a.t1.enter a t else a.t1
    t2 := if lv = 1 then a.t2 else a.t2.enter a t
    tl := lv
    cur := a.cur.enter vec }

/-- The 32 bytes of a kill report (R369). -/
def killReport (c : CtxId) (cause tlk source lcl gang gix : Nat) (epc val : DWord) : List Byte :=
  leBytes 4 c.word.toNat ++ leBytes 1 cause ++ leBytes 1 tlk ++ leBytes 1 source ++ leBytes 1 0 ++ leBytes 2 lcl ++
  leBytes 1 gang ++ leBytes 1 gix ++ leBytes 4 0 ++ leBytes 8 epc.toNat ++ leBytes 8 val.toNat

/-- The kill of the issuing unit's context by a trap (R366, R369): the first condition reports. -/
def State.killSelf (s : State) (t : Trap) (tlk : Nat) : State :=
  if s.ctx.kill then s
  else
    let u := s.self.unit
    let r := killReport s.ctx.id t.cause.code tlk 0 s.crew.lcl (if u.gaffer then 0xFF else u.gang) u.ix
      (s.self.trapAddr t &&& 0xFFFFFFFFFFFFFF) t.val
    { s with ctx := { s.ctx with kill := true }, outbox := s.outbox ++ [.kill r] }

/-- TVEC of a level (R307). -/
def Context.tvec (c : Context) (lv : Nat) : DWord := if lv = 1 then c.tvec1 else c.tvec2

/-- Taking a trap (R28, R366, R369): a run in flight rolls back; a split whose group handles another split's trap waits;
a trap at TL = 2 or without a handler kills the context; else delivery. -/
def State.raise (s : State) (t : Trap) : State :=
  let t' := if s.self.inRun then { t with after := false } else t
  let a := s.self.rollback
  let s1 := { s with self := a }
  if a.tl ≠ 0 ∧ !a.cur.handler then s1.mapCur fun p => { p with wait := .trap t' }
  else if a.seenTl = 2 ∨ s.ctx.tvec (a.seenTl + 1) = 0 then s1.killSelf t' (if a.seenTl = 2 then 2 else a.seenTl + 1)
  else { s1 with self := a.enter (a.seenTl + 1) (s.ctx.tvec (a.seenTl + 1)) t' }

/-- The trap registers of the current level. -/
def Agent.level (a : Agent) : TrapRegs := if a.tl = 2 then a.t2 else a.t1

/-- The address a return goes to: TEPC - 4 * TCAUSE[10:8] (R173). -/
def TrapRegs.resume (r : TrapRegs) : DWord := r.epc - BitVec.ofNat 64 (4 * bitsOf r.cause.toNat 10 8)

/-- The return from the current trap level to level `tl`: the split resumes at TEPC less the prefix, and the lanes outside
TMASK do not execute the first instruction (R218, R315, R323). Lanes that a merge in the handler has added to the split
return with it, and do not execute the first instruction either (DESIGN CHOICE, log entry 46). -/
def Agent.return (a : Agent) (tl : Nat) : Agent :=
  let r := a.level
  { a with
    tl := tl
    cur := { a.cur with
      pc := r.resume
      only := some (r.mask &&& r.split.extractLsb' 32 32)
      pfx := Pfx.empty
      wait := .none
      failed := []
      handler := a.cur.handler && tl != 0 } }

/-! ### Outcomes of an instruction -/

/-- The end of an instruction: done with its effect, the PC still to advance; done with the PC placed; a trap; or a
wait, after which the instruction issues again. -/
inductive Exit where
  | done (s : State)
  | moved (s : State)
  | trap (s : State) (t : Trap)
  | wait (s : State) (w : Wait)
  deriving DecidableEq, Repr

/-- One more instruction retired (R359). -/
def Agent.retire1 (a : Agent) : Agent := { a with retired := if a.retired < 0xFFFFFFFF then a.retired + 1 else a.retired }

/-- Instructions of a run retired with its trailer (R34, R359). -/
def Agent.retireRun (a : Agent) (r : Run) : Agent := { a with retired := min 0xFFFFFFFF (a.retired + r.count) }

/-- The issuing path past its word: PC + 4, the prefix consumed, every lane executing again (R166, R218). An instruction of a run
is counted in it, and retires with the trailer (R34, R359). -/
def Agent.advance (a : Agent) : Agent :=
  { a with
    cur := { a.cur with
      pc := a.cur.pc + 4
      pfx := Pfx.empty
      only := none
      failed := if a.inRun then a.cur.failed else [] }
    run := a.run.map fun r => { r with pos := r.pos + 1, count := r.count + 1 }
    retired := if a.inRun then a.retired else a.retire1.retired }

/-- The issuing path past its word. -/
def State.advance (s : State) : State := s.mapSelf Agent.advance

/-- The address of the first prefix word (R173). -/
def Path.first (p : Path) : DWord := p.pc - BitVec.ofNat 64 (4 * p.pfx.count)

/-- The issuing path waits at its instruction: a run rolls back to its RUNB; else the path stands at the first prefix
word (R34, R173). -/
def Agent.hold (a : Agent) (w : Wait) : Agent :=
  if a.inRun then
    let b := a.rollback
    { b with cur := { b.cur with wait := w } }
  else { a with cur := { a.cur with pc := a.cur.first, pfx := Pfx.empty, wait := w } }

/-- The instruction as it is held while it waits. -/
def Agent.held (a : Agent) (w : Word) : HeldInsn := ⟨a.cur.pc, a.cur.pfx, w⟩

/-- The outcome that an end gives. -/
def Exit.settle : Exit → Step
  | .done s => .next s.advance
  | .moved s => .next s
  | .trap s t => .next (s.raise t)
  | .wait s w => .next (s.mapSelf fun a => a.hold w)

/-- A long-latency result issued in the run in flight: load data, a special function, a queue push (R33). -/
def State.markLong (s : State) : State := s.mapSelf fun a => { a with run := a.run.map fun r => { r with long := true } }

/-! ### Paths: division, parking, merging -/

/-- Where some lanes of a path go (R23, R29): the next PC and return stack, or a stop at the instruction; `again` marks
a CALLI target that is parked at the CALLI when no slot is free. -/
structure Dest where
  mask : Mask
  pc : DWord
  stack : List DWord
  stop : Option Wait
  again : Bool
  deriving DecidableEq, Repr

/-- A path on which its whole group stands still: parked, or yielded (R36, R228). -/
def Agent.blockedBy (a : Agent) (p : Path) : Bool :=
  p.mask != 0 && (match p.wait with
    | .parked _ => true
    | .stuck _ => true
    | .copy _ _ => true
    | .tokens m => a.tokens &&& m != 0
    | _ => false)

/-- A unit in which no wait ends: a run is in flight, or the whole group stands still on one of its paths (R30, R36). -/
def Agent.standsStill (a : Agent) : Bool := a.run.isSome || a.paths.any fun p => a.blockedBy p

/-- A list of paths in the order of their lowest lanes, with one more. -/
def insertPath (p : Path) : List Path → List Path
  | [] => [p]
  | q :: qs => if p.mask.lowest ≤ q.mask.lowest then p :: q :: qs else q :: insertPath p qs

/-- The lowest slot that no split holds; none when all four are held (R23). -/
def freeSlot (held : List Nat) : Option Nat := (List.range 4).find? fun n => !held.contains n

/-- A path that stands at its instruction from the first prefix word on (R173). -/
def Path.restart (p : Path) : Path := { p with pc := p.first, pfx := Pfx.empty }

/-- The path of a destination made from its parent. A trap keeps the parent's prefix for TCAUSE and is taken when the
path issues; any other stop keeps the path at the instruction. -/
def Dest.path (d : Dest) (parent : Path) (slot : Nat) (keep : Bool) (tick : Nat) : Path :=
  let p := { parent with
    slot := slot
    mask := d.mask
    only := none
    failed := []
    handler := keep && parent.handler
    since := if keep then parent.since else tick }
  match d.stop with
  | none => { p with pc := d.pc, stack := d.stack, pfx := Pfx.empty, wait := .none }
  | some (.trap t) => { p with wait := .trap t }
  | some w => { p.restart with wait := w }

/-- The destinations after the first placed in free slots, then parked (R23, R29). A stopped one without a slot is
parked at the instruction and executes it again. -/
def Agent.placeDests (parent : Path) (tick : Nat) : List Dest → Agent → Agent
  | [], a => a
  | d :: ds, a =>
    let a' := match freeSlot (a.cur.slot :: (a.splits.filter (·.mask != 0)).map (·.slot)) with
      | some n => { a with splits := a.splits ++ [d.path parent n false tick] }
      | none =>
        let p := d.path parent 0 false tick
        let p' := if d.again || d.stop.isSome then
            { parent.restart with mask := d.mask, slot := 0, only := none, wait := .none, failed := [], handler := false
                                  since := tick }
          else p
        { a with park := insertPath p' a.park }
    Agent.placeDests parent tick ds a'

/-- A freed slot goes to the parked entry with the lowest lane (R24). -/
def Agent.refill (a : Agent) (slot tick : Nat) : Agent :=
  match a.park with
  | [] => { a with cur := { Path.empty with slot := slot } }
  | p :: ps => { a with cur := { p with slot := slot, since := tick }, park := ps }

/-- The issuing path divided over its destinations, which are in the order of their lowest lanes; lanes that none names
have retired (R18, R23, R24). -/
def Agent.divide (a : Agent) (tick : Nat) : List Dest → Agent
  | [] => a.refill a.cur.slot tick
  | d :: ds => Agent.placeDests a.cur tick ds { a with cur := d.path a.cur a.cur.slot true tick }

/-- Lanes grouped by what a function gives them: one entry for each distinct value, ranked by its lowest lane. -/
def groupLanes {β : Type} [DecidableEq β] (f : Nat → β) (m : Mask) : List (Mask × β) :=
  (m.lanes.map fun n => f n.val).eraseDups.map fun v => (Mask.ofTest fun n => m.has n && decide (f n = v), v)

/-! ### Checks before execution (R178) -/

/-- The HMOD fields an instruction takes (R168): rounding, saturation, unsigned, the non-zero TV codes, the non-zero
orders, and scope. -/
structure HmodUse where
  rnd : Bool := false
  sat : Bool := false
  uns : Bool := false
  tv : List (BitVec 3) := []
  order : List (BitVec 2) := []
  scope : Bool := false

/-- An HMOD word holds only fields that the instruction takes, with codes that are not reserved (R51, R130, R168). -/
def Hmod.fits (h : Hmod) (u : HmodUse) : Bool :=
  h.zero == 0 && (h.rnd == 0 || (u.rnd && decide (h.rnd.toNat ≤ 4))) && (h.sat == 0 || u.sat) &&
  (h.uns == 0 || u.uns) && (h.tv == 0 || u.tv.contains h.tv) && (h.order == 0 || u.order.contains h.order) &&
  (h.scope == 0 || (u.scope && decide (h.scope.toNat ≤ 9)))

/-- An HMOD word of zeros: what an instruction without one reads. -/
def Hmod.zeros : Hmod := ⟨0, 0, 0, 0, 0, 0, 0⟩

/-- Where an instruction may stand in a run body (R31). -/
inductive RunUse where
  | body | last | never
  deriving DecidableEq, Repr

/-- Who may issue an instruction (R174). -/
inductive Issuer where
  | group | gaffer | both
  deriving DecidableEq, Repr

/-- What an instruction asks of its issue (R178): its HMOD fields, its feature bit (R418), the lowest privilege and trap
level (R319), its issuer and its place in a run. -/
structure Needs where
  hmod : HmodUse := {}
  feat : Nat := 0
  pl : Nat := 0
  tlOk : Nat → Bool := fun _ => true
  issuer : Issuer := .group
  run : RunUse := .body

/-- The HMOD word in the prefix of the instruction at hand. -/
def State.hmod (s : State) : Hmod := s.self.cur.pfx.hmod.getD Hmod.zeros

/-- The context acknowledged the features of an instruction and of its HMOD word: SCOPE 9 belongs to ORD (R9, R418). -/
def State.acknowledged (s : State) (feat : Nat) : Bool :=
  s.ctx.feat.getLsbD feat && (s.hmod.scope != 9 || s.ctx.feat.getLsbD 3)

/-- An instruction stands where a run body allows it (R31). -/
def Agent.runPlace (a : Agent) (u : RunUse) : Bool :=
  match a.run with
  | none => true
  | some r => match u with
    | .body => true
    | .last => r.pos == r.n
    | .never => false

/-- The position of the body word at hand, counted from 1. -/
def Agent.runPos (a : Agent) : Nat :=
  match a.run with
  | none => 0
  | some r => r.pos

/-- Steps 1 to 3 of the decode checks (R178): the trap of the first that fails. `extra` is an ILLEGAL_INSN case of the
instruction's own; `w` is its word, `m` the lanes of TMASK. -/
def State.issueCheck (s : State) (n : Needs) (extra : Bool) (w : Word) (m : Mask) : Option Trap :=
  if s.self.cur.pfx.twice || !s.hmod.fits n.hmod || extra || !s.acknowledged n.feat || decide (s.ctx.pl < n.pl) ||
      !n.tlOk s.self.seenTl then
    some (Trap.at .illegalInsn w.toNat m)
  else if (n.issuer == .group && s.self.unit.gaffer) || (n.issuer == .gaffer && !s.self.unit.gaffer) then
    some (Trap.at .illegalIssuer w.toNat m)
  else if !s.self.runPlace n.run then some (Trap.at .illegalInsn s.self.runPos m)
  else none

/-- The first trap of a list of checks. -/
def firstTrap : List (Option Trap) → Option Trap
  | [] => none
  | some t :: _ => some t
  | none :: ts => firstTrap ts

end Sys2Proof.Machine
end

