-- ==== Sys2Proof/Machine/Flags.lean ====
section
/-!
DEFINITION. The floating-point control register FPC (02 R49 to R52): rounding mode, zero rule, sticky flags, and the one
way an instruction sets them.
-/
namespace Sys2Proof.Machine

open Sys2Proof

/-- The mode of a two-bit code (R49). -/
def Rm.ofCode (n : Nat) : Rm :=
  match n % 4 with
  | 0 => .rne
  | 1 => .rtz
  | 2 => .rup
  | _ => .rdn

/-- FPC.RM (R49). -/
def fpcRm (f : Word) : Rm := Rm.ofCode (f.extractLsb' 7 2).toNat
/-- FPC.ZC (R49). -/
def fpcZc (f : Word) : Bool := f.getLsbD 9
/-- The mode an HMOD RND field selects (R51): 0 takes FPC.RM. -/
def roundMode (rnd : BitVec 3) (f : Word) : Rm := if rnd = 0 then fpcRm f else Rm.ofCode (rnd.toNat - 1)

/-- The rounding mode of the instruction at hand (R51). -/
def State.rm (s : State) : Rm := roundMode s.hmod.rnd s.self.regs.fpc
/-- HMOD.SAT of the instruction at hand. -/
def State.sat (s : State) : Bool := s.hmod.sat == 1
/-- HMOD.UNS of the instruction at hand. -/
def State.uns (s : State) : Bool := s.hmod.uns == 1
/-- The zero rule in force (R74, R75). -/
def State.zc (s : State) : Bool := fpcZc s.self.regs.fpc

/-- FPC with flags raised (R50). -/
def raiseFlags (f : Word) (fl : Flags) : Word := f ||| fl.setWidth 32

/-- Flags raised in FPC by the instruction at hand (R50, R52). -/
def State.raiseFlags (s : State) (fl : Flags) : State := s.mapRegs fun r => { r with fpc := Machine.raiseFlags r.fpc fl }

/-- The OR of the flags of the lanes of a mask (R50). -/
def orFlags (m : Mask) (f : Nat → Flags) : Flags := m.lanes.foldl (fun a n => a ||| f n.val) 0

/-- What PMOV.wrf writes: ZC, RM and the flags; other bits are kept (R209). -/
def writeFpc (f a : Word) : Word := (f &&& 0xFFFFFC60#32) ||| (a &&& 0x39F#32)

end Sys2Proof.Machine
end

