-- ==== Sys2Proof/Machine/Format.lean ====
section
/-!
DEFINITION. Page formats (02 R60 to R64): the element size of a page, where the scale of an element lies, decoding an
element to FP32 and encoding one.
-/
namespace Sys2Proof.Machine

open Sys2Proof

/-- FMT is a binary8 format: 0b1sippp with ppp not 0 (R60). -/
def fmtB8 (f : Nat) : Bool := decide (32 ≤ f) && f % 8 != 0
/-- FMT and GEOM are legal: no reserved code, and a geometry with binary8 only (R60, R61). -/
def formatOk (fmt geom : Nat) : Bool :=
  (decide (fmt < 4) || fmtB8 fmt) && (geom == 0 || (decide (geom ≤ 4) && fmtB8 fmt))

/-- The element size of a page (R117). -/
def elemSize (fmt : Nat) : Nat := if fmt < 2 then 4 else if fmt < 4 then 2 else 1

/-- The block of the element at byte offset `i` of the data region (R61). -/
def blockIndex (geom i : Nat) : Nat :=
  let u := i / 1024
  let r := i / 32 % 32
  let c := i % 32
  match geom with
  | 1 => 32 * u + r
  | 2 => 32 * u + c
  | 3 => 16 * u + 4 * (r / 8) + c / 8
  | _ => 4 * u + 2 * (r / 16) + c / 16

/-- The page offset of the scale byte of block `j` on a page of `size` bytes (R61). -/
def scaleOffset (size j : Nat) : Nat := 31 * (size / 32) + j

/-- The offset lies in the scale region of its page (R61, R62). -/
def inScales (geom size y : Nat) : Bool := geom != 0 && decide (31 * (size / 32) ≤ y)

/-- The linear offset that `interleave 16` maps to a canonical address (R337). -/
def uninterleave (ca : Nat) : Nat :=
  let q := ca % 2 ^ 36 / 2 ^ 16
  let low := (ca / 2 ^ 36 % 8) ^^^ (q % 8) ^^^ (q / 8 % 8)
  (q * 8 + low) * 2 ^ 16 + ca % 2 ^ 16

/-- The physical address at page offset `y'` of the page in which `pa` lies at offset `y` (R337). -/
def samePage (ilv pa y y' : Nat) : Nat :=
  if ilv = 2 then interleave 16 (uninterleave pa + y' - y) else pa + y' - y

/-- Decodes an element to FP32 (R62, R117): a raw element is untouched. -/
def Elem.decode (e : Elem) (rm : Rm) : Word × Flags :=
  if e.fmt = 0 then (BitVec.ofNat 32 e.raw, 0)
  else if e.fmt = 1 then
    let r := numToFp32 rm (fp32.unpack e.raw)
    (BitVec.ofNat 32 r.1, r.2)
  else if e.fmt = 2 then (BitVec.ofNat 32 (widen fp16 e.raw), 0)
  else if e.fmt = 3 then (BitVec.ofNat 32 (widen bf16 e.raw), 0)
  else
    let x := (B8.ofBits e.fmt).decode e.raw
    match (if e.geom = 0 then some x else scaleNum x e.scale) with
    | none => (BitVec.ofNat 32 fp32.nan, flagNV)
    | some y =>
      let r := numToFp32 rm y
      (BitVec.ofNat 32 r.1, r.2)

/-- Encodes an FP32 value into the element format of a page without geometry (R63). -/
def encodeElem (fmt : Nat) (rm : Rm) (sat : Bool) (w : Word) : Nat × Flags :=
  if fmt = 0 then (w.toNat, 0)
  else if fmt = 1 then numToFp32 rm (fp32.unpack w.toNat)
  else if fmt = 2 then narrow fp16 rm sat w.toNat
  else if fmt = 3 then narrow bf16 rm sat w.toNat
  else (B8.ofBits fmt).encode rm sat (fp32.unpack w.toNat)

/-- The magnitude m * 2^e is at most m' * 2^e'. -/
def magLe (m : Nat) (e : Int) (m' : Nat) (e' : Int) : Bool := !magGt m e m' e'

/-- The larger of two magnitudes. -/
def magMax (x y : Nat × Int) : Nat × Int := if magGt x.1 x.2 y.1 y.2 then x else y

/-- The finite magnitude of an FP32 value; zero for NaN and infinities. -/
def finMag (w : Word) : Nat × Int :=
  match fp32.unpack w.toNat with
  | .fin _ m e => (m, e)
  | _ => (0, 0)

/-- The block exponent s of CPYE (R64): the least s in [-127, 126] with a * 2^-s at most Max. -/
def blockExp (f : B8) (a : Nat × Int) : Int :=
  if a.1 = 0 then 0
  else
    let mx := ({ f with infs := false } : B8).maxFin
    let ok (s : Int) : Bool := magLe a.1 (a.2 - s) mx.1 mx.2
    let s0 : Int := a.2 + bitLen a.1 - (mx.2 + bitLen mx.1)
    let s := if ok (s0 - 1) then s0 - 1 else if ok s0 then s0 else s0 + 1
    if s < -127 then -127 else if 126 < s then 126 else s

end Sys2Proof.Machine
end

