-- ==== Sys2Proof/Machine/Access.lean ====
section
/-!
DEFINITION. Lane accesses of a unit: global memory through a translation register or a plain address (04 R113 to R117,
09 R227, R228), scratchpad bytes (04 R104), what a run holds back (01 R33), what a version holds (05 R147, 10 R278), and
the replay queue (05 R142).
-/
namespace Sys2Proof.Machine

open Sys2Proof

/-! ### Scratchpads -/

/-- The gang of an index. -/
def State.gang (s : State) (g : Nat) : Option Gang := s.crew.gangs[g]?

/-- One gang changed. -/
def Crew.mapGang (c : Crew) (g : Nat) (f : Gang → Gang) : Crew :=
  { c with gangs := (List.range c.gangs.length).zipWith (fun i x => if i = g then f x else x) c.gangs }

/-- A byte of a scratchpad that the run in flight has stored (R33). -/
def Agent.heldScr (a : Agent) (g off : Nat) : Option Byte :=
  match a.run with
  | none => none
  | some r => (r.stores.find? fun h => h.gang == some g && h.addr == off).map (·.byte)

/-- A byte of a scratchpad as the issuing unit sees it. -/
def State.scrByte (s : State) (g off : Nat) : Byte :=
  (s.self.heldScr g off).getD (((s.gang g).map fun x => x.mem.read off).getD 0)

/-- `n` bytes of a scratchpad. -/
def State.scrBytes (s : State) (g off n : Nat) : List Byte := (List.range n).map fun k => s.scrByte g (off + k)

/-- A number in `n` bytes of a scratchpad. -/
def State.scrNum (s : State) (g off n : Nat) : Nat := leNat (s.scrBytes g off n)

/-- Bytes stored into a gang's scratchpad: a sector written whole loses its poison. -/
def Gang.putBytes (x : Gang) (l : List (Nat × Byte)) : Gang :=
  { x with
    mem := l.foldl (fun m c => m.write c.1 c.2) x.mem
    pois := x.pois.filter fun k => !(List.range 256).all fun j => l.any fun c => c.1 == 256 * k + j }

/-- Bytes stored into a scratchpad at once. -/
def State.putScr (s : State) (g : Nat) (l : List (Nat × Byte)) : State :=
  { s with crew := s.crew.mapGang g fun x => x.putBytes l }

/-- Bytes stored into a scratchpad by an instruction: held in a run (R33). -/
def State.storeScr (s : State) (g : Nat) (l : List (Nat × Byte)) : State :=
  match s.self.run with
  | none => s.putScr g l
  | some r => s.mapSelf fun a => { a with run := some { r with
      stores := (l.map fun c => (⟨some g, c.1, 0, c.2⟩ : HeldByte)).reverse ++ r.stores } }

/-- Consecutive addresses paired with bytes. -/
def placed (a : Nat) (bs : List Byte) : List (Nat × Byte) := (List.range bs.length).zipWith (fun k b => (a + k, b)) bs

/-! ### Global bytes -/

/-- The version that takes stores: open, and not yet committed by an overflow (R278). -/
def Version.active (v : Version) : Bool := v.open_ && !v.part

/-- A global byte as the issuing unit sees it: its run's held stores, then its version, then memory. -/
def State.loadByte (s : State) (ca : Nat) : Byte :=
  let held := match s.self.run with
    | none => none
    | some r => (r.stores.find? fun h => h.gang == none && h.addr == ca).map (·.byte)
  match held with
  | some b => b
  | none => (if s.self.version.active then s.self.version.bytes.read ca else none).getD (s.byteAt ca)

/-- `n` global bytes from a canonical address. -/
def State.loadBytes (s : State) (ca n : Nat) : List Byte := (List.range n).map fun k => s.loadByte (ca + k)

/-- One byte to store: canonical address, virtual address, value. -/
structure StoreByte where
  ca : Nat
  va : Nat
  byte : Byte
  deriving DecidableEq, Repr

/-- An open version committed at once: its bytes become plain memory and are visible together, to the host, too (R147). A store of
the version that is still queued is an ordinary one then. -/
def State.commitVersion (s : State) (rest : Version) : State :=
  let bs := s.self.version.bytes.filterMap fun c => c.2.map fun b => (c.1, b)
  let s1 := (s.putAll s.writer bs).expose 6 fun u => bs.any fun c => c.1 == u.ca
  s1.mapSelf fun a => { a with version := rest, replay := a.replay.map fun r => { r with ver := false } }

/-- One byte into the open version: a sector beyond the budget, or one that the L2 gives no second tag, commits it
(R278); log entry 5. -/
def State.versionByte (s : State) (b : StoreByte) : State :=
  let v := s.self.version
  if !v.active then s.putAll s.writer [(b.ca, b.byte)]
  else if v.sectors.any (fun c => c.1 == b.ca / 256) then
    s.mapSelf fun a => { a with version := { v with bytes := v.bytes.write b.ca b.byte } }
  else
    let d := s.draw
    if 4096 ≤ v.sectors.length ∨ Config.freeBit d.1 then
      (d.2.commitVersion { v with part := true, bytes := [], sectors := [] }).putAll s.writer [(b.ca, b.byte)]
    else d.2.mapSelf fun a => { a with version := { v with
      bytes := v.bytes.write b.ca b.byte, sectors := v.sectors ++ [(b.ca / 256, b.va / 256 * 256)] } }

/-- Bytes stored outside a run: into the open version, else into memory. -/
def State.applyStore (s : State) (l : List StoreByte) : State :=
  if s.self.version.active then l.foldl (fun t b => t.versionByte b) s
  else s.putAll s.writer (l.map fun b => (b.ca, b.byte))

/-- Bytes stored by an instruction: held in a run (R33). -/
def State.store (s : State) (l : List StoreByte) : State :=
  match s.self.run with
  | none => s.applyStore l
  | some r => s.mapSelf fun a => { a with run := some { r with
      stores := (l.map fun b => (⟨none, b.ca, b.va, b.byte⟩ : HeldByte)).reverse ++ r.stores } }

/-- The bytes of one access at consecutive addresses. -/
def storeBytes (ca va : Nat) (bs : List Byte) : List StoreByte :=
  (List.range bs.length).zipWith (fun k b => ⟨ca + k, va + k, b⟩) bs

/-! ### One lane -/

/-- What one lane's access meets (R227, R340): a place, a miss, or a failed check with its stage and TVAL. -/
inductive LaneOut where
  | ok (pa ca : Nat) (a : Attr)
  | miss (x : Xl)
  | fail (stage : Nat) (c : Cause) (v : Nat)
  deriving DecidableEq, Repr

/-- A lane with its address and what its access meets. -/
structure LaneAcc where
  lane : Nat
  va : Nat
  out : LaneOut
  deriving DecidableEq, Repr

/-- The shape of an access: `e` an element, else `width` bytes; `raw` the raw override; `size` the element size that the
page of a queue entry's lane must have, 0 for any (R121). An atomic is a write that also reads. -/
structure AccShape where
  kind : AccKind
  reads : Bool
  e : Bool
  raw : Bool
  width : Nat
  src : Nat
  size : Nat
  deriving DecidableEq, Repr

/-- The source bits of a record: groups, copies, the Marver, queue streams, ordered writes (R345). -/
abbrev srcGroup : Nat := 1
/-- Copies. -/
abbrev srcCopy : Nat := 2
/-- The Marver. -/
abbrev srcMarver : Nat := 4
/-- Queue streams. -/
abbrev srcStream : Nat := 8
/-- Ordered-class writes. -/
abbrev srcOrdered : Nat := 16

/-- The physical address of the scale byte of the element at a place; none where its page has no geometry (R61). -/
def scalePhys (va pa : Nat) (a : Attr) : Option Nat :=
  if a.geom = 0 then none
  else some (samePage a.ilv pa (va % a.size) (scaleOffset a.size (blockIndex a.geom (va % a.size))))

/-- The canonical address of the scale byte of the element at a place (R61). -/
def scaleAt (va pa : Nat) (a : Attr) : Option Nat := (scalePhys va pa a).bind canonical

/-- The physical address in a poisoned sector that an access at a place reads: of its bytes, or of its element's scale
(R380). -/
def State.poisonRead (s : State) (sh : AccShape) (va pa ca : Nat) (a : Attr) : Option Nat :=
  if !sh.reads then none
  else if s.poisonedAt ca then some pa
  else if sh.e then (scalePhys va pa a).filter fun p => ((canonical p).map s.poisonedAt).getD false
  else none

/-- Checks 4 and 5 of R227 at a translated place, then poison (R380). A lane of a queue entry on a page of another element
size is a FORMAT case, whatever its alignment there (R121). -/
def State.placeCheck (s : State) (sh : AccShape) (va pa : Nat) (a : Attr) : State × LaneOut :=
  let die := s.crew.socket
  if sh.e ∧ sh.size ≠ 0 ∧ elemSize a.fmt ≠ sh.size then (s, .fail 4 .format va)
  else if sh.e ∧ va % elemSize a.fmt ≠ 0 then (s, .fail 4 .misaligned va)
  else if !formatOk a.fmt a.geom ∨ (!sh.e ∧ a.fmt ≠ 0 ∧ !sh.raw) ∨
      (sh.e ∧ (if sh.kind = .write then a.geom != 0 else inScales a.geom a.size (va % a.size))) then
    (s, .fail 5 .format va)
  else
    match canonical pa with
    | none => (s.report die s.ctx.id va 6 sh.src, .fail 6 .physErr pa)
    | some ca =>
      match s.poisonRead sh va pa ca a with
      | some bad => (s, .fail 7 .eccUe bad)
      | none =>
        if sh.kind = .write ∧ s.self.version.active ∧ !a.ver then (s, .fail 8 .version va) else (s, .ok pa ca a)

/-- The outcome of a translation for the issuing unit (R340): a miss at TL 1 or above, or on an entry answered FAIL,
raises XLATE; a denial or a malformed entry reports and raises XLATE. -/
def State.resolve (s : State) (sh : AccShape) (va : Nat) (x : State × Xl) : State × LaneOut :=
  let die := s.crew.socket
  match x.2 with
  | .ok pa a => x.1.placeCheck sh va pa a
  | .denied => (x.1.report die s.ctx.id va 4 sh.src, .fail 3 .xlate va)
  | .malformed => (x.1.report die s.ctx.id va 5 sh.src, .fail 3 .xlate va)
  | m => if s.self.seenTl ≠ 0 then (x.1, .fail 3 .xlate va) else (x.1, .miss m)

/-- The key of a lane's page was answered FAIL (R347). -/
def State.failedKey (s : State) (va : Nat) (k : AccKind) : Bool :=
  s.self.cur.failed.contains ⟨s.crew.socket, s.ctx.id, va / 65536 * 65536, k == .write⟩

/-- A plain address translated for one access (R114, R225). -/
def State.laneAt (s : State) (sh : AccShape) (va : Nat) : State × LaneOut :=
  if s.failedKey va sh.kind then (s, .fail 3 .xlate va)
  else s.resolve sh va (s.translate s.ctx sh.kind va)

/-- An offset through a translation register (R115): below LIMIT the frame serves, unless it is a write on a migrating
page. -/
def State.laneVia (s : State) (sh : AccShape) (t : TransReg) (x : Nat) : State × LaneOut :=
  let va := t.base + x
  if s.failedKey va sh.kind then (s, .fail 3 .xlate va)
  else if x < t.limit ∧ !(sh.kind == .write && t.attr.mig) then
    s.resolve sh va (s, if t.attr.denies sh.kind then .denied else .ok (t.frame + x) t.attr)
  else s.resolve sh va (s.translate s.ctx sh.kind va)

/-- The lanes of a list of (lane, address) translated in order. -/
def State.lanesBy (f : State → Nat → State × LaneOut) : List (Nat × Nat × Nat) → State → State × List LaneAcc
  | [], s => (s, [])
  | (n, va, key) :: ls, s =>
    let r := f s key
    let rest := State.lanesBy f ls r.1
    (rest.1, ⟨n, va, r.2⟩ :: rest.2)

/-- The failed check that comes first, in its lowest lane (R227): stage, cause, TVAL. -/
def worst (l : List LaneAcc) : Option (Nat × Cause × Nat) :=
  l.foldl (fun b a => match a.out, b with
    | .fail st c v, none => some (st, c, v)
    | .fail st c v, some (st', c', v') => if st < st' then some (st, c, v) else some (st', c', v')
    | _, b => b) none

/-- The mask of the lanes that satisfy a test. -/
def lanesWhere (l : List LaneAcc) (f : LaneAcc → Bool) : Mask :=
  (l.filter f).foldl (fun m a => m ||| Mask.one a.lane) 0

/-- The lane found its place. -/
def LaneAcc.isOk (a : LaneAcc) : Bool := match a.out with | .ok _ _ _ => true | _ => false
/-- The lane missed in translation. -/
def LaneAcc.isMiss (a : LaneAcc) : Bool := match a.out with | .miss _ => true | _ => false

/-- The missed lanes joined to the merge table (R228, R342), as a miss at TL 0. -/
def State.joinLanes (s : State) (k : AccKind) (src : Nat) : List LaneAcc → State × List MergeKey
  | [] => (s, [])
  | a :: as =>
    match a.out with
    | .miss x =>
      let r := s.joinMerge s.crew.socket s.ctx.id a.va k (missKind k x) src
      let rest := State.joinLanes r.1 k src as
      (rest.1, (r.2 ++ rest.2).eraseDups)
    | _ => State.joinLanes s k src as

/-- The merge entries that a wait awaits. -/
def Wait.keys : Wait → List MergeKey
  | .parked l => l
  | .stuck l => l
  | .fetch l => l
  | _ => []

/-- A wait on merge entries; with none registered the group is parked with nothing to answer, and the instruction issues
again (R342). -/
def Wait.onKeys (ks : List MergeKey) : Wait := if ks.isEmpty then .stuck [] else .parked ks

/-- The unit parked at its instruction until the missed lanes' entries are answered; those lanes alone execute again
(R228). In a run the whole run executes again (R34). -/
def State.parkOn (s : State) (k : AccKind) (l : List LaneAcc) : Exit :=
  let r := s.joinLanes k srcGroup l
  .wait (r.1.mapCur fun p => { p with only := some (lanesWhere l LaneAcc.isMiss) }) (Wait.onKeys r.2)

/-- The unit parked at its instruction until the missed lanes of a queue entry are answered; the whole instruction
executes again (R121, R228). -/
def State.parkWhole (s : State) (k : AccKind) (l : List LaneAcc) (src : Nat := srcGroup) : Exit :=
  let r := s.joinLanes k src l
  .wait r.1 (Wait.onKeys r.2)

/-- A store that found the replay queue full, parked until its entries are answered or an entry of the queue drains; in a run the
whole run executes again (R34, R343). -/
def Exit.untilDrained (e : Exit) : Exit :=
  match e with
  | .wait t w => .wait t (if t.self.inRun then w else .stuck w.keys)
  | x => x

/-- The size code of a pushed .e entry whose first page has not been found: its elements have at most four bytes (R121). -/
abbrev unsized : Nat := 8

/-- The addresses that a lane of a queued store may write. While the element size of an entry is not known, its lanes hold the
entry's address, and reach at most four bytes for each lane further (R121). -/
def Replay.places (r : Replay) (l : ReplayLane) : List Nat :=
  if r.size = unsized then [l.va, (l.va + 4 * l.lane) % 2 ^ 64] else [l.va]

/-- A page of some lane holds a queued store (R142). -/
def Agent.queuedPage (a : Agent) (vas : List Nat) : Bool :=
  a.replay.any fun r => r.lanes.any fun l => (r.places l).any fun p => vas.any fun v => v / 65536 == p / 65536

/-- The end of an access of which the lanes that passed have been performed in `s` (R227, R228): the first failed check
traps; else the missed lanes park the unit; else the instruction is done. -/
def State.finishLanes (s : State) (k : AccKind) (todo : Mask) (l : List LaneAcc) : Exit :=
  match worst l with
  | some (_, c, v) =>
    .trap s (Trap.at c v (if s.self.inRun then todo else todo &&& ~~~ lanesWhere l LaneAcc.isOk))
  | none => if l.any LaneAcc.isMiss then s.parkOn k l else .done s

/-- The signed offset of a lane in its translation register is refused (R115, R114). -/
def TransReg.outside (t : TransReg) (x : Int) : Bool :=
  decide (x < 0) || decide ((t.hbound : Int) ≤ x) || decide (2 ^ 56 ≤ t.base + x.toNat)

/-- BASE + x as a 64-bit address. -/
def TransReg.addr (t : TransReg) (x : Int) : Nat := (BitVec.ofInt 64 (t.base + x)).toNat

/-- Checks 1 and 2 of R227 for offsets through a translation register, every lane before any is performed. -/
def TransReg.preCheck (t : TransReg) (width : Nat) (xs : List (Nat × Int)) (w : Word) (m : Mask) : Option Trap :=
  if !t.valid then some (Trap.at .illegalOperand (operandVal w 4) m)
  else
    match xs.find? fun c => t.outside c.2 with
    | some c => some (Trap.at .xlate (t.addr c.2) m)
    | none => (xs.find? fun c => (t.base + c.2.toNat) % width != 0).map fun c =>
        Trap.at .misaligned (t.addr c.2) m

/-- Checks 1 and 2 of R227 for scratchpad offsets against the sizes of the gangs addressed (R104, R105). -/
def scrPreCheck (sizes : List Nat) (width : Nat) (xs : List (Nat × Nat)) (m : Mask) : Option Trap :=
  match xs.find? fun c => sizes.any fun z => decide (z ≤ c.2) with
  | some c => some (Trap.at .xlate c.2 m)
  | none => (xs.find? fun c => c.2 % width != 0).map fun c => Trap.at .misaligned c.2 m

/-- A poisoned scratchpad sector among the offsets (R374, R380). -/
def Gang.poisonCheck (x : Gang) (xs : List (Nat × Nat)) (m : Mask) : Option Trap :=
  (xs.find? fun c => x.pois.contains (c.2 / 256)).map fun c => Trap.at .eccUe c.2 m

/-- The raw bits and scale of the element at a place (R61, R117). -/
def State.elemAt (s : State) (va pa ca : Nat) (a : Attr) : Elem :=
  ⟨a.fmt, a.geom, leNat (s.loadBytes ca (elemSize a.fmt)),
   ((scaleAt va pa a).map fun c => (s.loadByte c).toNat).getD 0⟩

/-! ### The replay queue (R142) -/

/-- One more store in the replay queue. -/
def State.enqueueReplay (s : State) (w : Word) (wide : Bool) (l : List LaneAcc) (data : Nat → List Byte)
    (src : Nat := srcGroup) (size : Nat := 0) : State :=
  let r := s.joinLanes .write src l
  r.1.mapSelf fun a => { a with replay := a.replay ++ [
    { word := w, pfx := a.cur.pfx, wide := wide, ver := a.version.active, size := size
      lanes := (l.filter LaneAcc.isMiss).map fun c => ⟨c.lane, c.va, data c.lane⟩
      keys := r.2 }] }

/-- The end of a store whose passed lanes have been performed in `s`: missed lanes enter the replay queue, or, when it is
full, park the group until an entry drains (R142, R343); a miss in a run rolls it back (R228). -/
def State.finishStore (s : State) (w : Word) (wide : Bool) (todo : Mask) (l : List LaneAcc) (data : Nat → List Byte) :
    Exit :=
  match worst l with
  | some _ => s.finishLanes .write todo l
  | none =>
    if !l.any LaneAcc.isMiss then .done s
    else if s.self.inRun ∨ 16 ≤ s.self.replay.length then (s.parkOn .write l).untilDrained
    else .done (s.enqueueReplay w wide l data)

end Sys2Proof.Machine
end

