-- ==== Sys2Proof/Machine/Fetch.lean ====
section
/-!
DEFINITION. Instruction fetch (09 R214, 17 R340) and the choice of the unit and split that issue (the agents' lists).
-/
namespace Sys2Proof.Machine

open Sys2Proof

/-- What a fetch gives: the word, or an end of the fetching split. -/
inductive Fetch where
  | word (s : State) (w : Word)
  | stop (e : Exit)
  deriving DecidableEq, Repr

/-- The word at a virtual address, fetched for the issuing split; the TVAL of XLATE is `va` and the lanes of a trap are `m`
(R214, R340, R380). A reserved FMT or GEOM raises FORMAT (R60, R61, R336). A miss at TL = 0 holds the split, and in a run parks
the group at the RUNB (R34). -/
def State.fetchAt (s : State) (va : Nat) (m : Mask) : Fetch :=
  let die := s.crew.socket
  let bad (t : State) := Fetch.stop (.trap t (Trap.at .xlate va m))
  if 2 ^ 56 ≤ va ∨ s.failedKey va .fetch then bad s
  else
    let r := s.translate s.ctx .fetch va
    match r.2 with
    | .ok pa a =>
      if !formatOk a.fmt a.geom then .stop (.trap r.1 (Trap.at .format 0 m))
      else
      match canonical pa with
      | none => .stop (.trap (r.1.report die s.ctx.id va 6 srcGroup) (Trap.at .physErr pa m))
      | some ca =>
        if r.1.poisonedAt ca then .stop (.trap r.1 (Trap.at .eccUe pa m))
        else .word r.1 (BitVec.ofNat 32 (r.1.numAt ca 4))
    | .denied => bad (r.1.report die s.ctx.id va 4 srcGroup)
    | .malformed => bad (r.1.report die s.ctx.id va 5 srcGroup)
    | x =>
      if s.self.seenTl ≠ 0 then bad r.1
      else
        let j := r.1.joinMerge die s.ctx.id va .fetch (missKind .fetch x) srcGroup
        .stop (.wait j.1 (if s.self.inRun then Wait.onKeys j.2 else if j.2.isEmpty then .poll else .fetch j.2))

/-- The next word of the issuing split. -/
def State.fetchWord (s : State) : Fetch := s.fetchAt s.self.cur.pc.toNat s.self.cur.lanes

/-- The split in a slot brought to the front of its unit. -/
def Agent.focus (a : Agent) (slot : Nat) : Option Agent :=
  if a.cur.slot = slot ∧ a.cur.mask ≠ 0 then some a
  else
    match a.splits.find? fun p => p.slot == slot && p.mask != 0 with
    | none => none
    | some p =>
      let others := a.splits.filter fun q => !(q.slot == slot && q.mask != 0)
      some { a with cur := p, splits := if a.cur.mask = 0 then others else a.cur :: others }

/-- A crew brought to the front, with its context as the crew holds it (R308). -/
def State.focusCrew (s : State) (k : CrewKey) : Option State :=
  if s.crew.key = k then some s
  else
    match s.crews.find? fun c => c.key == k with
    | none => none
    | some c =>
      let back := if s.crew.key = CrewKey.none then [] else [{ s.crew with agents := s.self :: s.crew.agents }]
      let s1 : State := { s with
        crew := { c with agents := c.agents.drop 1 }
        self := c.agents.headD Agent.empty
        crews := back ++ s.crews.filter fun d => d.key != k }
      if s1.ctx.id = k.ctx then some { s1 with ctx := s1.ctx.under c.held }
      else
        match s1.ctxs.find? fun x => x.id == k.ctx with
        | none => none
        | some x => some { s1 with
            ctx := x.under c.held
            ctxs := (if s1.ctx.id = CtxId.none then [] else [s1.ctx]) ++ s1.ctxs.filter fun y => y.id != k.ctx }

/-- A unit of the crew in front brought to the front. -/
def State.focusUnit (s : State) (u : UnitKey) : Option State :=
  if s.self.unit = u then some s
  else
    match s.crew.agents.find? fun a => a.unit == u with
    | none => none
    | some a => some { s with
        self := a
        crew := { s.crew with agents := s.self :: s.crew.agents.filter fun b => b.unit != u } }

/-- A unit of the part, and its split in a slot, brought to the front. -/
def State.focus (s : State) (u : AgentKey) (slot : Nat) : Option State :=
  match s.focusCrew u.crew with
  | none => none
  | some s1 =>
    match s1.focusUnit u.unit with
    | none => none
    | some s2 => (s2.self.focus slot).map fun a => { s2 with self := a }

/-- The unit that stood in front of `s` brought back to the front of `t`, where it is still there. -/
def State.refocus (t s : State) : State := ((t.focusCrew s.selfKey.crew).bind fun x => x.focusUnit s.self.unit).getD t

end Sys2Proof.Machine
end

