-- ==== Sys2Proof/Machine/Operands.lean ====
section
/-!
DEFINITION. Operand forms (07 R161 to R164, R167): what a specifier names, the checks on it, reading it by lane or as a
scalar, writing a destination with the latches of a run (01 R32), and the queue operands (04 R121, R122).
-/
namespace Sys2Proof.Machine

open Sys2Proof

/-! ### Kinds of specifier -/

/-- A main-file specifier, v(n + IX). -/
def isV (sp : BitVec 7) : Bool := decide (sp.toNat < 0x40)
/-- An s register. -/
def isS (sp : BitVec 7) : Bool := decide (0x40 ≤ sp.toNat) && decide (sp.toNat < 0x60)
/-- An o register. -/
def isO (sp : BitVec 7) : Bool := decide (0x60 ≤ sp.toNat) && decide (sp.toNat < 0x70)
/-- A latch. -/
def isL (sp : BitVec 7) : Bool := decide (0x70 ≤ sp.toNat) && decide (sp.toNat < 0x74)
/-- A queue register. -/
def isQ (sp : BitVec 7) : Bool := decide (0x74 ≤ sp.toNat) && decide (sp.toNat < 0x78)

/-- A vector source is refused (R161, R164). -/
def State.badSource (s : State) (sp : BitVec 7) : Bool :=
  sp == 0x7F || (isL sp && !s.self.inRun) || (sp == 0x7B && !s.self.cur.pfx.himm)

/-- A vector destination is refused (R161); `reads` for the instructions that read D (R182). -/
def State.badDest (s : State) (reads : Bool) (sp : BitVec 7) : Bool :=
  !(isV sp || isO sp || isL sp || isQ sp) || (reads && (isQ sp || (isL sp && !s.self.inRun)))

/-- A scalar source is refused (R161, R164). -/
def State.badScalar (s : State) (sp : BitVec 7) : Bool :=
  !(isS sp || sp == 0x78 || sp == 0x7B || sp == 0x7D || sp == 0x7E) || (sp == 0x7B && !s.self.cur.pfx.himm)

/-- ILLEGAL_OPERAND for field number `field` when `bad` (R178, R179). -/
def operandIf (bad : Bool) (w : Word) (field : Nat) (m : Mask) : Option Trap :=
  if bad then some (Trap.at .illegalOperand (operandVal w field) m) else none

/-- REG_BOUNDS of the lowest failing row of a main-file operand of `n` rows (R162). -/
def State.bounds (s : State) (sp : BitVec 7) (n : Nat) (m : Mask) : Option Trap :=
  if isV sp then
    let r := sp.toNat + s.self.regs.ix
    let z := s.self.regs.v.length
    if z < r + n then some (Trap.at .regBounds (if r < z then z else r) m) else none
  else none

/-! ### Reading -/

/-- The width of a tile in lanes (R37). -/
def tileWidth (tile : BitVec 3) : Nat := 2 ^ tile.toNat

/-- A row of the main file; zeros for a row that is not there. -/
def Regs.row (r : Regs) (n : Nat) : Lanes := r.v[n]?.getD (Lanes.const 0)

/-- The s register of a number. -/
def Regs.sAt (r : Regs) (n : Nat) : DWord := r.s.toArray.getD n 0
/-- The o register of a number. -/
def Regs.oAt (r : Regs) (n : Nat) : Lanes := r.o.toArray.getD n (Lanes.const 0)
/-- A latch of the run in flight; zeros outside a run. -/
def Agent.latch (a : Agent) (n : Nat) : Lanes :=
  match a.run with
  | none => Lanes.const 0
  | some r => r.lat.toArray.getD n (Lanes.const 0)

/-- Values popped from queues: queue number and one element per lane. -/
abbrev Pops := List (Nat × Lanes)

/-- A vector source operand in all 32 lanes (R161, R164, R181). -/
def State.readV (s : State) (pops : Pops) (sp : BitVec 7) : Lanes :=
  let r := s.self.regs
  if isV sp then r.row (sp.toNat + r.ix)
  else if isS sp then Lanes.const ((r.sAt (sp.toNat - 0x40)).setWidth 32)
  else if isO sp then r.oAt (sp.toNat - 0x60)
  else if isL sp then s.self.latch (sp.toNat - 0x70)
  else if isQ sp then ((pops.find? fun p => p.1 == sp.toNat - 0x74).map (·.2)).getD (Lanes.const 0)
  else if sp = 0x79 then Lanes.tab fun n => BitVec.ofNat 32 n
  else if sp = 0x7A then Lanes.const (BitVec.ofNat 32 s.self.unit.ix)
  else if sp = 0x7B then Lanes.const (s.self.cur.pfx.acc.setWidth 32)
  else if sp = 0x7C then Lanes.tab fun n => BitVec.ofNat 32 (n / tileWidth r.tile)
  else if sp = 0x7D then Lanes.const 0xFFFFFFFF
  else if sp = 0x7E then Lanes.const (BitVec.ofNat 32 s.crew.key.crew)
  else Lanes.const 0

/-- A scalar source operand, 64 bits (R161, R223). -/
def State.readS (s : State) (sp : BitVec 7) : DWord :=
  if isS sp then s.self.regs.sAt (sp.toNat - 0x40)
  else if sp = 0x7B then s.self.cur.pfx.acc
  else if sp = 0x7D then 0xFFFFFFFFFFFFFFFF
  else if sp = 0x7E then BitVec.ofNat 64 s.crew.key.crew
  else 0

/-- The s register of an FX, FE or FS field. -/
def State.sreg (s : State) (f : BitVec 5) : DWord := s.self.regs.sAt f.toNat

/-- The immediate of an FI instruction at width 32 or 64 (R167). -/
def State.imm (s : State) (i : BitVec 8) (width : Nat) : BitVec width :=
  let p := s.self.cur.pfx
  if p.himm then (p.acc.toNat * 256 + i.toNat : Nat) else i.signExtend width

/-! ### Writing -/

/-- A main-file row replaced. -/
def Regs.putRow (r : Regs) (n : Nat) (l : Lanes) : Regs := { r with v := r.v.set n l }
/-- An s register replaced. -/
def Regs.putS (r : Regs) (n : Nat) (v : DWord) : Regs := { r with s := r.s.setIfInBounds n v }
/-- An o register replaced. -/
def Regs.putO (r : Regs) (n : Nat) (l : Lanes) : Regs := { r with o := r.o.setIfInBounds n l }
/-- Predicate `pd` in the lanes of a mask; pd = 0 discards (R188). -/
def Regs.putP (r : Regs) (pd : BitVec 3) (m v : Mask) : Regs :=
  if pd = 0 then r
  else { r with p := r.p.setIfInBounds pd.toNat ((r.pred pd &&& ~~~m) ||| (v &&& m)) }

/-- An s register written. -/
def State.putS (s : State) (n : Nat) (v : DWord) : State := s.mapRegs fun r => r.putS n v
/-- The s register of a D field of FX, FE and FS words, where 0 discards (R256, R318). -/
def State.putD (s : State) (f : BitVec 5) (v : DWord) : State := if f = 0 then s else s.putS f.toNat v
/-- A predicate written (R188). -/
def State.putP (s : State) (pd : BitVec 3) (m v : Mask) : State := s.mapRegs fun r => r.putP pd m v

/-- A value enters l0 and the latches shift (R32). -/
def State.shiftLatch (s : State) (l : Lanes) : State :=
  s.mapSelf fun a => { a with run := a.run.map fun r =>
    { r with lat := #v[l, r.lat[0], r.lat[1], r.lat[2]] } }

/-- The old value of a destination that names a v, o or l register (R32). -/
def State.oldDest (s : State) (sp : BitVec 7) : Lanes :=
  if isV sp then s.self.regs.row (sp.toNat + s.self.regs.ix)
  else if isO sp then s.self.regs.oAt (sp.toNat - 0x60)
  else s.self.latch (sp.toNat - 0x70)

/-- One register of a destination written in the lanes of a mask, without the latches: a latch discards (R32). -/
def State.putReg (s : State) (sp : BitVec 7) (k : Nat) (m : Mask) (v : Lanes) : State :=
  if isV sp then
    s.mapRegs fun r => r.putRow (sp.toNat + r.ix + k) (Lanes.blend m v (r.row (sp.toNat + r.ix + k)))
  else if isO sp then
    s.mapRegs fun r => r.putO (sp.toNat - 0x60) (Lanes.blend m v (r.oAt (sp.toNat - 0x60)))
  else s

/-- Put(D, n, v) for the lanes of a mask (R181): a v, o or l destination; in a run the value enters l0 (R32). -/
def State.putV (s : State) (sp : BitVec 7) (m : Mask) (v : Lanes) : State :=
  let s1 := s.putReg sp 0 m v
  if s.self.inRun then s1.shiftLatch (Lanes.blend m v (s.oldDest sp)) else s1

/-! ### Queue operands (R121, R122, R163) -/

/-- The virtual address of lane `lane` of entry `k`, element size `z` (R121). -/
def QueueReg.addr (q : QueueReg) (k z lane : Nat) : Int := (q.base : Int) + k * q.stride + z * lane

/-- An access of a stream at a virtual address goes through its translation register (R121): the offset from BASE. -/
def State.streamLane (s : State) (sh : AccShape) (q : QueueReg) (va : Int) : State × LaneOut :=
  let t := s.self.regs.a.toArray.getD q.areg TransReg.invalid
  let v := (BitVec.ofInt 64 va).toNat
  if !t.valid then (s, .fail 1 .illegalOperand 0)
  else if t.outside (va - t.base) then (s, .fail 1 .xlate v)
  else s.laneVia sh t (va - t.base).toNat

/-- The element size of an entry: that of the page of lane 0 for .e, 4 for .b32 (R121). That page is translated for it as the entry
is accessed, whether lane 0 takes part or not (DESIGN CHOICE, log entry 76). -/
def State.entrySize (s : State) (q : QueueReg) (k : AccKind) (n : Nat) : State × Except LaneOut Nat :=
  if q.wide then (s, .ok 4)
  else
    let sh : AccShape := ⟨k, false, false, true, 1, srcStream, 0⟩
    let r := s.streamLane sh q (q.addr n 0 0)
    match r.2 with
    | .ok _ _ a => (r.1, .ok (elemSize a.fmt))
    | .fail 5 c v => (r.1, .error (.fail 5 c v))
    | .fail 8 c v => (r.1, .error (.fail 8 c v))
    | o => (r.1, .error o)

/-- The lanes of an entry of a stream with what each meets; a lane whose page has another element size is a FORMAT
case (R121). -/
def State.entryLanes (s : State) (q : QueueReg) (k : AccKind) (n z : Nat) (m : Mask) : State × List LaneAcc :=
  let sh : AccShape := ⟨k, k == .read, !q.wide, false, if q.wide then 4 else 1, srcStream, z⟩
  s.lanesBy (fun t lane =>
    let va := q.addr n z lane
    if q.wide ∧ va % 4 ≠ 0 then (t, .fail 2 .misaligned (BitVec.ofInt 64 va).toNat)
    else t.streamLane sh q va) (m.lanes.map fun l => (l.val, (BitVec.ofInt 64 (q.addr n z l.val)).toNat, l.val))

/-- A queue register replaced. -/
def Regs.putQ (r : Regs) (n : Nat) (q : QueueReg) : Regs := { r with q := r.q.setIfInBounds n q }
/-- A queue register. -/
def Regs.qAt (r : Regs) (n : Nat) : QueueReg := r.q.toArray.getD n QueueReg.none

/-- The address of lane 0 of entry `n`, as 64 bits. -/
def QueueReg.first (q : QueueReg) (n : Nat) : Nat := (BitVec.ofInt 64 (q.addr n 0 0)).toNat

/-- The addresses of the lanes of an entry whose element size is `z`, as 64 bits. -/
def QueueReg.places (q : QueueReg) (n z : Nat) (m : Mask) : List Nat :=
  m.lanes.map fun l => (BitVec.ofInt 64 (q.addr n z l.val)).toNat

/-- A page of entry `n` of a stream holds a queued store of the unit (R142); the element size is at most 4. -/
def State.entryQueued (s : State) (q : QueueReg) (n : Nat) : Bool :=
  s.self.queuedPage (q.places n (if q.wide then 4 else
    match (s.entrySize q .read n).2 with
    | .ok z => z
    | .error _ => 0) Mask.all)

/-- The elements of an entry read from memory, all 32 lanes; or what stops it. -/
def State.fetchEntry (s : State) (q : QueueReg) (n : Nat) : State × Except (List LaneAcc) (List Elem) :=
  match s.entrySize q .read n with
  | (s1, .error o) => (s1, .error [⟨0, q.first n, o⟩])
  | (s1, .ok z) =>
    let r := s1.entryLanes q .read n z Mask.all
    if r.2.all LaneAcc.isOk then
      (r.1, .ok (r.2.map fun a => match a.out with
        | .ok pa ca at_ =>
          if q.wide then ⟨0, 0, leNat (r.1.loadBytes ca 4), 0⟩ else r.1.elemAt a.va pa ca at_
        | _ => ⟨0, 0, 0, 0⟩))
    else (r.1, .error r.2)

/-- The end of a popped or pushed entry that could not be translated: a trap, or the unit parked (R121, R142). -/
def State.entryStop (s : State) (k : AccKind) (l : List LaneAcc) (w : Word) (m : Mask) : Exit :=
  match worst l with
  | some (1, .illegalOperand, _) => .trap s (Trap.at .illegalOperand (operandVal w 5) m)
  | some (_, c, v) => .trap s (Trap.at c (if c = .format ∨ c = .misaligned then 0 else v) m)
  | none => s.parkWhole k l srcStream

/-- Using a queue register as a source or destination breaks R122. -/
def Agent.queueMisuse (a : Agent) (q : QueueReg) (push : Bool) : Bool :=
  !q.attached || q.store != push || decide (q.count ≤ q.next) || !a.whole

/-- One entry popped from queue `n` (R122): its elements in all lanes and the flags of their decoding. It waits for a queued
store to its pages (R142). An entry fetched ahead is read again, so that the pop sees every store before it (R136); where that
fails, the pop gives what was fetched (DESIGN CHOICE, log entry 62). -/
def State.popQueue (s : State) (n : Nat) (w : Word) (m : Mask) : Except Exit (State × Lanes × (Nat → Flags)) :=
  let q := s.self.regs.qAt n
  if s.self.queueMisuse q false then .error (.trap s (Trap.at .queueMisuse 0 m))
  else if s.entryQueued q q.next then .error (.wait s .poll)
  else
    let take (s1 : State) (es : List Elem) (rest : List Fetched) : Except Exit (State × Lanes × (Nat → Flags)) :=
      let val (lane : Nat) : Word × Flags := ((es[lane]?.getD ⟨0, 0, 0, 0⟩).decode s.rm)
      .ok (s1.mapRegs fun r => r.putQ n { q with next := q.next + 1, ahead := rest },
        Lanes.tab fun lane => (val lane).1, fun lane => (val lane).2)
    match q.ahead with
    | .data es :: rest =>
      match s.fetchEntry q q.next with
      | (s1, .ok now) => take s1 now rest
      | _ => take s es rest
    | .denied va :: _ => .error (.trap s (Trap.at .xlate va m))
    | .format _ :: _ => .error (.trap s (Trap.at .format 0 m))
    | .phys pa :: _ => .error (.trap s (Trap.at .physErr pa m))
    | [] =>
      match s.fetchEntry q q.next with
      | (s1, .ok es) => take s1 es []
      | (s1, .error l) => .error (s1.entryStop .read l w m)

/-- The queues that source specifiers name, each once (R163). -/
def queuesOf (sps : List (BitVec 7)) : List Nat := ((sps.filter isQ).map fun sp => sp.toNat - 0x74).eraseDups

/-- Each named queue popped once (R163): the state with the pops made, the popped values, the flags by lane. -/
def State.popAll (w : Word) (m : Mask) : List Nat → State → Pops → (Nat → Flags) →
    Except Exit (State × Pops × (Nat → Flags))
  | [], s, ps, fl => .ok (s, ps, fl)
  | n :: ns, s, ps, fl =>
    match s.popQueue n w m with
    | .error e => .error e
    | .ok (s1, l, f) => State.popAll w m ns s1 ((n, l) :: ps) fun k => fl k ||| f k

/-- The queue registers put back as they were: an instruction that does not complete pops nothing (R182). -/
def State.restoreQueues (s : State) (old : State) : State := s.mapRegs fun r => { r with q := old.self.regs.q }

/-- An end that is no completion takes the pops back (R182). -/
def Exit.unpop (e : Exit) (old : State) : Exit :=
  match e with
  | .trap s t => .trap (s.restoreQueues old) t
  | .wait s w => .wait (s.restoreQueues old) w
  | x => x

/-- A queue has no element to give: nothing is fetched ahead, or a fault is. -/
def Agent.noData (a : Agent) (n : Nat) : Bool :=
  match (a.regs.qAt n).ahead with
  | .data _ :: _ => false
  | _ => true

/-- A held fault that a pop has reached is no longer held: the instruction takes it, and fetches the entry again when it
executes again (R121). -/
def Agent.dropFault (a : Agent) (n : Nat) : Agent :=
  let clear (r : Regs) : Regs := r.putQ n { r.qAt n with ahead := [] }
  { a with regs := clear a.regs, run := a.run.map fun r => { r with saved := clear r.saved } }

/-- The fault that an instruction's pops have reached, taken: the first queue without an element stops the pops. -/
def Exit.dropFaults (e : Exit) (ns : List Nat) : Exit :=
  match e with
  | .trap s t =>
    if t.cause = .queueMisuse then .trap s t
    else .trap (s.mapSelf fun a => ((ns.find? a.noData).map a.dropFault).getD a) t
  | x => x

/-- The sources popped and handed to the rest of an instruction (R163). -/
def State.withPops (s : State) (sps : List (BitVec 7)) (w : Word) (m : Mask)
    (k : State → Pops → (Nat → Flags) → Exit) : Exit :=
  match s.popAll w m (queuesOf sps) [] (fun _ => 0) with
  | .error e => (e.unpop s).dropFaults (queuesOf sps)
  | .ok (s1, ps, fl) => (k s1 ps fl).unpop s

/-- A pushed entry whose first page misses, in the replay queue with the lanes of `m`, or the unit parked where a store parks
(R142, R228, R343). -/
def State.pushMissed (s : State) (q : QueueReg) (x : Xl) (n : Nat) (w : Word) (m : Mask) (v : Lanes) : Exit :=
  let l : List LaneAcc := m.lanes.map fun i => ⟨i.val, q.first q.next, .miss x⟩
  let pushed (t : State) : Exit := .done (t.mapRegs fun g => g.putQ n { q with next := q.next + 1 })
  if m = 0 then pushed s
  else if s.self.inRun ∨ 16 ≤ s.self.replay.length then (s.parkWhole .write l srcStream).untilDrained
  else pushed (s.enqueueReplay w q.wide l (fun lane => leBytes 4 (v.at lane).toNat) srcStream unsized)

/-- One entry pushed onto queue `n` with the elements of the lanes of `m` (R122, R142): a store of the unit. -/
def State.pushQueue (s : State) (n : Nat) (w : Word) (m : Mask) (v : Lanes) : Exit :=
  let q := s.self.regs.qAt n
  if s.self.queueMisuse q true then .trap s (Trap.at .queueMisuse 0 m)
  else
    match s.entrySize q .write q.next with
    | (s1, .error (.miss x)) =>
      if s1.self.queuedPage (q.first q.next :: q.places q.next 4 m) then .wait s1 .poll else s1.pushMissed q x n w m v
    | (s1, .error o) => s1.entryStop .write [⟨0, q.first q.next, o⟩] w m
    | (s1, .ok z) =>
      if s1.self.queuedPage (q.places q.next z m) then .wait s1 .poll
      else
        let r := s1.entryLanes q .write q.next z m
        match worst r.2 with
        | some _ => r.1.entryStop .write r.2 w m
        | none =>
          if r.2.any LaneAcc.isMiss ∧ (r.1.self.inRun ∨ 16 ≤ r.1.self.replay.length) then
            (r.1.parkWhole .write r.2 srcStream).untilDrained
          else
            let enc (a : LaneAcc) (at_ : Attr) : Nat × Flags :=
              if q.wide then ((v.at a.lane).toNat, 0) else encodeElem at_.fmt s.rm s.sat (v.at a.lane)
            let bs := r.2.flatMap fun a => match a.out with
              | .ok _ ca at_ => storeBytes ca a.va (leBytes z (enc a at_).1)
              | _ => []
            let fl := r.2.foldl (fun f a => match a.out with
              | .ok _ _ at_ => f ||| (enc a at_).2
              | _ => f) 0
            let s2 := (r.1.store bs).raiseFlags fl
            let s3 := if r.2.any LaneAcc.isMiss then
                s2.enqueueReplay w q.wide r.2 (fun lane => leBytes 4 (v.at lane).toNat) srcStream
                  (if q.wide then 0 else z) else s2
            .done (s3.markLong.mapRegs fun g => g.putQ n { q with next := q.next + 1 })

/-- The result of an instruction written to D: a register, or an entry pushed onto the queue that D names (R181). -/
def State.writeDest (s : State) (d : BitVec 7) (w : Word) (m : Mask) (v : Lanes) : Exit :=
  if isQ d then s.pushQueue (d.toNat - 0x74) w m v else .done (s.putV d m v)

end Sys2Proof.Machine
end

