-- ==== Sys2Proof/Machine/VecFrame.lean ====
section
/-!
DEFINITION. The execution frame of the vector instructions (08 R181 to R183): decode checks, sources read once, an
operation over the participating lanes, the result written to a register or a predicate, flags set.
-/
namespace Sys2Proof.Machine

open Sys2Proof

/-- The second source: a specifier in field B, an immediate, or none. -/
inductive BSrc where
  | spec (sp : BitVec 7)
  | imm (i : BitVec 8)
  | none
  deriving DecidableEq, Repr

/-- The source specifiers of a list, for the queues among them. -/
def BSrc.specs : BSrc → List (BitVec 7)
  | .spec sp => [sp]
  | _ => []

/-- The operand check of field B. -/
def State.badB (s : State) : BSrc → Bool
  | .spec sp => s.badSource sp
  | _ => false

/-- The bounds check of field B. -/
def State.boundsB (s : State) (b : BSrc) (m : Mask) : Option Trap :=
  match b with
  | .spec sp => s.bounds sp 1 m
  | _ => none

/-- The value of the second source in all lanes. -/
def State.readB (s : State) (pops : Pops) : BSrc → Lanes
  | .spec sp => s.readV pops sp
  | .imm i => Lanes.const (s.imm i 32)
  | .none => Lanes.const 0

/-- Flags raised at a completed end only (R182). -/
def Exit.withFlags (e : Exit) (fl : Flags) : Exit :=
  match e with
  | .done s => .done (s.raiseFlags fl)
  | .moved s => .moved (s.raiseFlags fl)
  | x => x

/-- Checks, then the pops of the sources, then the rest of the instruction (R163, R178). -/
def State.frame (s : State) (w : Word) (m : Mask) (checks : List (Option Trap)) (srcs : List (BitVec 7))
    (k : State → Pops → Exit) : Step :=
  match firstTrap checks with
  | some t => .next (s.raise t)
  | none => (s.withPops srcs w m fun s1 ps fl => (k s1 ps).withFlags (orFlags m fl)).settle

/-- The rest of a uniform instruction, which executes or not as a whole (R165); the sources are popped in any case
(R163). -/
def State.uniformFrame (s : State) (w : Word) (g : BitVec 3) (checks : List (Option Trap)) (srcs : List (BitVec 7))
    (k : State → Pops → Exit) : Step :=
  s.frame w s.self.cur.lanes checks srcs fun s1 ps => if s.uniform g then k s1 ps else .done s1

/-- The result of an operation over the lanes: values and flags, or a trap. -/
abbrev LaneRes := Except Trap (Lanes × Flags)

/-- A vector instruction that writes D (R181). `op` gets the values of A, B and D in all lanes and the participating
lanes; `readsD` says that D is also a source (R182). Where several operands fail a check, D is named first, then A, then B (R162,
R179; DESIGN CHOICE, log entry 66). -/
def State.vec (s : State) (w : Word) (n : Needs) (extra : Bool) (m : Mask) (d a : BitVec 7) (b : BSrc) (readsD : Bool)
    (op : Lanes → Lanes → Lanes → LaneRes) : Step :=
  s.frame w m
    [s.issueCheck n extra w m, operandIf (s.badDest readsD d) w 0 m, operandIf (s.badSource a) w 1 m,
     operandIf (s.badB b) w 2 m, s.bounds d 1 m, s.bounds a 1 m, s.boundsB b m]
    (a :: b.specs)
    fun s1 ps =>
      match op (s.readV ps a) (s.readB ps b) (if readsD then s.oldDest d else Lanes.const 0) with
      | .error t => .trap s1 t
      | .ok r => (s1.writeDest d w m r.1).withFlags r.2

/-- A vector instruction that writes predicate `pd` in the participating lanes (R188). -/
def State.vecP (s : State) (w : Word) (n : Needs) (extra : Bool) (m : Mask) (pd : BitVec 3) (a : BitVec 7) (b : BSrc)
    (op : Lanes → Lanes → Mask × Flags) : Step :=
  s.frame w m
    [s.issueCheck n extra w m, operandIf (s.badSource a) w 1 m, operandIf (s.badB b) w 2 m, s.bounds a 1 m,
     s.boundsB b m]
    (a :: b.specs)
    fun s1 ps =>
      let r := op (s.readV ps a) (s.readB ps b)
      (Exit.done (s1.putP pd m r.1)).withFlags r.2

/-- An operation lane by lane that raises no flag. -/
def laneWise (f : Word → Word → Word → Word) (a b d : Lanes) : LaneRes :=
  .ok (Lanes.tab fun n => f (a.at n) (b.at n) (d.at n), 0)

/-- An operation lane by lane with flags, ORed over the participating lanes (R50). -/
def laneFlags (m : Mask) (f : Word → Word → Word → Word × Flags) (a b d : Lanes) : LaneRes :=
  .ok (Lanes.tab fun n => (f (a.at n) (b.at n) (d.at n)).1, orFlags m fun n => (f (a.at n) (b.at n) (d.at n)).2)

/-- A predicate lane by lane. -/
def lanePred (f : Word → Word → Bool) (a b : Lanes) : Mask × Flags := (Mask.ofTest fun n => f (a.at n) (b.at n), 0)

end Sys2Proof.Machine
end

