-- ==== Sys2Proof/Machine/Part.lean ====
section
/-!
DEFINITION. The part's units, crews and contexts by name, whether in front or not; scratchpad references (09 R242);
barriers (04 R124, 09 R250); the places that engine threads reach (17 R340, 09 R246).
-/
namespace Sys2Proof.Machine

open Sys2Proof

/-! ### Crews, contexts, units by name -/

/-- A crew of the part. Its unit in front, if it has one, is not in its list. -/
def State.crewAt (s : State) (k : CrewKey) : Option Crew :=
  if k = CrewKey.none then none
  else if s.crew.key = k then some s.crew else s.crews.find? fun c => c.key == k

/-- A crew changed, except for its units. -/
def State.mapCrewAt (s : State) (k : CrewKey) (f : Crew → Crew) : State :=
  if k = CrewKey.none then s
  else if s.crew.key = k then { s with crew := f s.crew }
  else { s with crews := s.crews.map fun c => if c.key = k then f c else c }

/-- The crew in front with all its units. -/
def State.frontCrew (s : State) : Crew := { s.crew with agents := s.self :: s.crew.agents }

/-- Every resident crew with all its units. -/
def State.allCrews (s : State) : List Crew :=
  if s.crew.key = CrewKey.none then s.crews else s.frontCrew :: s.crews

/-- A context of the part. -/
def State.ctxAt (s : State) (c : CtxId) : Option Context :=
  if c = CtxId.none then none
  else if s.ctx.id = c then some s.ctx else s.ctxs.find? fun x => x.id == c

/-- The context of a crew as the crew holds it (R308). -/
def State.crewCtx (s : State) (c : Crew) : Option Context :=
  (s.ctxAt c.key.ctx).map fun x => if s.crew.key = c.key then x else x.under c.held

/-- A context changed. -/
def State.mapCtxAt (s : State) (c : CtxId) (f : Context → Context) : State :=
  if c = CtxId.none then s
  else if s.ctx.id = c then { s with ctx := f s.ctx }
  else { s with ctxs := s.ctxs.map fun x => if x.id = c then f x else x }

/-- Every live context. -/
def State.allCtxs (s : State) : List Context := if s.ctx.id = CtxId.none then s.ctxs else s.ctx :: s.ctxs

/-- The units of a crew changed, in front or not. -/
def State.mapUnits (s : State) (f : CrewKey → Agent → Agent) : State :=
  { s with
    self := f s.crew.key s.self
    crew := { s.crew with agents := s.crew.agents.map (f s.crew.key) }
    crews := s.crews.map fun c => { c with agents := c.agents.map (f c.key) } }

/-- One unit changed. -/
def State.mapUnit (s : State) (u : AgentKey) (f : Agent → Agent) : State :=
  s.mapUnits fun k a => if k = u.crew ∧ a.unit = u.unit then f a else a

/-- A unit by name. -/
def State.unitAt (s : State) (u : AgentKey) : Option Agent :=
  if s.crew.key = u.crew ∧ s.self.unit = u.unit then some s.self
  else ((s.allCrews.find? fun c => c.key == u.crew).map fun c =>
    (c.agents.find? fun a => a.unit == u.unit)).getD none

/-- The fence counter of a unit and a part, at zero where none counts the pair (R398). -/
def State.fenceOf (s : State) (u : AgentKey) (part : Nat) : FenceCtr :=
  (s.fences.find? fun f => f.unit == u && f.part == part).getD ⟨u, part, 0, 0⟩

/-- Accesses in flight of a unit towards a part (R398). -/
def State.fenceCount (s : State) (u : AgentKey) (part : Nat) : Nat := (s.fenceOf u part).count

/-- A fence counter set; one at zero is free. -/
def State.setFence (s : State) (c : FenceCtr) : State :=
  let rest := s.fences.filter fun f => !(f.unit == c.unit && f.part == c.part)
  { s with fences := if c.count = 0 then rest else c :: rest }

/-- A counter counts the pair already, or one of the 1024 is free for it (R398). -/
def State.fenceRoom (s : State) (u : AgentKey) (part : Nat) : Bool :=
  s.fenceCount u part != 0 || decide (s.fences.length < 1024)

/-- One more access of a unit in flight towards a part, a RENQ entry or an ordered packet (R398). -/
def State.countFence (s : State) (u : AgentKey) (part : Nat) (entry : Bool) : State :=
  let c := s.fenceOf u part
  s.setFence { c with count := c.count + 1, entries := c.entries + entry.toNat }

/-- The split of a unit in a slot. -/
def Agent.pathAt (a : Agent) (slot : Nat) : Option Path :=
  (a.cur :: a.splits).find? fun p => p.slot == slot && p.mask != 0

/-- Every path of a unit changed. -/
def Agent.mapPaths (a : Agent) (f : Path → Path) : Agent :=
  { a with cur := f a.cur, splits := a.splits.map f, park := a.park.map f }

/-! ### Outcomes that come to a waiting instruction -/

/-- The instruction that a wait holds. -/
def Wait.insn : Wait → Option HeldInsn
  | .waitv h _ => some h
  | .twait h _ => some h
  | .idle h _ _ => some h
  | .redw h _ _ => some h
  | .renq h _ => some h
  | .slot h => some h
  | .probe h _ => some h
  | .bind h _ => some h
  | .mfence h _ => some h
  | .cbar h => some h
  | .sys h => some h
  | .result h _ _ => some h
  | _ => Option.none

/-- A path whose waiting instruction has its outcome: D gets `v` when the split next issues, which may be after the run of
another split of its unit (R30, R34). -/
def Path.outcome (d : BitVec 5) (v : DWord) (p : Path) : Path :=
  match p.wait.insn with
  | none => p
  | some h => { p with wait := .result h d v }

/-- A path past the instruction that it holds, which has no result. -/
def Path.pass (p : Path) (h : HeldInsn) : Path :=
  { p with pc := h.addr + 4, pfx := Pfx.empty, only := none, wait := .none, failed := [] }

/-- The outcome of the instruction in which the paths of a unit that `sel` selects wait. -/
def State.giveResult (s : State) (u : AgentKey) (sel : Path → Bool) (d : BitVec 5) (v : DWord) : State :=
  s.mapUnit u fun a => a.mapPaths fun p => if sel p then p.outcome d v else p

/-! ### Scratchpads of a crew, as engines see them -/

/-- A byte of a scratchpad. -/
def Crew.scr (c : Crew) (g off : Nat) : Byte := ((c.gangs[g]?).map fun x => x.mem.read off).getD 0
/-- Bytes of a scratchpad. -/
def Crew.scrBytes (c : Crew) (g off n : Nat) : List Byte := (List.range n).map fun k => c.scr g (off + k)
/-- A number in a scratchpad. -/
def Crew.scrNum (c : Crew) (g off n : Nat) : Nat := leNat (c.scrBytes g off n)
/-- Bytes written in a scratchpad. -/
def Crew.putScr (c : Crew) (g : Nat) (l : List (Nat × Byte)) : Crew := c.mapGang g fun x => x.putBytes l
/-- A number written in a scratchpad. -/
def Crew.putNum (c : Crew) (g off n v : Nat) : Crew := c.putScr g (placed off (leBytes n v))

/-! ### Scratchpad references (R242) -/

/-- The reference that a 64-bit value spells, for a unit of a crew: none where R242 refuses it. -/
def Crew.refOf (c : Crew) (u : UnitKey) (v : Nat) : Option ScrRef :=
  if 2 ^ 35 ≤ v then none
  else
    let sel := v / 2 ^ 34 % 2
    let g := if sel = 1 then v / 2 ^ 32 % 4 else u.gang
    if sel = 0 ∧ u.gaffer then none
    else if c.gangs[g]?.isNone then none
    else some ⟨g, v % 2 ^ 32⟩

/-- The size of the scratchpad that a reference names. -/
def Crew.sizeOf (c : Crew) (r : ScrRef) : Nat := ((c.gangs[r.gang]?).map (·.size)).getD 0

/-- A reference whose form R242 refuses: ILLEGAL_OPERAND, which comes before every check of a place (R178; log entry 48). -/
def State.refForm (s : State) (v : DWord) (w : Word) (field : Nat) : Option Trap :=
  operandIf (s.crew.refOf s.self.unit v.toNat).isNone w field s.self.cur.lanes

/-- The reference in an operand, checked (R242, R249): its form, its offset, its alignment, and for one that is read the
poison of its sector (R380). -/
def State.ref (s : State) (v : DWord) (w : Word) (field align : Nat) (reads : Bool) : Except Trap ScrRef :=
  let m := s.self.cur.lanes
  match s.crew.refOf s.self.unit v.toNat with
  | none => .error (Trap.at .illegalOperand (operandVal w field) m)
  | some r =>
    if s.crew.sizeOf r ≤ r.off then .error (Trap.at .xlate r.off m)
    else if r.off % align ≠ 0 then .error (Trap.at .misaligned 0 m)
    else if reads ∧ ((s.crew.gangs[r.gang]?).map fun x => x.pois.contains (r.off / 256)).getD false then
      .error (Trap.at .eccUe r.off m)
    else .ok r

/-- An FX, FE or FS instruction: its decode checks, then its rest; it executes once for the issuing split, and not at
all when no lane of it is to execute (R165, R218). -/
def State.fx (s : State) (w : Word) (n : Needs) (checks : List (Option Trap)) (k : State → Exit) : Step :=
  let m := s.self.cur.lanes
  s.frame w m (s.issueCheck n false w m :: checks) [] fun s1 _ => if m = 0 then .done s1 else k s1

/-- What follows a checked reference. -/
def Exit.withRef (s : State) (r : Except Trap ScrRef) (k : ScrRef → Exit) : Exit :=
  match r with
  | .error t => .trap s t
  | .ok x => k x

/-- A trap of the issuing split with a value. -/
def State.stop (s : State) (c : Cause) (v : Nat) : Exit := .trap s (Trap.at c v s.self.cur.lanes)

/-- A release of the unit waits until its replay queue is empty (R142). -/
def State.release (s : State) (k : State → Exit) : Exit := if s.self.replay.isEmpty then k s else .wait s .poll

/-- The unit whose access waits at the hub; none for a packet of a context that has gone. -/
def HubItem.unit : HubItem → Option AgentKey
  | .packet p => p.agent
  | .entry u _ => some u

/-- The part that a waiting access goes to. -/
def HubItem.dest : HubItem → Nat
  | .packet p => p.dest
  | .entry _ e => e.dest

/-- Something of a unit waits at the hub to be accepted (R398). -/
def Hub.waitsFor (h : Hub) (u : AgentKey) : Bool := h.waiting.any fun i => i.unit == some u

/-- Accesses of a unit towards other parts that the hub has not accepted (R144, R398). -/
def State.unaccepted (s : State) (u : AgentKey) : Bool :=
  (s.work.any fun w => w.unit == u && w.dests.any fun d => d != s.pod.part) ||
  (s.dies.toList.any fun d => d.unpassed.any fun p => p.agent == some u && p.dest != s.pod.part) ||
  s.hub.waiting.any fun i => i.unit == some u && i.dest != s.pod.part

/-- A fence marker of a unit entered at the hub for each destination with a non-zero counter (R398). -/
def State.enterMarkersOf (s : State) (u : AgentKey) : State :=
  let ms := (s.fences.filter fun f => f.unit == u).map fun f => (f.unit, f.part)
  { s with hub := { s.hub with markers := s.hub.markers ++ ms.filter fun m => !s.hub.markers.contains m } }

/-- The fence markers of the unit in front (R398). -/
def State.enterMarkers (s : State) : State := s.enterMarkersOf s.selfKey

/-- A release of the unit at a scope: its replay queue is empty, and at FABRIC or POD scope the hub has accepted its earlier
accesses to other parts and has entered its fence markers (R142, R144, R398). What it covers shows at the scope (R145). -/
def State.releaseAt (s : State) (scope : Nat) (k : State → Exit) : Exit :=
  s.release fun t =>
    if scope < 8 then k (t.publish scope)
    else if t.unaccepted t.selfKey then .wait t .poll
    else k (t.publish scope).enterMarkers

/-! ### Barriers (R124, R250) -/

/-- A barrier object's fields. -/
structure Bar where
  pend : Int
  exp : Nat
  rem : Nat
  phase : Nat
  poison : Bool
  deriving DecidableEq, Repr

/-- The barrier at a reference. -/
def Crew.bar (c : Crew) (r : ScrRef) : Bar where
  pend := signedOf 64 (c.scrNum r.gang r.off 8)
  exp := c.scrNum r.gang (r.off + 8) 2
  rem := c.scrNum r.gang (r.off + 10) 2
  phase := c.scrNum r.gang (r.off + 12) 4
  poison := c.scr r.gang (r.off + 16) != 0

/-- The bytes of a barrier's fields. -/
def Bar.bytes (b : Bar) : List Byte :=
  leBytes 8 (BitVec.ofInt 64 b.pend).toNat ++ leBytes 2 b.exp ++ leBytes 2 b.rem ++ leBytes 4 b.phase ++
  leBytes 1 b.poison.toNat

/-- The barrier at a reference written. -/
def Crew.putBar (c : Crew) (r : ScrRef) (b : Bar) : Crew := c.putScr r.gang (placed r.off b.bytes)

/-- The barrier is complete: the phase advances at this update (R124). -/
def Bar.full (b : Bar) : Bool := !b.poison && b.pend == 0 && b.rem == 0

/-- The barrier after an update: a complete phase advances (R124). -/
def Bar.settle (b : Bar) : Bar := if b.full then { b with phase := (b.phase + 1) % 2 ^ 32, rem := b.exp } else b

/-- A unit's count of retired instructions restarts when its gang's barrier completes a phase (R22, R359). -/
def State.closeCount (s : State) (k : CrewKey) (gang : Option Nat) : State :=
  s.mapUnits fun q a =>
    if q == k && !a.unit.gaffer && (gang.isNone || gang == some a.unit.gang) then { a with retired := 0 } else a

/-- One update of a barrier (R250). -/
def State.updateBar (s : State) (k : CrewKey) (r : ScrRef) (f : Bar → Bar) : State :=
  match s.crewAt k with
  | none => s
  | some c =>
    let b := f (c.bar r)
    let s1 := s.mapCrewAt k fun x => x.putBar r b.settle
    if b.full then s1.closeCount k (some r.gang) else s1

/-- A barrier poisoned (R127). -/
def State.poisonBar (s : State) (k : CrewKey) (r : ScrRef) : State :=
  s.mapCrewAt k fun c => c.putScr r.gang [(r.off + 16, 1)]

/-- An arrival on a barrier: nothing on a poisoned one; one that finds REM = 0 poisons it (R250). -/
def State.arrive (s : State) (k : CrewKey) (r : ScrRef) : State :=
  match s.crewAt k with
  | none => s
  | some c =>
    let b := c.bar r
    if b.poison then s
    else if b.rem = 0 then s.poisonBar k r
    else s.updateBar k r fun x => { x with rem := x.rem - 1 }

/-- Bytes counted on a barrier, poisoned or not; a poisoned one never completes (R125, R250). -/
def State.countBytes (s : State) (k : CrewKey) (r : ScrRef) (n : Nat) : State :=
  match s.crewAt k with
  | none => s
  | some _ => s.updateBar k r fun x => { x with pend := x.pend - n }

/-- The barrier has advanced past a phase (R251). -/
def Bar.past (b : Bar) (phase : Nat) : Bool :=
  let d := (b.phase + 2 ^ 32 - phase % 2 ^ 32) % 2 ^ 32
  decide (1 ≤ d) && decide (d ≤ 2 ^ 31 - 1)

/-! ### Places that engine threads reach -/

/-- What an engine thread meets at a virtual address (R246, R340). -/
inductive EngOut where
  | ok (pa ca : Nat) (a : Attr)
  | miss (x : Xl)
  | fail
  deriving DecidableEq, Repr

/-- The record of a copy's FORMAT condition (R246). -/
def State.reportFormat (s : State) (die : Nat) (c : CtxId) (va src : Nat) : State :=
  if src = srcCopy then s.report die c va Config.formatKind.val src else s

/-- An engine thread's access to a virtual address: a fault record in every failing case but an address beyond 56 bits
(R81, R246, R340). The KIND of a copy's FORMAT condition is a free value (log entry 52); R345 gives a Marver's none. -/
def State.engAt (s : State) (die : Nat) (c : Context) (k : AccKind) (src : Nat) (va : Int) : State × EngOut :=
  if va < 0 ∨ (2 ^ 56 : Int) ≤ va then (s, .fail)
  else
    let v := va.toNat
    let r := s.translate c k v
    match r.2 with
    | .denied => (r.1.report die c.id v 4 src, .fail)
    | .malformed => (r.1.report die c.id v 5 src, .fail)
    | .absent => (r.1, .miss .absent)
    | .migrating => (r.1, .miss .migrating)
    | .ok pa a =>
      if !formatOk a.fmt a.geom then (r.1.reportFormat die c.id v src, .fail)
      else
        match canonical pa with
        | none => (r.1.report die c.id v 6 src, .fail)
        | some ca => if k == .read && r.1.poisonedAt ca then (r.1, .fail) else (r.1, .ok pa ca a)

/-- The end of an engine thread's access: the canonical address of every byte, a miss with its keys, or a failure. -/
inductive EngSpan where
  | ok (cas : List (Nat × Nat × Attr))
  | wait (ks : List MergeKey)
  | fail
  deriving DecidableEq, Repr

/-- The canonical addresses of `n` bytes at a translated place, with their virtual addresses and attributes; none where
one is not populated. -/
def placeBytes (pa va n : Nat) (a : Attr) : Option (List (Nat × Nat × Attr)) :=
  (List.range n).mapM fun k => (canonical (pa + k)).map fun ca => (ca, va + k, a)

/-- The bytes from a virtual address translated page by page: canonical address, virtual address and attributes of each;
the first page that misses or fails decides. `fuel` bounds the number of 64 KiB pages. -/
def State.engSpan (die : Nat) (c : Context) (k : AccKind) (src : Nat) : Nat → Int → Nat → State → State × EngSpan
  | 0, _, _, s => (s, .ok [])
  | fuel + 1, va, n, s =>
    if n = 0 then (s, .ok [])
    else
      match s.engAt die c k src va with
      | (s1, .miss x) =>
        let j := s1.joinMerge die c.id va.toNat k (missKind k x) src
        (j.1, .wait j.2)
      | (s1, .fail) => (s1, .fail)
      | (s1, .ok pa _ a) =>
        let v := va.toNat
        let m := min n (65536 - v % 65536)
        match placeBytes pa v m a with
        | none => (s1.report die c.id v 6 src, .fail)
        | some l =>
          if k == .read && l.any fun b => s1.poisonedAt b.1 then (s1, .fail)
          else
            match State.engSpan die c k src fuel (va + m) (n - m) s1 with
            | (s2, .ok rest) => (s2, .ok (l ++ rest))
            | r => r

/-- The bytes of a span as memory holds them. -/
def State.spanBytes (s : State) (l : List (Nat × Nat × Attr)) : List Byte := l.map fun b => s.byteAt b.1

/-- Bytes written over a span by a writer. -/
def State.putSpan (s : State) (w : Writer) (l : List (Nat × Nat × Attr)) (bs : List Byte) : State :=
  s.putAll w (l.zipWith (fun b v => (b.1, v)) bs)

end Sys2Proof.Machine
end

