-- ==== Sys2Proof/Machine/Launch.lean ====
section
/-!
DEFINITION. Accesses that the part makes in a context's address space for the host, and the end of a launch: the count of
its retired crews and its completion record (18 R358, R364).
-/
namespace Sys2Proof.Machine

open Sys2Proof

/-! ### Virtual ranges -/

/-- The canonical bytes of a virtual range, page by page; none where a page cannot be translated or is denied. -/
def State.virtSpan (c : Context) (k : AccKind) : Nat → Nat → Nat → State → State × Option (List (Nat × Nat × Attr))
  | 0, _, _, s => (s, some [])
  | fuel + 1, va, n, s =>
    if n = 0 then (s, some [])
    else if 2 ^ 56 ≤ va then (s, none)
    else
      match s.translate c k va with
      | (s1, .ok pa a) =>
        let m := min n (65536 - va % 65536)
        match placeBytes pa va m a with
        | none => (s1, none)
        | some l =>
          match State.virtSpan c k fuel (va + m) (n - m) s1 with
          | (s2, some rest) => (s2, some (l ++ rest))
          | (s2, none) => (s2, none)
      | (s1, _) => (s1, none)

/-- Bytes written in a context's address space and released at PACKAGE scope or wider; false, with nothing written, where
they cannot be. -/
def State.virtWrite (s : State) (c : Context) (va : Nat) (bs : List Byte) : State × Bool :=
  match State.virtSpan c .write (bs.length / 65536 + 2) va bs.length s with
  | (s1, some l) => ((s1.putSpan s1.writer l bs).expose 6 fun u => l.any fun b => b.1 == u.ca, true)
  | (s1, none) => (s1, false)

/-- Bytes read in a context's address space; none where they cannot be, or lie in a poisoned sector (R380). -/
def State.virtRead (s : State) (c : Context) (va n : Nat) : State × Option (List Byte) :=
  match State.virtSpan c .read (n / 65536 + 2) va n s with
  | (s1, some l) => if l.any fun b => s1.poisonedAt b.1 then (s1, none) else (s1, some (s1.spanBytes l))
  | (s1, none) => (s1, none)

/-- Bytes that a host reads in a context's address space, sector by sector as R145 allows. -/
def State.hostRead (s : State) (c : Context) (va n : Nat) : State × Option (List Byte) :=
  match State.virtSpan c .read (n / 65536 + 2) va n s with
  | (s1, some l) =>
    let d := s1.draw
    if l.any fun b => s1.poisonedAt b.1 then (s1, none) else (d.2, some (l.map fun b => s1.hostByte d.1 b.1))
  | (s1, none) => (s1, none)

/-! ### Launches -/

/-- A live launch of a context. -/
def Context.launch (c : Context) (num : Nat) : Option Launch := c.launches.find? fun l => l.num == num

/-- A launch of a context changed. -/
def State.mapLaunch (s : State) (c : CtxId) (num : Nat) (f : Launch → Launch) : State :=
  s.mapCtxAt c fun x => { x with launches := x.launches.map fun l => if l.num = num then f l else l }

/-- The sheets of a launch whose crews have all retired (R18, R358); a refused launch without crews has completed none (R353). -/
def Launch.sheetsDone (l : Launch) : Nat :=
  if l.crews = 0 then 0
  else ((List.range l.sheets).filter fun i => (l.retired.filter fun r => r.1 == i).length == l.crews).length

/-- The completion record (R364); `noRecord` is bit 0 of offset 9. -/
def completionRecord (num ctx status sheets time traced : Nat) (noRecord : Bool) : List Byte :=
  leBytes 4 num ++ leBytes 4 ctx ++ leBytes 1 status ++ leBytes 1 noRecord.toNat ++ leBytes 2 0 ++ leBytes 4 sheets ++
  leBytes 8 time ++ leBytes 4 traced ++ leBytes 4 0

/-- A completion: the record written at COMPL, then the message to the endpoint that received the launch; the message
alone where the record cannot be written (R364). -/
def State.complete (s : State) (c : Context) (l : Launch) (status : Nat) : State :=
  let rec_ (no : Bool) : List Byte :=
    completionRecord l.num c.id.word.toNat status l.sheetsDone (s.dieAt l.die).ptime l.traced no
  let w := s.virtWrite c l.compl (rec_ false)
  { w.1 with outbox := w.1.outbox ++ [.completion l.die (rec_ !w.2)] }

/-- A crew of a launch counts as retired for its sheet; the launch completes with its last sheet (R41, R358, R364). -/
def State.countRetired (s : State) (c : CtxId) (num sheet crew : Nat) : State :=
  let s1 := s.mapLaunch c num fun l =>
    if l.retired.contains (sheet, crew) then l else { l with retired := (sheet, crew) :: l.retired }
  match s1.ctxAt c with
  | none => s1
  | some x =>
    match x.launch num with
    | none => s1
    | some l =>
      if l.retired.length < l.sheets * l.crews then s1
      else (s1.complete x l 0).mapCtxAt c fun y => { y with launches := y.launches.filter fun k => k.num != num }

end Sys2Proof.Machine
end

