-- ==== Sys2Proof/Machine/Boot.lean ====
section
/-!
DEFINITION. Bring-up (23 R411 to R415): power-up, the staging of a bundle and its verification, power loss; and the answer
to a command (21 R401, 23 R413).
-/
namespace Sys2Proof.Machine

open Sys2Proof

/-! ### Answers (R401, R413) -/

/-- BOOTSTAT (R413). -/
def Boot.stat (b : Boot) : Nat := b.detail % 256 * 256 + b.fail.toNat * 128 + b.step % 16

/-- The answer to a command: what it left, a status, ADDR[63:8], and the body. -/
structure Answer where
  state : State
  status : Nat
  extra : Nat
  body : List Byte
  deriving DecidableEq, Repr

/-- A body filled up to a whole number of 8 bytes, as LEN asks (R401). -/
def padBody (bs : List Byte) : List Byte := bs ++ List.replicate ((8 - bs.length % 8) % 8) 0

/-- The header of a message that the part sends, before its body (R401). -/
def headed (opc seq ctx addr : Nat) (body : List Byte) : List Byte :=
  leBytes 2 opc ++ leBytes 2 (32 + body.length) ++ leBytes 4 seq ++ leBytes 4 ctx ++ leBytes 4 0 ++ leBytes 8 addr ++
  leBytes 8 0 ++ body

/-- A message to the host as bytes: RESP, COMPLETION, KILL and EVENT with their headers (R364, R369, R401); nothing for
what goes elsewhere. SEQ is a command's, so only RESP has one; an EVENT is the part's own (DESIGN CHOICE, log entry 74). -/
def Msg.bytes : Msg → List Byte
  | .resp _ seq ctx status extra body => headed 0x80 seq ctx (status % 256 + extra * 256) (padBody body)
  | .completion _ record => headed 0x81 0 (fieldAt record 4 4) 0 (padBody record)
  | .kill report => headed 0x82 0 (fieldAt report 0 4) 0 (padBody report)
  | .event _ code value => headed 0x83 0 0 0 (padBody (leBytes 4 code ++ leBytes 8 value))
  | _ => []

/-- The RESP message sent: BOOTSTAT stands in ADDR[39:8] while STEP is below 7 (R413). -/
def Answer.send (a : Answer) (c : Cmd) : State :=
  let extra := if a.state.boot.step = 7 then a.extra else a.state.boot.stat
  a.state.send (.resp c.die c.seq c.ctxWord a.status extra (padBody a.body))

/-- An answer with a status alone. -/
def State.status (s : State) (n : Nat) : Answer := ⟨s, n, 0, []⟩

/-- A command arrives at the endpoint of an I/O die, once the management port is up (R400, R411). -/
def State.reachable (s : State) (c : Cmd) : Bool :=
  (c.die == 8 || c.die == 9) && (decide (3 ≤ s.boot.step) || s.boot.fail)

/-! ### Bundles (R411, R412) -/

/-- The bytes of the staging buffer: 256 MiB (R411). -/
def stagingBytes : Nat := 2 ^ 28

/-- Bytes of the staging buffer; those that nothing wrote read as 0. -/
def Boot.bytes (b : Boot) (a n : Nat) : List Byte := (List.range n).map fun k => (b.staging.read (a + k)).getD 0

/-- LEN of the bundle's header (R412). -/
def Boot.len (b : Boot) : Nat := leNat (b.bytes 0 4)

/-- The first `n` bytes of the staging buffer have been written. -/
def Boot.covers (b : Boot) (n : Nat) : Bool := (b.staging.filter fun e => decide (e.1 < n)).length == n

/-- The step 4 check that fails first (R412, R413); 0 for a bundle that verifies. -/
def Boot.verify (b : Boot) : Nat :=
  let head := b.bytes 0 0xD1
  let ekey := b.bytes 0x38 97
  let lkey := b.bytes 0x99 56
  if Config.sha384 ekey ≠ Config.romKeyHash1 then 1
  else if Config.sha384 lkey ≠ Config.romKeyHash2 then 2
  else if !Config.ecdsaVerify ekey head (b.bytes 0xD1 96) then 3
  else if !Config.lmsVerify lkey head (b.bytes 0x131 1772) then 4
  else if leBytes 48 (Config.sha384 (b.bytes 0x81D (b.len - 0x81D))).toNat ≠ b.bytes 8 48 then 5
  else if leNat (b.bytes 4 4) < b.mramSvn then 6
  else 0

/-- Steps 4 and 5 once the bundle is there (R411, R412): the part is held at step 4 with the buffer cleared, or the
counter is raised, FEATOFF set and the firmware started. -/
def Boot.finish (b : Boot) (bad : Nat) : Boot :=
  if bad ≠ 0 then { b with step := 4, fail := true, detail := bad, staging := [] }
  else
    let svn := leNat (b.bytes 4 4)
    { b with
      step := 6
      detail := 0
      staging := []
      svn := svn
      phash := BitVec.ofNat 384 (leNat (b.bytes 8 48))
      featoff := Config.featOffered
      mramSvn := max b.mramSvn svn }

/-- Step 4 starts when the bytes written cover LEN; a LEN above 256 MiB fails it at once (R411, R413). -/
def Boot.next (b : Boot) : Boot :=
  if !b.covers 4 then b
  else if stagingBytes < b.len then b.finish 7
  else if b.covers (max 4 b.len) then b.finish b.verify
  else b

/-- Bytes written in the staging buffer. -/
def Boot.write (b : Boot) (a : Nat) (bs : List Byte) : Boot :=
  { b with staging := (placed a bs).foldl (fun (o : Overlay) x => o.write x.1 x.2) b.staging }

/-- What step 5 applies to the part: partition 0 takes in every socket, and the cores that the self-test record or the
identity record rules out stay out of use (R309, R411, R414). -/
def State.configure (s : State) (b : Boot) : State :=
  if b.step = 6 then
    { s with
      boot := b
      partmap := s.partmap.set 0 0x1FF#32
      fenced := Config.disabledCores b.selfTest Config.clusterMap }
  else { s with boot := b }

/-- A WRITE at step 3 (R411): ADDR is an offset in the staging buffer. -/
def State.stage (s : State) (c : Cmd) : Answer :=
  if c.ctxWord ≠ 0 then s.status 5
  else if !c.lenOk then s.status 2
  else if !c.headOk ∨ stagingBytes < c.addr + c.body.length then s.status 6
  else (s.configure (s.boot.write c.addr c.body).next).status 0

/-- The boot ROM takes WRITE commands (R411 step 3). -/
def Boot.staging_ (b : Boot) : Bool := b.step == 3 && !b.fail

/-! ### The events -/

/-- POWER_UP: steps 1 and 2; a step that fails holds the part there (R411, R413). -/
def execPowerUp (p : PowerUp) (s : State) : Step :=
  if s.boot.step ≠ 1 ∨ s.boot.fail then s.absent
  else
    let b := { s.boot with selfTest := p.selfTest }
    let b1 : Boot :=
      if p.failed % 256 ≠ 0 then { b with fail := true, detail := p.failed % 256 }
      else if !p.link then { b with step := 2, fail := true }
      else { b with step := 3 }
    .next { s with boot := b1 }

/-- BOOT_WRITE: a WRITE to the staging buffer before the firmware runs (R411). -/
def execBootWrite (c : Cmd) (s : State) : Step :=
  if !s.reachable c ∨ !s.boot.staging_ ∨ c.opc ≠ 1 then s.absent
  else .next ((s.stage c).send c)

/-- POWER_LOSS: all state but MRAM is lost (R415). The part's next bytes on its links, and the model's counters, are not
state of the part. -/
def execPowerLoss (s : State) : Step :=
  .next { State.reset with
    boot := { State.reset.boot with mramSvn := s.boot.mramSvn, mramLeaf := s.boot.mramLeaf }
    tick := s.tick
    free := s.free
    inputs := s.inputs
    outbox := s.outbox }

end Sys2Proof.Machine
end

