-- ==== Sys2Proof/Machine/Control.lean ====
section
/-!
DEFINITION. Control transfer (01 R23, R27, R29; 09 R212 to R215), yield, traps, features and no-op (09 R216 to R220),
hint words and reserved words (07 R166 to R174).
-/
namespace Sys2Proof.Machine

open Sys2Proof

/-! ### Where lanes go -/

/-- Where a lane goes: to a PC with a return stack, out (it retires), or to a stop at the instruction. `target` keeps
the paths of distinct targets apart. -/
inductive Goal where
  | go (pc : DWord) (stack : List DWord)
  | retire
  | trap (c : Cause) (v : Nat) (target : Nat)
  | hold (w : Wait) (target : Nat)
  deriving DecidableEq, Repr

/-- A group instruction or a Gaffer's, for both issuers. -/
abbrev bothNeeds : Needs := { issuer := .both }
/-- A control transfer: both issuers, last in a run body only (R31). -/
abbrev ctlNeeds : Needs := { issuer := .both, run := .last }

/-- The address of the next word in program order: in a run, for its last body word, the word after the TRL (R215). -/
def State.fallthrough (s : State) : DWord :=
  match s.self.run with
  | none => s.self.cur.pc + 4
  | some r => r.pc + BitVec.ofNat 64 (4 * (r.n + 2))

/-- The destination of a set of lanes. -/
def Goal.dest (m : Mask) (again : Bool) (parent : Path) : Goal → Option Dest
  | .go pc st => some ⟨m, pc, st, none, again⟩
  | .retire => none
  | .trap c v _ => some ⟨m, parent.pc, parent.stack, some (.trap (Trap.at c v m)), again⟩
  | .hold w _ => some ⟨m, parent.pc, parent.stack, some w, again⟩

/-- The first stop among destinations of a run's transfer: a trap or a wait ends the run (R215). -/
def firstStop (ds : List Dest) : Option Wait := (ds.filterMap (·.stop)).head?

/-- The issuing path divided over its destinations; a trap of the path that keeps the slot is taken at once (R23). -/
def State.divide (s : State) (ds : List Dest) : State :=
  let s1 := s.mapSelf fun a => (a.divide s.tick ds).retire1
  match s1.self.cur.wait with
  | .trap t => (s1.mapCur fun p => { p with wait := .none }).raise t
  | _ => s1

/-- The goal of a lane that does not take the transfer: the next word, the stack as it is (R212). -/
def State.stay (s : State) : Goal := .go s.fallthrough s.self.cur.stack

/-- The lanes of the issuing path sent to their goals: at once outside a run, after the trailer in one (R23, R215). `again`
says that a target without a slot is parked at the instruction (R29); the path that does not take the transfer never is. -/
def State.transfer (s : State) (goal : Nat → Goal) (again : Bool) : Exit :=
  let cur := s.self.cur
  let ds : List Dest := (groupLanes goal cur.mask).filterMap fun g => g.2.dest g.1 (again && g.2 != s.stay) cur
  match s.self.run with
  | none =>
    match ds with
    | [d] =>
      match d.stop with
      | some (.trap t) => .trap s t
      | some w => .wait s w
      | none => .moved (s.divide ds)
    | _ => .moved (s.divide ds)
  | some r =>
    match firstStop ds with
    | some (.trap t) => .trap s t
    | some (.fetch ks) => .wait s (Wait.onKeys ks)
    | some .poll => .wait s (.stuck [])
    | some w => .wait s w
    | none => .done (s.mapSelf fun a => { a with run := some { r with
        xfer := some ⟨ds.map fun d => (d.mask, d.pc, d.stack),
          Mask.ofTest fun n => cur.mask.has n && decide (goal n = .retire)⟩ } })

/-- The goal of a call to `pc`: CALL_DEPTH at a ninth entry (R27). -/
def State.callGoal (s : State) (pc : DWord) : Goal :=
  if 8 ≤ s.self.cur.stack.length then .trap .callDepth 0 pc.toNat
  else .go pc (s.fallthrough :: s.self.cur.stack)

/-- The target of BR and CALL: PC + 4 * SignExtend(OFF) (R159). -/
def State.relTarget (s : State) (o : BitVec 22) : DWord := s.self.cur.pc + 4 * o.signExtend 64

/-- The target of CALLI and JMPI in a lane: the region of the PC, the low 32 bits of the value (R212). -/
def State.absTarget (s : State) (v : Word) : DWord := (s.self.cur.pc &&& 0xFFFFFF00000000) ||| v.setWidth 64

/-- A direct control transfer with its goal for taken lanes. -/
def State.direct (s : State) (w : Word) (g : BitVec 3) (goal : State → Goal) : Step :=
  s.frame w (s.part g) [s.issueCheck ctlNeeds false w (s.part g)] [] fun s1 _ =>
    s1.transfer (fun n => if (s.part g).has n then goal s1 else s1.stay) false

/-- BR (R212). -/
def execBr (g : BitVec 3) (o : BitVec 22) (s : State) : Step :=
  s.direct (encode (.br g o)) g fun t => .go (t.relTarget o) t.self.cur.stack
/-- CALL: the return address is pushed (R27, R212). -/
def execCall (g : BitVec 3) (o : BitVec 22) (s : State) : Step :=
  s.direct (encode (.call g o)) g fun t => t.callGoal (t.relTarget o)
/-- RET: to the top of the return stack, or out when it is empty (R27, R212). -/
def execRet (g : BitVec 3) (s : State) : Step :=
  s.direct (encode (.ret g)) g fun t =>
    match t.self.cur.stack with
    | [] => .retire
    | pc :: rest => .go pc rest
/-- EXIT: the taken lanes retire (R18, R212). -/
def execExit (g : BitVec 3) (s : State) : Step :=
  s.direct (encode (.exit g)) g fun _ => .retire

/-- The goal of JMPI to a target (R213). -/
def State.jumpGoal (s : State) (pc : DWord) : Goal :=
  if pc.toNat % 4 ≠ 0 then .trap .misaligned 0 pc.toNat else .go pc s.self.cur.stack

/-- The HFUNC budget that a word declares, in registers; none where it is no well-formed HFUNC (R172). -/
def hfuncBudget (w : Word) : Option Nat :=
  match decode w with
  | .ok (.hfunc b) => some (8 * (b.toNat + 1))
  | _ => none

/-- The goal of CALLI to a target, its HFUNC word read as an instruction fetch (R29, R172, R213). An XLATE of that fetch names the
target, whatever its cause (DEDUCED, log entry 67). -/
def State.calliGoal (s : State) (m : Mask) (pc : DWord) : State × Goal :=
  let t := pc.toNat
  if t % 4 ≠ 0 then (s, .trap .misaligned 0 t)
  else
    match s.fetchAt ((pc - 4).toNat) m with
    | .stop (.trap s1 x) => (s1, .trap x.cause (if x.cause = .xlate then t else x.val.toNat) t)
    | .stop (.wait s1 w) => (s1, .hold w t)
    | .stop (.done s1) => (s1, .hold .none t)
    | .stop (.moved s1) => (s1, .hold .none t)
    | .word s1 w =>
      match hfuncBudget w with
      | none => (s1, .trap .illegalInsn t t)
      | some b =>
        if !s.self.unit.gaffer ∧ s.self.regs.v.length < b then (s1, .trap .regBudget 0 t) else (s1, s1.callGoal pc)

/-- The goals of the distinct targets of a CALLI, in the order of their lowest lanes. -/
def State.calliGoals : List (Mask × DWord) → State → State × List (DWord × Goal)
  | [], s => (s, [])
  | (m, pc) :: rest, s =>
    let r := s.calliGoal m pc
    let q := State.calliGoals rest r.1
    (q.1, (pc, r.2) :: q.2)

/-- An indirect transfer: A is read in every lane; a Gaffer thread names an s register (R213, R223). -/
def State.indirect (s : State) (w : Word) (g : BitVec 3) (a : BitVec 7) (k : State → Lanes → Exit) : Step :=
  let m := s.part g
  s.frame w m
    [s.issueCheck ctlNeeds false w m,
     operandIf (if s.self.unit.gaffer then s.badScalar a else s.badSource a) w 1 m, s.bounds a 1 m]
    [a] fun s1 ps => k s1 (s.readV ps a)

/-- CALLI: a call to register targets (R29, R212, R213). -/
def execCalli (g : BitVec 3) (a : BitVec 7) (s : State) : Step :=
  s.indirect (encode (.calli g a)) g a fun s1 x =>
    let m := s.part g
    let r := s1.calliGoals (groupLanes (fun n => s.absTarget (x.at n)) m)
    r.1.transfer (fun n =>
      if m.has n then ((r.2.find? fun t => t.1 == s.absTarget (x.at n)).map (·.2)).getD r.1.stay else r.1.stay) true
/-- JMPI: a jump to register targets (R212, R213). -/
def execJmpi (g : BitVec 3) (a : BitVec 7) (s : State) : Step :=
  s.indirect (encode (.jmpi g a)) g a fun s1 x =>
    s1.transfer (fun n => if (s.part g).has n then s1.jumpGoal (s.absTarget (x.at n)) else s1.stay) false

/-! ### Yield, traps, features, no-op -/

/-- YIELD: the group waits until the named tokens clear (R36, R216). -/
def execYield (g : BitVec 3) (i : BitVec 8) (s : State) : Step :=
  let w := encode (.yield g i)
  let m := s.self.cur.lanes
  let v := (s.imm i 32).toNat
  s.uniformFrame w g [s.issueCheck { run := .never } false w m, operandIf (decide (255 < v)) w 5 m] []
    fun s1 _ =>
      let await := BitVec.ofNat 8 v
      .moved (s1.advance.mapCur fun p => { p with wait := if s1.self.tokens &&& await = 0 then .none else .tokens await })

/-- TRAP: BREAK for code 0, SW_TRAP with the code in TVAL else (R217). -/
def execTrap (g : BitVec 3) (i : BitVec 8) (s : State) : Step :=
  let w := encode (.trap g i)
  let m := s.self.cur.lanes
  let v := (s.imm i 32).toNat
  s.uniformFrame w g [s.issueCheck bothNeeds false w m] []
    fun s1 _ => .trap s1 { Trap.at (if v = 0 then .brk else .swTrap) v m with after := true }

/-- The word of a FEATQ selector (R219). -/
def Context.featWord (c : Context) (sel : Nat) : DWord :=
  match sel with
  | 0 => c.feat.setWidth 64
  | 1 => (c.feat >>> 64).setWidth 64
  | 2 => BitVec.ofNat 64 (c.nlc % 65536 + 4 * 2 ^ 16 + 4 * 2 ^ 24 + 128 * 2 ^ 32)
  | _ => 4

/-- FEATQ: a feature, configuration or generation word (R219). -/
def execFeatq (g : BitVec 3) (d : BitVec 7) (i : BitVec 8) (s : State) : Step :=
  let w := encode (.featq g d i)
  let m := s.self.cur.lanes
  let v := (s.imm i 32).toNat
  s.uniformFrame w g
    [s.issueCheck bothNeeds false w m, operandIf (!isS d) w 0 m, operandIf (decide (3 < v)) w 5 m] []
    fun s1 _ => .done (s1.putS (d.toNat - 0x40) (s1.ctx.featWord v))

/-- NOP (R220). -/
def execNop (g : BitVec 3) (s : State) : Step :=
  let w := encode (.nop g)
  let m := s.self.cur.lanes
  s.uniformFrame w g [s.issueCheck bothNeeds false w m] [] fun s1 _ => .done s1

/-- TRET: the return to the level below (R218). -/
def execTret (g : BitVec 3) (s : State) : Step :=
  let w := encode (.tret g)
  let m := s.self.cur.lanes
  s.uniformFrame w g
    [s.issueCheck { issuer := .both, run := .never, tlOk := fun tl => tl != 0 } false w m] []
    fun s1 _ => .moved (s1.mapSelf fun a => (a.return (a.tl - 1)).retire1)

/-! ### Hints and reserved words -/

/-- The prefix one word longer, before the word's own effect (R166). -/
def Pfx.push (p : Pfx) (w : Word) : Pfx := { p with count := p.count + 1, last := w }

/-- A hint or HFUNC word traps at itself in a context that has not acknowledged BASE (R9, R418); an eighth hint word traps
at itself, too (R166). -/
def State.hintRefused (s : State) : Bool := !s.ctx.feat.getLsbD 0 || decide (7 ≤ s.self.cur.pfx.count)

/-- A hint word: the prefix grows and the PC moves on (R166). -/
def State.hint (s : State) (w : Word) (f : Pfx → Pfx) : Step :=
  if s.hintRefused then .next (s.raise (Trap.at .illegalInsn w.toNat s.self.cur.lanes))
  else .next (s.mapSelf fun a => { a with
    cur := { a.cur with pc := a.cur.pc + 4, pfx := (f a.cur.pfx).push w }
    run := a.run.map fun r => { r with pos := r.pos + 1 } })

/-- HIMM: 24 bits shift into the accumulator (R167). -/
def execHimm (p : BitVec 24) (s : State) : Step :=
  s.hint (encode (.himm p)) fun x => { x with acc := (x.acc <<< 24) ||| p.setWidth 64, himm := true }

/-- HMOD: fields for the next instruction; a second one is an error there (R166, R168). -/
def execHmod (c : BitVec 4) (o : BitVec 2) (r : BitVec 3) (a u : BitVec 1) (v : BitVec 3) (z : BitVec 7) (s : State) :
    Step :=
  s.hint (encode (.hmod c o r a u v z)) fun x =>
    { x with hmod := some ⟨c, o, r, a, u, v, z⟩, twice := x.twice || x.hmod.isSome }

/-- HSCHED: the group's urgency weight; a Gaffer thread ignores it (R166, R169). -/
def execHsched (u : BitVec 3) (s : State) : Step :=
  let s1 := if s.self.unit.gaffer || s.hintRefused then s
    else s.mapSelf fun a => { a with urg := u }
  s1.hint (encode (.hsched u)) fun x => { x with hsched := true, twice := x.twice || x.hsched }

/-- HCACHE: an allocation policy, time alone (R166, R170). -/
def execHcache (l : BitVec 2) (s : State) : Step :=
  s.hint (encode (.hcache l)) fun x => { x with hcache := true, twice := x.twice || x.hcache }

/-- The trap of a prefix word that stands directly before RUNB, TRL or HFUNC, at that word (R166). -/
def State.strayPfx (s : State) : State :=
  let back := s.mapCur fun p => { p with pc := p.pc - 4, pfx := { p.pfx with count := p.pfx.count - 1 } }
  back.raise (Trap.at .illegalInsn s.self.cur.pfx.last.toNat s.self.cur.lanes)

/-- HFUNC reached in execution: as NOP (R172). -/
def execHfunc (b : BitVec 5) (s : State) : Step :=
  if s.self.cur.pfx.count ≠ 0 then .next s.strayPfx
  else if s.hintRefused then .next (s.raise (Trap.at .illegalInsn (encode (.hfunc b)).toNat s.self.cur.lanes))
  else .next s.advance

/-- A reserved word: ILLEGAL_INSN at the word (R174). -/
def execReservedEncoding (w : Word) (s : State) : Step :=
  .next (s.raise (Trap.at .illegalInsn w.toNat s.self.cur.lanes))

end Sys2Proof.Machine
end

