-- ==== Sys2Proof/Machine/IntVec.lean ====
section
/-!
DEFINITION. The vector integer instructions (08 R184 to R190).
-/
namespace Sys2Proof.Machine

open Sys2Proof

/-! ### Lane operations -/

/-- The 32-bit value nearest to an integer in the signed or unsigned range (R46, R184). -/
def clamp32 (uns : Bool) (v : Int) : Word :=
  let lo : Int := if uns then 0 else -(2 ^ 31)
  let hi : Int := if uns then 2 ^ 32 - 1 else 2 ^ 31 - 1
  BitVec.ofInt 32 (if v < lo then lo else if hi < v then hi else v)

/-- The integer a lane word stands for. -/
def intOf (uns : Bool) (w : Word) : Int := if uns then w.toNat else w.toInt

/-- Bits [63:32] of the exact product (R184). -/
def mulHigh (uns : Bool) (a b : Word) : Word := BitVec.ofInt 32 (intOf uns a * intOf uns b / 2 ^ 32)

/-- The truncated quotient (R185); -2^31 by -1 wraps to -2^31. -/
def divLane (uns : Bool) (a b : Word) : Word := BitVec.ofInt 32 ((intOf uns a).tdiv (intOf uns b))

/-- The remainder a - q * b (R185). -/
def remLane (uns : Bool) (a b : Word) : Word := a - divLane uns a b * b

/-- The smaller or larger value (R184). -/
def minLane (uns : Bool) (a b : Word) : Word := if intOf uns b < intOf uns a then b else a
/-- The larger value (R184). -/
def maxLane (uns : Bool) (a b : Word) : Word := if intOf uns a < intOf uns b then b else a

/-- A shift count, b[4:0] (R184). -/
def shiftCount (b : Word) : Nat := b.toNat % 32

/-- The position of a bit field (R186). -/
def fieldPos (b : Word) : Nat := b.toNat % 32
/-- The width of a bit field: min(len, 32 - pos) (R186). -/
def fieldWid (b : Word) : Nat := min (b.toNat / 256 % 64) (32 - fieldPos b)

/-- BFE (R186). -/
def bfeLane (uns : Bool) (a b : Word) : Word :=
  let f := a.toNat / 2 ^ fieldPos b % 2 ^ fieldWid b
  if fieldWid b = 0 then 0
  else if uns then BitVec.ofNat 32 f
  else BitVec.ofInt 32 (signedOf (fieldWid b) f)

/-- BFI (R186). -/
def bfiLane (a b d : Word) : Word :=
  let mask := BitVec.ofNat 32 ((2 ^ fieldWid b - 1) * 2 ^ fieldPos b)
  (d &&& ~~~mask) ||| ((a <<< fieldPos b) &&& mask)

/-- The number of one bits (R184). -/
def popcLane (a : Word) : Word := BitVec.ofNat 32 (Mask.count a)
/-- The number of leading zero bits (R184). -/
def clzLane (a : Word) : Word := BitVec.ofNat 32 (if a = 0 then 32 else 31 - Nat.log2 a.toNat)
/-- The bits reversed (R184). -/
def brevLane (a : Word) : Word := Mask.ofTest fun k => a.getLsbD (31 - k)
/-- The absolute value; -2^31 stays, or saturates (R184). -/
def absLane (sat : Bool) (a : Word) : Word :=
  if a.toInt < 0 then (if sat ∧ a = 0x80000000 then 0x7FFFFFFF else -a) else a

/-- Element `i` of width `w` bits, as DP4 and DP2 read it (R187). -/
def dpElem (w : Nat) (uns : Bool) (a : Word) (i : Nat) : Int :=
  let f := a.toNat / 2 ^ (w * i) % 2 ^ w
  if uns then f else signedOf w f

/-- The exact total of a dot product (R187). -/
def dpSum (w k : Nat) (tv : BitVec 3) (uns : Bool) (a b d : Word) : Int :=
  let au := tv == 1 || tv == 3
  let bu := tv == 1 || tv == 2
  (List.range k).foldl (fun s i => s + dpElem w au a i * dpElem w bu b i) (intOf uns d)

/-- A dot product, wrapped, or clamped once on the total (R187). -/
def dpLane (w k : Nat) (sat : Bool) (tv : BitVec 3) (uns : Bool) (a b d : Word) : Word :=
  let s := dpSum w k tv uns a b d
  if sat then clamp32 (tv == 1 && uns) s else BitVec.ofInt 32 s

/-- An integer condition (R188). -/
def icond (c : BitVec 4) (x y : Int) : Bool :=
  match c.toNat with
  | 0 => decide (x = y)
  | 1 => decide (x ≠ y)
  | 2 => decide (x < y)
  | 3 => decide (x ≤ y)
  | 4 => decide (y < x)
  | _ => decide (y ≤ x)

/-- HMOD use: UNS alone. -/
abbrev useUns : HmodUse := { uns := true }
/-- HMOD use: SAT alone. -/
abbrev useSat : HmodUse := { sat := true }
/-- HMOD use of the dot products: TV 1 to 3 and UNS (R187). -/
abbrev useDp : HmodUse := { tv := [1, 2, 3], uns := true }

/-- A group instruction that may stand anywhere in a run, with its HMOD use. -/
abbrev vecNeeds (h : HmodUse) : Needs := { hmod := h }

/-- An F3 instruction computed lane by lane. -/
def State.intOp (s : State) (w : Word) (h : HmodUse) (g : BitVec 3) (d a : BitVec 7) (b : BSrc) (readsD : Bool)
    (f : Word → Word → Word → Word) : Step :=
  s.vec w (vecNeeds h) false (s.part g) d a b readsD (laneWise f)

/-! ### Meanings -/

/-- IADD: a + b, wrapped (R184). -/
def execIadd (g : BitVec 3) (d a b : BitVec 7) (s : State) : Step :=
  s.intOp (encode (.iadd g d a b)) {} g d a (.spec b) false fun x y _ => x + y
/-- ISUB: a - b, wrapped (R184). -/
def execIsub (g : BitVec 3) (d a b : BitVec 7) (s : State) : Step :=
  s.intOp (encode (.isub g d a b)) {} g d a (.spec b) false fun x y _ => x - y
/-- IADDS: a + b, clamped (R184). -/
def execIadds (g : BitVec 3) (d a b : BitVec 7) (s : State) : Step :=
  s.intOp (encode (.iadds g d a b)) useUns g d a (.spec b) false
    fun x y _ => clamp32 s.uns (intOf s.uns x + intOf s.uns y)
/-- ISUBS: a - b, clamped (R184). -/
def execIsubs (g : BitVec 3) (d a b : BitVec 7) (s : State) : Step :=
  s.intOp (encode (.isubs g d a b)) useUns g d a (.spec b) false
    fun x y _ => clamp32 s.uns (intOf s.uns x - intOf s.uns y)
/-- IMUL: the low 32 bits of a * b (R184). -/
def execImul (g : BitVec 3) (d a b : BitVec 7) (s : State) : Step :=
  s.intOp (encode (.imul g d a b)) {} g d a (.spec b) false fun x y _ => x * y
/-- IMULH: bits [63:32] of the exact product (R184). -/
def execImulh (g : BitVec 3) (d a b : BitVec 7) (s : State) : Step :=
  s.intOp (encode (.imulh g d a b)) useUns g d a (.spec b) false fun x y _ => mulHigh s.uns x y
/-- IMAD: the low 32 bits of a * b + d (R184). -/
def execImad (g : BitVec 3) (d a b : BitVec 7) (s : State) : Step :=
  s.intOp (encode (.imad g d a b)) {} g d a (.spec b) true fun x y z => x * y + z

/-- INT_DIV0 where a participating divisor is zero, TVAL the mask of those lanes (R185); else the operation. -/
def divWise (m : Mask) (f : Word → Word → Word → Word) (a b d : Lanes) : LaneRes :=
  let z : Mask := Mask.ofTest fun n => m.has n && b.at n == 0
  if z = 0 then laneWise f a b d else .error (Trap.at .intDiv0 z.toNat m)

/-- IDIV: the truncated quotient (R185). -/
def execIdiv (g : BitVec 3) (d a b : BitVec 7) (s : State) : Step :=
  s.vec (encode (.idiv g d a b)) (vecNeeds useUns) false (s.part g) d a (.spec b) false
    (divWise (s.part g) fun x y _ => divLane s.uns x y)
/-- IREM: the remainder (R185). -/
def execIrem (g : BitVec 3) (d a b : BitVec 7) (s : State) : Step :=
  s.vec (encode (.irem g d a b)) (vecNeeds useUns) false (s.part g) d a (.spec b) false
    (divWise (s.part g) fun x y _ => remLane s.uns x y)
/-- IMIN: the smaller value (R184). -/
def execImin (g : BitVec 3) (d a b : BitVec 7) (s : State) : Step :=
  s.intOp (encode (.imin g d a b)) useUns g d a (.spec b) false fun x y _ => minLane s.uns x y
/-- IMAX: the larger value (R184). -/
def execImax (g : BitVec 3) (d a b : BitVec 7) (s : State) : Step :=
  s.intOp (encode (.imax g d a b)) useUns g d a (.spec b) false fun x y _ => maxLane s.uns x y
/-- AND (R184). -/
def execAnd (g : BitVec 3) (d a b : BitVec 7) (s : State) : Step :=
  s.intOp (encode (.and g d a b)) {} g d a (.spec b) false fun x y _ => x &&& y
/-- OR (R184). -/
def execOr (g : BitVec 3) (d a b : BitVec 7) (s : State) : Step :=
  s.intOp (encode (.or g d a b)) {} g d a (.spec b) false fun x y _ => x ||| y
/-- XOR (R184). -/
def execXor (g : BitVec 3) (d a b : BitVec 7) (s : State) : Step :=
  s.intOp (encode (.xor g d a b)) {} g d a (.spec b) false fun x y _ => x ^^^ y
/-- ANDN: a and not b (R184). -/
def execAndn (g : BitVec 3) (d a b : BitVec 7) (s : State) : Step :=
  s.intOp (encode (.andn g d a b)) {} g d a (.spec b) false fun x y _ => x &&& ~~~y
/-- SHL: a << b[4:0] (R184). -/
def execShl (g : BitVec 3) (d a b : BitVec 7) (s : State) : Step :=
  s.intOp (encode (.shl g d a b)) {} g d a (.spec b) false fun x y _ => x <<< shiftCount y
/-- SHR: a >> b[4:0], zero-filled (R184). -/
def execShr (g : BitVec 3) (d a b : BitVec 7) (s : State) : Step :=
  s.intOp (encode (.shr g d a b)) {} g d a (.spec b) false fun x y _ => x >>> shiftCount y
/-- SAR: a >> b[4:0], sign-filled (R184). -/
def execSar (g : BitVec 3) (d a b : BitVec 7) (s : State) : Step :=
  s.intOp (encode (.sar g d a b)) {} g d a (.spec b) false fun x y _ => x.sshiftRight (shiftCount y)
/-- ROTL: a rotated left by b[4:0] (R184). -/
def execRotl (g : BitVec 3) (d a b : BitVec 7) (s : State) : Step :=
  s.intOp (encode (.rotl g d a b)) {} g d a (.spec b) false fun x y _ => x.rotateLeft (shiftCount y)
/-- ICMP: p_pd := Cond(a, b) (R188). -/
def execIcmp (g : BitVec 3) (c : BitVec 4) (p : BitVec 3) (a b : BitVec 7) (s : State) : Step :=
  s.vecP (encode (.icmp g c p a b)) (vecNeeds useUns) false (s.part g) p a (.spec b)
    (lanePred fun x y => icond c (intOf s.uns x) (intOf s.uns y))
/-- SEL: a where the select predicate is true, b elsewhere, in every executing lane (R190). -/
def execSel (g : BitVec 3) (d a b : BitVec 7) (s : State) : Step :=
  s.vec (encode (.sel g d a b)) (vecNeeds {}) false s.self.cur.lanes d a (.spec b) false
    fun x y _ => .ok (Lanes.blend (s.self.regs.pred g) x y, 0)
/-- BFE (R186). -/
def execBfe (g : BitVec 3) (d a b : BitVec 7) (s : State) : Step :=
  s.intOp (encode (.bfe g d a b)) useUns g d a (.spec b) false fun x y _ => bfeLane s.uns x y
/-- BFI (R186). -/
def execBfi (g : BitVec 3) (d a b : BitVec 7) (s : State) : Step :=
  s.intOp (encode (.bfi g d a b)) {} g d a (.spec b) true bfiLane
/-- POPC (R184). -/
def execPopc (g : BitVec 3) (d a : BitVec 7) (s : State) : Step :=
  s.intOp (encode (.popc g d a)) {} g d a .none false fun x _ _ => popcLane x
/-- CLZ (R184). -/
def execClz (g : BitVec 3) (d a : BitVec 7) (s : State) : Step :=
  s.intOp (encode (.clz g d a)) {} g d a .none false fun x _ _ => clzLane x
/-- BREV (R184). -/
def execBrev (g : BitVec 3) (d a : BitVec 7) (s : State) : Step :=
  s.intOp (encode (.brev g d a)) {} g d a .none false fun x _ _ => brevLane x
/-- IABS (R184). -/
def execIabs (g : BitVec 3) (d a : BitVec 7) (s : State) : Step :=
  s.intOp (encode (.iabs g d a)) useSat g d a .none false fun x _ _ => absLane s.sat x
/-- DP4: four byte products added to d, wrapped (R187). It reads D, so that a D of q0 to q3 is refused as by R182, whose list
leaves it out; the same holds of DP4S, DP2 and DP2S (DEDUCED, log entry 69). -/
def execDp4 (g : BitVec 3) (d a b : BitVec 7) (s : State) : Step :=
  s.intOp (encode (.dp4 g d a b)) useDp g d a (.spec b) true (dpLane 8 4 false s.hmod.tv s.uns)
/-- DP4S: as DP4, clamped once (R187). -/
def execDp4s (g : BitVec 3) (d a b : BitVec 7) (s : State) : Step :=
  s.intOp (encode (.dp4s g d a b)) useDp g d a (.spec b) true (dpLane 8 4 true s.hmod.tv s.uns)
/-- DP2: two halfword products added to d, wrapped (R187). -/
def execDp2 (g : BitVec 3) (d a b : BitVec 7) (s : State) : Step :=
  s.intOp (encode (.dp2 g d a b)) useDp g d a (.spec b) true (dpLane 16 2 false s.hmod.tv s.uns)
/-- DP2S: as DP2, clamped once (R187). -/
def execDp2s (g : BitVec 3) (d a b : BitVec 7) (s : State) : Step :=
  s.intOp (encode (.dp2s g d a b)) useDp g d a (.spec b) true (dpLane 16 2 true s.hmod.tv s.uns)
/-- IADDI: a + imm (R189). -/
def execIaddi (g : BitVec 3) (d a : BitVec 7) (i : BitVec 8) (s : State) : Step :=
  s.intOp (encode (.iaddi g d a i)) {} g d a (.imm i) false fun x y _ => x + y
/-- ANDI (R189). -/
def execAndi (g : BitVec 3) (d a : BitVec 7) (i : BitVec 8) (s : State) : Step :=
  s.intOp (encode (.andi g d a i)) {} g d a (.imm i) false fun x y _ => x &&& y
/-- ORI (R189). -/
def execOri (g : BitVec 3) (d a : BitVec 7) (i : BitVec 8) (s : State) : Step :=
  s.intOp (encode (.ori g d a i)) {} g d a (.imm i) false fun x y _ => x ||| y
/-- XORI (R189). -/
def execXori (g : BitVec 3) (d a : BitVec 7) (i : BitVec 8) (s : State) : Step :=
  s.intOp (encode (.xori g d a i)) {} g d a (.imm i) false fun x y _ => x ^^^ y
/-- SHLI (R189). -/
def execShli (g : BitVec 3) (d a : BitVec 7) (i : BitVec 8) (s : State) : Step :=
  s.intOp (encode (.shli g d a i)) {} g d a (.imm i) false fun x y _ => x <<< shiftCount y
/-- SHRI (R189). -/
def execShri (g : BitVec 3) (d a : BitVec 7) (i : BitVec 8) (s : State) : Step :=
  s.intOp (encode (.shri g d a i)) {} g d a (.imm i) false fun x y _ => x >>> shiftCount y
/-- SARI (R189). -/
def execSari (g : BitVec 3) (d a : BitVec 7) (i : BitVec 8) (s : State) : Step :=
  s.intOp (encode (.sari g d a i)) {} g d a (.imm i) false fun x y _ => x.sshiftRight (shiftCount y)
/-- ICMPI (R189). -/
def execIcmpi (g : BitVec 3) (c : BitVec 4) (p : BitVec 3) (a : BitVec 7) (i : BitVec 8) (s : State) : Step :=
  s.vecP (encode (.icmpi g c p a i)) (vecNeeds useUns) false (s.part g) p a (.imm i)
    (lanePred fun x y => icond c (intOf s.uns x) (intOf s.uns y))
/-- IMULI (R189). -/
def execImuli (g : BitVec 3) (d a : BitVec 7) (i : BitVec 8) (s : State) : Step :=
  s.intOp (encode (.imuli g d a i)) {} g d a (.imm i) false fun x y _ => x * y

end Sys2Proof.Machine
end

