-- ==== Sys2Proof/Machine/MemAccess.lean ====
section
/-!
DEFINITION. Loads and stores, binding, acquire loads, release stores and atomics of a group (09 R227 to R238), and the
handles of the Punty that a binding may name (04 R118).
-/
namespace Sys2Proof.Machine

open Sys2Proof

/-! ### Widths and values (R229) -/

/-- The bytes of a width W; 1 for .e, whose alignment waits for the page (R227). -/
def fmBytes (w : BitVec 3) : Nat :=
  match w.toNat with
  | 2 => 2
  | 3 => 4
  | 4 => 8
  | 5 => 16
  | 7 => 2
  | _ => 1

/-- The registers of a width W (R229). -/
def fmRows (w : BitVec 3) : Nat := if w = 4 then 2 else if w = 5 then 4 else 1

/-- The word of register `k` that the bytes of a lane give (R229). -/
def fmWord (w : BitVec 3) (bs : List Byte) (k : Nat) : Word :=
  if w = 6 ∨ w = 7 then BitVec.ofInt 32 (signedOf (8 * fmBytes w) (leNat bs))
  else BitVec.ofNat 32 (leNat (slice bs (4 * k) 4))

/-- The bytes that a lane stores from the values of its registers (R229). -/
def fmStore (w : BitVec 3) (val : Nat → Word) : List Byte :=
  ((List.range (fmRows w)).flatMap fun k => leBytes 4 (val k).toNat).take (if w = 0 then 4 else fmBytes w)

/-- The destination of LD and LDS is refused (R229). -/
def State.badLoadDest (s : State) (w : BitVec 3) (d : BitVec 7) : Bool :=
  if 1 < fmRows w then !isV d else !(isV d || isO d || (isL d && s.self.inRun))
/-- The data operand of ST and STS is refused (R229; of STS DEDUCED, log entry 80). -/
def State.badStoreData (s : State) (w : BitVec 3) (d : BitVec 7) : Bool :=
  if 1 < fmRows w then !isV d else !(isV d || isO d || (isL d && s.self.inRun) || isQ d)

/-- Loaded values written to the registers of D in the lanes of a mask; the lowest register enters l0 (R32, R229). -/
def State.loadDest (s : State) (d : BitVec 7) (m : Mask) (rows : Nat) (val : Nat → Lanes) : State :=
  let s1 := (List.range rows).foldl (fun t k => t.putReg d k m (val k)) s
  if s.self.inRun then s1.shiftLatch (Lanes.blend m (val 0) (s.oldDest d)) else s1

/-- The value of data register `k` of a store: row D + k of the main file, else the operand itself. -/
def State.readData (s : State) (ps : Pops) (d : BitVec 7) (k : Nat) : Lanes :=
  if isV d then s.self.regs.row (d.toNat + s.self.regs.ix + k) else s.readV ps d

/-- The signed offsets of the participating lanes (R115). -/
def offsets (m : Mask) (x : Lanes) : List (Nat × Int) := m.lanes.map fun l => (l.val, (x.at l.val).toInt)
/-- The scratchpad offsets of the participating lanes (R104). -/
def scrOffsets (m : Mask) (x : Lanes) : List (Nat × Nat) := m.lanes.map fun l => (l.val, (x.at l.val).toNat)

/-- The translation register that T names. -/
def State.treg (s : State) (t : BitVec 3) : TransReg := s.self.regs.a[t.toNat]'(by have := t.isLt; omega)

/-- A global FM access: checks 1 and 2, the wait for a queued store to the page (R142), then the lanes' places. -/
def State.fmGlobal (s : State) (w : Word) (m : Mask) (sh : AccShape) (t : BitVec 3) (x : Lanes)
    (k : State → List LaneAcc → Exit) : Exit :=
  let tr := s.treg t
  let xs := offsets m x
  match tr.preCheck sh.width xs w m with
  | some tp => .trap s tp
  | none =>
    if s.self.queuedPage (xs.map fun c => tr.addr c.2) then .wait s .poll
    else
      let r := s.lanesBy (fun st key => st.laneVia sh tr key) (xs.map fun c => (c.1, tr.addr c.2, c.2.toNat))
      k r.1 r.2

/-- A scratchpad access of the issuer's own gang: checks 1 and 2, poison for reads, then what follows (R104, R230). -/
def State.fmScratch (s : State) (m : Mask) (reads : Bool) (width : Nat) (x : Lanes)
    (k : State → List (Nat × Nat) → Exit) : Exit :=
  let xs := scrOffsets m x
  match s.gang s.self.unit.gang with
  | none => .trap s (Trap.at .xlate 0 m)
  | some gg =>
    match scrPreCheck [gg.size] width xs m with
    | some tp => .trap s tp
    | none =>
      match (if reads then gg.poisonCheck xs m else none) with
      | some tp => .trap s tp
      | none => k s xs

/-- The lanes whose access has been performed. -/
def okMask (l : List LaneAcc) : Mask := lanesWhere l LaneAcc.isOk

/-- What a lane of a list gives; a default elsewhere. -/
def laneVal {β : Type} (d : β) (l : List (Nat × β)) (n : Nat) : β := ((l.find? fun c => c.1 == n).map (·.2)).getD d

/-- The words and flags that LD gives a lane at its place (R62, R229). The raw override changes the check of the page alone: .e
decodes under it as without it (DESIGN CHOICE, log entry 85). -/
def State.ldLane (s : State) (w : BitVec 3) (va pa ca : Nat) (a : Attr) : (Nat → Word) × Flags :=
  if w = 0 then
    let r := (s.elemAt va pa ca a).decode s.rm
    (fun _ => r.1, r.2)
  else
    let bs := s.loadBytes ca (fmBytes w)
    (fmWord w bs, 0)

/-- The performed lanes of a load with what each reads. -/
def State.ldLanes (s : State) (w : BitVec 3) (l : List LaneAcc) : List (Nat × (Nat → Word) × Flags) :=
  l.filterMap fun a => match a.out with
    | .ok pa ca at_ => some (a.lane, s.ldLane w a.va pa ca at_)
    | _ => none

/-- The HMOD fields of LD and ST (R229). -/
def fmUse (store : Bool) (w : BitVec 3) : HmodUse := { rnd := w == 0, sat := store && w == 0, tv := [7] }

/-! ### LD, ST, LDS, STS, MCST, PFX -/

/-- LD (R227 to R229). -/
def execLd (g : BitVec 3) (d : BitVec 7) (t : BitVec 3) (x : BitVec 7) (w : BitVec 3) (c : BitVec 2) (s : State) :
    Step :=
  let wd := encode (.ld g d t x w c)
  let m := s.part g
  s.frame wd m
    [s.issueCheck { hmod := fmUse false w } false wd m, operandIf (s.badLoadDest w d) wd 0 m,
     operandIf (s.badSource x) wd 3 m, s.bounds d (fmRows w) m, s.bounds x 1 m]
    [x] fun s1 ps =>
      s1.fmGlobal wd m ⟨.read, true, w == 0, s.hmod.tv == 7, fmBytes w, srcGroup, 0⟩ t (s.readV ps x) fun s2 l =>
        let r := s2.ldLanes w l
        let val (k : Nat) : Lanes := Lanes.tab fun n => (laneVal (fun _ => 0, 0) r n).1 k
        let fl := r.foldl (fun f e => f ||| e.2.2) 0
        ((s2.loadDest d (okMask l) (fmRows w) val).markLong.raiseFlags fl).finishLanes .read m l

/-- The bytes that the performed lanes of a store write, in lane order, with the flags of encoding (R63, R229). -/
def State.stBytes (s : State) (w : BitVec 3) (val : Nat → Nat → Word) (l : List LaneAcc) : List StoreByte × Flags :=
  l.foldl (fun r a => match a.out with
    | .ok _ ca at_ =>
      if w = 0 then
        let e := encodeElem at_.fmt s.rm s.sat (val a.lane 0)
        (r.1 ++ storeBytes ca a.va (leBytes (elemSize at_.fmt) e.1), r.2 ||| e.2)
      else (r.1 ++ storeBytes ca a.va (fmStore w (val a.lane)), r.2)
    | _ => r) ([], 0)

/-- A store met a page outside its version: nothing is stored (R278). -/
def versionStop (l : List LaneAcc) : Bool :=
  match worst l with
  | some (8, _, _) => true
  | _ => false

/-- ST (R227 to R229): missed lanes go to the replay queue (R142). -/
def execSt (g : BitVec 3) (d : BitVec 7) (t : BitVec 3) (x : BitVec 7) (w : BitVec 3) (c : BitVec 2) (s : State) :
    Step :=
  let wd := encode (.st g d t x w c)
  let m := s.part g
  s.frame wd m
    [s.issueCheck { hmod := fmUse true w } false wd m, operandIf (s.badStoreData w d) wd 0 m,
     operandIf (s.badSource x) wd 3 m, s.bounds d (fmRows w) m, s.bounds x 1 m]
    [d, x] fun s1 ps =>
      let val (n k : Nat) : Word := (s.readData ps d k).at n
      s1.fmGlobal wd m ⟨.write, false, w == 0, s.hmod.tv == 7, fmBytes w, srcGroup, 0⟩ t (s.readV ps x) fun s2 l =>
        if versionStop l then s2.finishLanes .write m l
        else
          let b := s2.stBytes w val l
          ((s2.store b.1).raiseFlags b.2).finishStore wd false m l fun n => fmStore w (val n)

/-- LDS (R230). -/
def execLds (g : BitVec 3) (d : BitVec 7) (t : BitVec 3) (x : BitVec 7) (w : BitVec 3) (c : BitVec 2) (s : State) :
    Step :=
  let wd := encode (.lds g d t x w c)
  let m := s.part g
  s.frame wd m
    [s.issueCheck {} false wd m, operandIf (s.badLoadDest w d) wd 0 m, operandIf (s.badSource x) wd 3 m,
     operandIf (t != 0) wd 4 m, operandIf (w == 0) wd 5 m, s.bounds d (fmRows w) m, s.bounds x 1 m]
    [x] fun s1 ps =>
      s1.fmScratch m true (fmBytes w) (s.readV ps x) fun s2 xs =>
        let r := xs.map fun o => (o.1, fmWord w (s2.scrBytes s2.self.unit.gang o.2 (fmBytes w)))
        .done ((s2.loadDest d m (fmRows w) fun k => Lanes.tab fun n => laneVal (fun _ => 0) r n k).markLong)

/-- STS (R230). -/
def execSts (g : BitVec 3) (d : BitVec 7) (t : BitVec 3) (x : BitVec 7) (w : BitVec 3) (c : BitVec 2) (s : State) :
    Step :=
  let wd := encode (.sts g d t x w c)
  let m := s.part g
  s.frame wd m
    [s.issueCheck {} false wd m, operandIf (s.badStoreData w d) wd 0 m, operandIf (s.badSource x) wd 3 m,
     operandIf (t != 0) wd 4 m, operandIf (w == 0) wd 5 m, s.bounds d (fmRows w) m, s.bounds x 1 m]
    [d, x] fun s1 ps =>
      s1.fmScratch m false (fmBytes w) (s.readV ps x) fun s2 xs =>
        .done (s2.storeScr s2.self.unit.gang
          (xs.flatMap fun o => placed o.2 (fmStore w fun k => (s.readData ps d k).at o.1)))

/-- The gangs that a core mask names (R105). -/
def maskGangs (m : BitVec 4) : List Nat := (List.range 4).filter fun c => m.getLsbD c

/-- MCST: one word to the same offset in several scratchpads (R105, R231). D is checked as a source (DEDUCED, log entry 80). -/
def execMcst (g : BitVec 3) (d : BitVec 7) (t : BitVec 3) (x : BitVec 7) (m : BitVec 4) (s : State) : Step :=
  let wd := encode (.mcst g d t x m)
  let p := s.part g
  let gs := maskGangs m
  s.frame wd p
    [s.issueCheck {} (t != 0) wd p, operandIf (s.badSource d) wd 0 p, operandIf (s.badSource x) wd 3 p,
     operandIf (m == 0 || gs.any fun c => (s.gang c).isNone) wd 5 p,
     s.bounds d 1 p, s.bounds x 1 p]
    [d, x] fun s1 ps =>
      let xs := scrOffsets p (s.readV ps x)
      let v := s.readV ps d
      match scrPreCheck (gs.filterMap fun c => (s.gang c).map (·.size)) 4 xs p with
      | some tp => .trap s1 tp
      | none =>
        .done (gs.foldl (fun u c => u.storeScr c
          (xs.flatMap fun o => placed o.2 (leBytes 4 (v.at o.1).toNat))) s1)

/-- PFX: check 1 alone; a prefetch changes only time (R232). -/
def execPfx (g : BitVec 3) (t : BitVec 3) (x : BitVec 7) (w : BitVec 3) (c : BitVec 2) (s : State) : Step :=
  let wd := encode (.pfx g t x w c)
  let m := s.part g
  s.frame wd m [s.issueCheck {} false wd m, operandIf (s.badSource x) wd 3 m, s.bounds x 1 m] [x] fun s1 ps =>
    match (s.treg t).preCheck 1 (offsets m (s.readV ps x)) wd m with
    | some tp => .trap s1 tp
    | none => .done s1

/-! ### Binding (R115, R233) -/

/-- The slot of a handle (R118). -/
def handleSlot (h : Nat) : Nat := h % 2 ^ 24
/-- The handle of a registered object (R118). -/
def PuntyObj.handle (o : PuntyObj) : Nat := o.gen * 2 ^ 24 + o.slot
/-- The object that a handle names; none for a stale one (R118). -/
def State.handleObj (s : State) (h : Nat) : Option PuntyObj := s.punty.objs.find? fun o => o.handle == h
/-- The open references of a context to an object. -/
def PuntyObj.openOf (o : PuntyObj) (c : CtxId) : Nat := ((o.opens.find? fun e => e.1 == c).map (·.2)).getD 0

/-- The registers with translation register `t` replaced. -/
def Regs.putA (r : Regs) (t : BitVec 3) (v : TransReg) : Regs := { r with a := r.a.setIfInBounds t.toNat v }

/-- LIMIT of a binding: the end of BASE's page, or of its granule where granules interleave (R115, R233). Log entry 18. -/
def bindLimit (e : BitVec 64) (size va : Nat) : Nat :=
  let unit := if leafIlv e = 2 then 65536 else size
  unit - va % unit

/-- The binding of a translation register at an address: a walk that sets A, and D where W is 1 (R233). -/
def State.bindAt (s : State) (t : BitVec 3) (va hbound : Nat) (m : Mask) : Exit :=
  if s.failedKey va .read then .trap s (Trap.at .xlate va m)
  else
    match s.walk s.ctx va with
    | .leaf e entry size =>
      .done ((s.setAD entry (e.getLsbD 3)).mapRegs fun r =>
        r.putA t ⟨va, leafPhys e size va, bindLimit e size va, leafAttr e size, true, hbound⟩)
    | .malformed => .trap (s.report s.crew.socket s.ctx.id va 5 srcGroup) (Trap.at .xlate va m)
    | .absent =>
      if s.self.seenTl ≠ 0 then .trap s (Trap.at .xlate va m)
      else s.parkWhole .read [⟨m.lowest, va, .miss .absent⟩]

/-- ABIND and ABIND.h once their checks pass: nothing when no lane participates. -/
def State.abind (s : State) (w : Word) (g : BitVec 3) (x : BitVec 7) (k : State → DWord → Exit) : Step :=
  let m := s.part g
  s.frame w m [s.issueCheck {} false w m, operandIf (!isS x) w 3 m] [] fun s1 _ =>
    if m = 0 then .done s1 else k s1 (s.self.regs.sAt (x.toNat - 0x40))

/-- ABIND from a pointer (R233). -/
def execAbind (g : BitVec 3) (t : BitVec 3) (x : BitVec 7) (s : State) : Step :=
  s.abind (encode (.abind g t x)) g x fun s1 v =>
    if 2 ^ 56 ≤ v.toNat then .trap s1 (Trap.at .xlate v.toNat (s.part g))
    else s1.bindAt t v.toNat (2 ^ 56) (s.part g)

/-- ABIND.h from a handle that the context has opened (R233). -/
def execAbindH (g : BitVec 3) (t : BitVec 3) (x : BitVec 7) (s : State) : Step :=
  s.abind (encode (.abindH g t x)) g x fun s1 v =>
    let h := v.toNat % 2 ^ 32
    match s1.handleObj h with
    | none => .trap s1 (Trap.at .xlate h (s.part g))
    | some o =>
      if o.openOf s1.ctx.id = 0 then .trap s1 (Trap.at .xlate h (s.part g))
      else s1.bindAt t o.base o.size (s.part g)

/-! ### Acquire, release, atomics (R234 to R238) -/

/-- An acquire of FABRIC or POD scope on a die: its horizon is raised to at least that of every die whose release it
may read (R390). Log entry 19. -/
def State.acquireHorizon (s : State) (scope : Nat) : State :=
  if scope < 8 then s
  else
    let h := s.dies.toList.foldl (fun a d => max a d.horizon) 0
    s.mapDie s.crew.socket fun d => { d with horizon := max d.horizon h }

/-- The horizon of the issuer's die raised to the one that a release carried (R390). -/
def State.raiseHorizon (s : State) (h : Nat) : State :=
  s.mapDie s.crew.socket fun d => { d with horizon := max d.horizon h }

/-- An access that an open version refuses, once its translation register is valid: ATOM, RED, STL and LDA on global memory
(R227, R278). -/
def State.versioned (s : State) (m : Mask) (t : BitVec 3) : Bool := s.self.version.active && m != 0 && (s.treg t).valid

/-- The scope an instruction works at: HMOD SCOPE, or its default for code 0 (R235). -/
def State.scopeOr (s : State) (dflt : Nat) : Nat := if s.hmod.scope = 0 then dflt else s.hmod.scope.toNat

/-- LDA (R234): a queue destination takes the values once every lane has read. -/
def execLda (g : BitVec 3) (d : BitVec 7) (t : BitVec 3) (x : BitVec 7) (c : BitVec 4) (s : State) : Step :=
  let wd := encode (.lda g d t x c)
  let m := s.part g
  s.frame wd m
    [s.issueCheck { hmod := { tv := [7] }, run := .never } false wd m, operandIf (s.badDest false d) wd 0 m,
     operandIf (s.badSource x) wd 3 m, s.bounds d 1 m, s.bounds x 1 m]
    [x] fun s1 ps =>
      if s1.versioned m t then .trap s1 (Trap.at .version 0 m)
      else
        s1.fmGlobal wd m ⟨.read, true, false, s.hmod.tv == 7, 4, srcGroup, 0⟩ t (s.readV ps x) fun s2 l =>
          let r := s2.ldLanes 3 l
          let val : Lanes := Lanes.tab fun n => (laneVal (fun _ => 0, 0) r n).1 0
          let s3 := if r.isEmpty then s2 else s2.acquireHorizon c.toNat
          if isQ d then
            if l.all LaneAcc.isOk then s3.writeDest d wd m val
            else if (worst l).isSome then s2.finishLanes .read m (l.filter fun a => !a.isOk)
            else s2.parkWhole .read l
          else (s3.putV d (okMask l) val).finishLanes .read m l

/-- STL (R234): a release, which completes only when the replay queue is empty. D is checked as a source (R161; DEDUCED, log entry
80). -/
def execStl (g : BitVec 3) (d : BitVec 7) (t : BitVec 3) (x : BitVec 7) (c : BitVec 4) (s : State) : Step :=
  let wd := encode (.stl g d t x c)
  let m := s.part g
  s.frame wd m
    [s.issueCheck { hmod := { tv := [7] }, run := .never } false wd m, operandIf (s.badSource d) wd 0 m,
     operandIf (s.badSource x) wd 3 m, s.bounds d 1 m, s.bounds x 1 m]
    [d, x] fun s1 ps =>
      if s1.versioned m t then .trap s1 (Trap.at .version 0 m)
      else
        s1.releaseAt c.toNat fun s2 =>
          s2.fmGlobal wd m ⟨.write, false, false, s.hmod.tv == 7, 4, srcGroup, 0⟩ t (s.readV ps x) fun s3 l =>
            let b := s3.stBytes 3 (fun n _ => (s.readV ps d).at n) l
            ((s3.store b.1).publish c.toNat).finishLanes .write m l

/-- The new word of an atomic: old word, operand, second operand of cas (R236). -/
def atomNew (op : Nat) (zc : Bool) (m d e : Word) : Word :=
  match op with
  | 0 => m + d
  | 1 => m - d
  | 2 => minLane false m d
  | 3 => maxLane false m d
  | 4 => minLane true m d
  | 5 => maxLane true m d
  | 6 => m &&& d
  | 7 => m ||| d
  | 8 => m ^^^ d
  | 9 => d
  | 10 => if m = d then e else m
  | 11 => BitVec.ofNat 32 (fp32.add .rne false zc m.toNat d.toNat).1
  | 12 => BitVec.ofNat 32 (fp32.minMax false false m.toNat d.toNat)
  | _ => BitVec.ofNat 32 (fp32.minMax true false m.toNat d.toNat)

/-- The performed lanes of a global atomic in increasing order: the state and the old words (R128, R237). -/
def State.atomGlobal (op : Nat) (zc : Bool) (d e : Nat → Word) : List LaneAcc → State → State × List (Nat × Word)
  | [], s => (s, [])
  | a :: as, s =>
    match a.out with
    | .ok _ ca _ =>
      let old := BitVec.ofNat 32 (leNat (s.loadBytes ca 4))
      let s1 := s.applyStore (storeBytes ca a.va (leBytes 4 (atomNew op zc old (d a.lane) (e a.lane)).toNat))
      let r := State.atomGlobal op zc d e as s1
      (r.1, (a.lane, old) :: r.2)
    | _ => State.atomGlobal op zc d e as s

/-- The words of an atomic shown at its scope (R131, R145). -/
def State.exposeLanes (s : State) (scope : Nat) (l : List LaneAcc) : State :=
  s.expose scope fun u => l.any fun a => match a.out with
    | .ok _ ca _ => decide (ca ≤ u.ca) && decide (u.ca < ca + 4)
    | _ => false

/-- The lanes of a scratchpad atomic in increasing order (R128, R237). -/
def State.atomScratch (g op : Nat) (zc : Bool) (d e : Nat → Word) : List (Nat × Nat) → State → State × List (Nat × Word)
  | [], s => (s, [])
  | (n, o) :: os, s =>
    let old := BitVec.ofNat 32 (s.scrNum g o 4)
    let s1 := s.putScr g (placed o (leBytes 4 (atomNew op zc old (d n) (e n)).toNat))
    let r := State.atomScratch g op zc d e os s1
    (r.1, (n, old) :: r.2)

/-- The operand D of an atomic is refused (R236). -/
def badAtomD (op : BitVec 4) (d : BitVec 7) : Bool := if op = 10 then !isV d else !(isV d || isO d)

/-- An atomic or reduction (R236 to R238): `ret` writes the old words to D, else a relaxed miss may enter the replay
queue. -/
def State.atomic (s : State) (wd : Word) (ret : Bool) (g : BitVec 3) (d : BitVec 7) (t : BitVec 3) (x : BitVec 7)
    (op : BitVec 4) (p : BitVec 1) : Step :=
  let m := s.part g
  let scratch := p == 1
  let scope := s.scopeOr (if scratch then 2 else 5)
  let order := s.hmod.order.toNat
  s.frame wd m
    [s.issueCheck { hmod := { tv := [7], order := if ret then [1, 2, 3] else [2], scope := true }, run := .never }
       false wd m,
     operandIf (badAtomD op d) wd 0 m, operandIf (s.badSource x) wd 3 m, operandIf (scratch && t != 0) wd 4 m,
     s.bounds d (if op = 10 then 2 else 1) m, s.bounds x 1 m]
    [x] fun s1 ps =>
      if s.ctx.det ∧ 11 ≤ op.toNat ∧ 1 < scope ∧ m ≠ 0 then .trap s1 (Trap.at .detViolation 0 m)
      else if !scratch && s1.versioned m t then .trap s1 (Trap.at .version 0 m)
      else
        let from_ (k : State → Exit) : Exit := if 2 ≤ order then s1.releaseAt scope k else k s1
        let dv (n : Nat) : Word := (s.readData ps d 0).at n
        let ev (n : Nat) : Word := if op = 10 then (s.readData ps d 1).at n else 0
        let put (u : State) (r : List (Nat × Word)) : State :=
          let k : Mask := r.foldl (fun a c => a ||| Mask.one c.1) 0
          let u1 := if ret then u.putReg d 0 k (Lanes.tab (laneVal 0 r)) else u
          if (order = 1 ∨ order = 3) ∧ !r.isEmpty then u1.acquireHorizon scope else u1
        from_ fun s0 =>
        if scratch then
          s0.fmScratch m true 4 (s.readV ps x) fun s2 xs =>
            let r := State.atomScratch s2.self.unit.gang op.toNat s.zc dv ev xs s2
            .done (put r.1 r.2)
        else
          s0.fmGlobal wd m ⟨.write, true, false, s.hmod.tv == 7, 4, srcGroup, 0⟩ t (s.readV ps x) fun s2 l =>
            let r := State.atomGlobal op.toNat s.zc dv ev l s2
            let s3 := put (r.1.exposeLanes scope l) r.2
            if ret ∨ order ≠ 0 then s3.finishLanes .write m l
            else s3.finishStore wd false m l fun n => leBytes 4 (dv n).toNat

/-- ATOM (R236 to R238). -/
def execAtom (g : BitVec 3) (d : BitVec 7) (t : BitVec 3) (x : BitVec 7) (o : BitVec 4) (p : BitVec 1) (s : State) :
    Step := s.atomic (encode (.atom g d t x o p)) true g d t x o p
/-- RED (R236 to R238). -/
def execRed (g : BitVec 3) (d : BitVec 7) (t : BitVec 3) (x : BitVec 7) (o : BitVec 4) (p : BitVec 1) (s : State) :
    Step := s.atomic (encode (.red g d t x o p)) false g d t x o p

end Sys2Proof.Machine
end

