-- ==== Sys2Proof/Machine/Sync.lean ====
section
/-!
DEFINITION. Fences and memory waits (09 R239 to R241), barriers and the crew barrier (09 R249 to R252).
-/
namespace Sys2Proof.Machine

open Sys2Proof

/-- FENCE: a release waits for its unit's earlier stores (R142, R144); an acquire raises the horizon of its die (R239,
R390). -/
def execFence (g : BitVec 3) (s : State) : Step :=
  let w := encode (.fence g)
  let m := s.self.cur.lanes
  let o := s.hmod.order
  s.uniformFrame w g
    [s.issueCheck { hmod := { order := [1, 2, 3], scope := true }, issuer := .both, run := .never } (o == 0) w m] []
    fun s1 _ =>
      let take (t : State) : State := if o = 2 then t else t.acquireHorizon (s.scopeOr 5)
      if 2 ≤ o.toNat then s1.releaseAt (s.scopeOr 5) fun s2 => .done (take s2) else .done (take s1)

/-! ### WAITV -/

/-- The condition of a WAITV (R174). -/
def waitCond (w : BitVec 3) (x y : Word) : Bool :=
  match w.toNat with
  | 0 => x == y
  | 1 => x != y
  | 2 => decide (x.toInt < y.toInt)
  | 3 => decide (y.toInt ≤ x.toInt)
  | 4 => decide (x.toNat < y.toNat)
  | _ => decide (y.toNat ≤ x.toNat)

/-- The decode checks of WAITV (R240, R241). D, the register compared, may be any vector source (DEDUCED, log entries 80 and
83). -/
def State.waitvChecks (s : State) (wd : Word) (g : BitVec 3) (d : BitVec 7) (t : BitVec 3) (x : BitVec 7) (c : BitVec 2) :
    List (Option Trap) :=
  let m := s.part g
  let scr := s.hmod.tv == 1
  let h := s.hmod
  [s.issueCheck { hmod := { tv := [1, 7], order := [1], scope := true }, run := .never }
     (h.order == 0 && h.scope != 0 || scr && t != 0) wd m,
   operandIf (s.badSource d) wd 0 m, operandIf (s.badSource x) wd 3 m,
   operandIf (c == 1 && !s.self.cur.pfx.himm) wd 5 m, s.bounds d 1 m, s.bounds x 1 m]

/-- WAITV tested once: done when the condition holds in every lane, else `unmet` with the lanes it fails in (R240). -/
def State.waitvTest (s : State) (wd : Word) (g : BitVec 3) (d : BitVec 7) (t : BitVec 3) (x : BitVec 7) (w : BitVec 3)
    (c : BitVec 2) (unmet : State → Mask → Exit) : Step :=
  let m := s.part g
  let finish (s2 : State) (dv : Lanes) (r : List (Nat × Word)) : Exit :=
    let bad : Mask := (r.filter fun e => !waitCond w e.2 (dv.at e.1)).foldl (fun a e => a ||| Mask.one e.1) 0
    if bad = 0 then .done (if s.hmod.order = 1 then s2.acquireHorizon (s.scopeOr 5) else s2) else unmet s2 bad
  s.frame wd m (s.waitvChecks wd g d t x c) [d, x] fun s1 ps =>
    let dv := s.readV ps d
    if s.hmod.tv = 1 then
      s1.fmScratch m true 4 (s.readV ps x) fun s2 xs =>
        finish s2 dv (xs.map fun o => (o.1, BitVec.ofNat 32 (s2.scrNum s2.self.unit.gang o.2 4)))
    else
      s1.fmGlobal wd m ⟨.read, true, false, s.hmod.tv == 7, 4, srcGroup, 0⟩ t (s.readV ps x) fun s2 l =>
        if l.all LaneAcc.isOk then finish s2 dv ((s2.ldLanes 3 l).map fun r => (r.1, r.2.1 0))
        else if (worst l).isSome then s2.finishLanes .read m (l.filter fun a => !a.isOk)
        else s2.parkWhole .read l

/-- WAITV: the split waits without issuing until the condition holds in every participating lane (R240, R241). -/
def execWaitv (g : BitVec 3) (d : BitVec 7) (t : BitVec 3) (x : BitVec 7) (w : BitVec 3) (c : BitVec 2) (s : State) :
    Step :=
  let wd := encode (.waitv g d t x w c)
  let dl := if c = 1 then some ((s.dieAt s.crew.socket).ptime + s.self.cur.pfx.acc.toNat) else none
  s.waitvTest wd g d t x w c fun s1 _ => .wait s1 (.waitv (s.self.held wd) dl)

/-- A unit in front, its split in a slot issuing the instruction that it holds. -/
def State.resumeHeld (s : State) (h : HeldInsn) : State :=
  s.mapCur fun p => { p with pc := h.addr, pfx := h.pfx, wait := .none }

/-- The wait of a split of the unit in front may end: its crew is not being saved, no run is in flight, and its group does
not stand still (R30, R36, R370). -/
def State.mayEnd (s : State) : Bool := s.crew.area.isNone && !s.self.standsStill

/-- A waiting WAITV tested again: `late` says that its deadline has passed. -/
def State.waitvAgain (s : State) (h : HeldInsn) (dl : Option Nat) (late : Bool) : Step :=
  match decode h.word with
  | .ok (.waitv g d t x w c) =>
    (s.resumeHeld h).waitvTest h.word g d t x w c fun s1 bad =>
      if late then .trap s1 (Trap.at .progress 0 bad) else .wait s1 (.waitv h dl)
  | _ => s.absent

/-- A waiting WAITV reads its words again (R240). -/
def execWaitvRecheck (u : AgentKey) (slot : Nat) (s : State) : Step :=
  match s.focus u slot with
  | none => s.absent
  | some s1 =>
    match s1.self.cur.wait with
    | .waitv h dl => if s1.mayEnd then s1.waitvAgain h dl false else s.absent
    | _ => s.absent

/-- A WAITV's deadline has passed: PROGRESS in the lanes whose condition does not hold (R21, R241). -/
def execWaitvDeadline (u : AgentKey) (slot : Nat) (s : State) : Step :=
  match s.focus u slot with
  | none => s.absent
  | some s1 =>
    match s1.self.cur.wait with
    | .waitv h (some t) =>
      if (s1.dieAt s1.crew.socket).ptime < t ∨ !s1.mayEnd then s.absent else s1.waitvAgain h (some t) true
    | _ => s.absent

/-! ### Barriers (R249 to R251) -/

/-- The decode needs of a barrier instruction (R249). -/
def barNeeds (order : List (BitVec 2)) : Needs :=
  { hmod := if order.isEmpty then {} else { order := order, scope := true }, issuer := .both, run := .never }

/-- The barrier that A names (R249). -/
def State.barRef (s : State) (a : BitVec 5) (w : Word) (reads : Bool) : Except Trap ScrRef :=
  s.ref (s.sreg a) w 1 32 reads

/-- The bytes BINIT writes: PEND, EXP, REM, PHASE, POISON (R250). -/
def binitBytes (exp : Nat) : List Byte := (⟨0, exp, exp, 0, false⟩ : Bar).bytes

/-- BINIT (R250): the form of the reference and EXP are checked before the place of the barrier (R178, R249; log entry 48). -/
def execBinit (a b : BitVec 5) (s : State) : Step :=
  let w := encode (.binit a b)
  let e := (s.sreg b).toNat
  s.fx w (barNeeds []) [] fun s1 =>
    match firstTrap [s1.refForm (s1.sreg a) w 1, operandIf (e == 0 || decide (65535 < e)) w 2 s1.self.cur.lanes] with
    | some t => .trap s1 t
    | none =>
      Exit.withRef s1 (s1.barRef a w false) fun r => .done (s1.putScr r.gang (placed r.off (binitBytes e)))

/-- BARV: an arrival, as a release (R250). -/
def execBarv (d a : BitVec 5) (s : State) : Step :=
  let w := encode (.barv d a)
  s.fx w (barNeeds [2]) [] fun s1 =>
    Exit.withRef s1 (s1.barRef a w true) fun r =>
      s1.releaseAt (s.scopeOr 2) fun s2 =>
        let b := s2.crew.bar r
        if b.poison then .done (s2.putD d (BitVec.ofNat 64 b.phase))
        else if b.rem = 0 then (s2.poisonBar s2.crew.key r).stop .barrierPoison 0
        else .done ((s2.arrive s2.crew.key r).putD d (BitVec.ofNat 64 b.phase))

/-- BEXP: bytes expected (R250). -/
def execBexp (a b : BitVec 5) (s : State) : Step :=
  let w := encode (.bexp a b)
  s.fx w (barNeeds []) [] fun s1 =>
    Exit.withRef s1 (s1.barRef a w true) fun r =>
      if (s1.crew.bar r).poison then .done s1
      else .done (s1.updateBar s1.crew.key r fun x => { x with pend := (BitVec.ofInt 64 (x.pend + (s.sreg b).toInt)).toInt })

/-- BWAIT: waits until the barrier has advanced past phase B; a poisoned one raises BARRIER_POISON (R251). -/
def execBwait (a b : BitVec 5) (s : State) : Step :=
  let w := encode (.bwait a b)
  s.fx w (barNeeds [1]) [] fun s1 =>
    Exit.withRef s1 (s1.barRef a w true) fun r =>
      let x := s1.crew.bar r
      if x.poison then s1.stop .barrierPoison 0
      else if x.past (s.sreg b).toNat then .done (s1.acquireHorizon (s.scopeOr 2))
      else .wait s1 .poll

/-- BTEST: 2 for a poisoned barrier, 1 past the phase, else 0 (R251; that 2 stands before 1 is a DESIGN CHOICE, log entry 68). -/
def execBtest (d a b : BitVec 5) (s : State) : Step :=
  let w := encode (.btest d a b)
  s.fx w (barNeeds [1]) [] fun s1 =>
    Exit.withRef s1 (s1.barRef a w true) fun r =>
      let x := s1.crew.bar r
      if x.poison then .done (s1.putD d 2)
      else if x.past (s.sreg b).toNat then .done ((s1.acquireHorizon (s.scopeOr 2)).putD d 1)
      else .done (s1.putD d 0)

/-! ### CBAR (R252) -/

/-- Every member of the crew in front has arrived, or has retired with no store left in its replay queue (R142, R252). -/
def State.cbarFull (s : State) : Bool :=
  !s.crew.cbar.isEmpty &&
  (s.self :: s.crew.agents).all fun a => (a.gone && a.replay.isEmpty) || s.crew.cbar.contains a.unit

/-- A member released from CBAR: its path goes on at the next word. -/
def Agent.leaveCbar (a : Agent) : Agent :=
  match a.cur.wait with
  | .cbar h => { a with cur := { a.cur with pc := h.addr + 4, wait := .none, only := none } }.retire1
  | _ => a

/-- A crew that is not in front goes on once every member has arrived (R22, R252). -/
def Crew.settleCbar (c : Crew) : Crew :=
  if !c.cbar.isEmpty && c.agents.all fun a => (a.gone && a.replay.isEmpty) || c.cbar.contains a.unit then
    { c with
      agents := c.agents.map fun a =>
        let b := a.leaveCbar
        if b.unit.gaffer then b else { b with retired := 0 }
      cbar := [] }
  else c

/-- The crew in front goes on once every member has arrived: the counts of its gangs restart (R22, R252). -/
def State.settleCbar (s : State) : State :=
  if s.cbarFull then
    let s1 : State := { s with
      self := s.self.leaveCbar
      crew := { s.crew with agents := s.crew.agents.map Agent.leaveCbar, cbar := [] } }
    s1.closeCount s.crew.key none
  else s

/-- CBAR: the unit arrives, and goes on when every member of its crew has (R252). -/
def execCbar (s : State) : Step :=
  let w := encode .cbar
  s.fx w (barNeeds []) [operandIf (!s.self.whole) w 5 s.self.cur.lanes] fun s1 =>
    s1.releaseAt 4 fun s2 =>
      let h := s2.self.held w
      let s3 := s2.mapSelf fun a => a.hold (.cbar h)
      .moved ({ s3 with crew := { s3.crew with cbar := s3.self.unit :: s3.crew.cbar } }).settleCbar

end Sys2Proof.Machine
end

