-- ==== Sys2Proof/Machine/Copy.lean ====
section
/-!
DEFINITION. The Blowpipe: copies at issue (09 R243 to R245) and as engine threads, one destination sector or CPYE unit at
a time (04 R123 to R127, 09 R246 to R248).
-/
namespace Sys2Proof.Machine

open Sys2Proof

/-! ### The control block (R123) -/

/-- ROWS. -/
def Copy.rows (c : Copy) : Nat := fieldAt c.block 0x10 4
/-- ROWBYTES. -/
def Copy.rowBytes (c : Copy) : Nat := fieldAt c.block 0x14 4
/-- SRC. -/
def Copy.src (c : Copy) : Nat := fieldAt c.block 0 8
/-- DST. -/
def Copy.dst (c : Copy) : Nat := fieldAt c.block 8 8
/-- SPITCH. -/
def Copy.spitch (c : Copy) : Int := signedOf 32 (fieldAt c.block 0x18 4)
/-- DPITCH. -/
def Copy.dpitch (c : Copy) : Int := signedOf 32 (fieldAt c.block 0x1C 4)
/-- BAR; none for 0xFFFF_FFFF. -/
def Copy.bar (c : Copy) : Option ScrRef :=
  let b := fieldAt c.block 0x20 4
  if b = 0xFFFFFFFF then none else some ⟨c.place.gang, b⟩
/-- CORES. -/
def Copy.cores (c : Copy) : Nat := fieldAt c.block 0x24 1
/-- The source lies in a scratchpad (R243). -/
def Copy.srcScr (c : Copy) : Bool := c.kind == 1 || c.kind == 3 || c.kind == 5
/-- The destination lies in a scratchpad (R243). -/
def Copy.dstScr (c : Copy) : Bool := c.kind == 0 || c.kind == 3 || c.kind == 4
/-- The destinations that count bytes separately (R105, R125). -/
def Copy.targets (c : Copy) : List Nat :=
  if c.kind = 4 then (List.range 4).filter fun g => c.cores / 2 ^ g % 2 == 1 else []
/-- The bytes counted for one row and one destination (R243). -/
def Copy.rowCount (c : Copy) : Nat := if c.kind = 5 then 1024 else c.rowBytes
/-- The number of destinations. -/
def Copy.ways (c : Copy) : Nat := if c.kind = 4 then c.targets.length else 1

/-! ### Issue (R245) -/

/-- Check 3: fields of the block (R123, R243, R244). -/
def Copy.badFields (c : Copy) (crew : Crew) (u : UnitKey) : Bool :=
  decide (16 ≤ c.cores) || !zeroAt c.block 0x25 11 || c.rows == 0 || c.rowBytes == 0 ||
  decide (2 ^ 24 < c.rowBytes) || (c.kind == 5 && c.rowBytes != 4096) || ((c.kind == 4) != (c.cores != 0)) ||
  c.targets.any (fun g => (crew.gangs[g]?).isNone) ||
  (c.srcScr && (crew.refOf u c.src).isNone) || (c.dstScr && c.kind != 4 && (crew.refOf u c.dst).isNone) ||
  (c.kind == 4 && decide (2 ^ 35 ≤ c.dst))

/-- Check 4: alignment (R244, R245). -/
def Copy.misaligned (c : Copy) : Bool :=
  (match c.bar with | none => false | some b => b.off % 32 != 0) ||
  (c.kind == 5 && (c.src % 4 != 0 || c.spitch % 4 != 0 || c.dst % 1024 != 0 || c.dpitch % 1024 != 0))

/-- The first row of a scratchpad end that reaches outside `size` bytes: its offset (R245). -/
def outsideRow (off : Nat) (pitch : Int) (rows bytes size : Nat) : Option Int :=
  [(off : Int), (off : Int) + (rows - 1 : Nat) * pitch].find? fun a => decide (a < 0) || decide ((size : Int) < a + bytes)

/-- The scratchpad ends of a copy: sizes, offsets and pitches. -/
def Copy.ends (c : Copy) (crew : Crew) (u : UnitKey) : List (Nat × Nat × Int) :=
  let one (v : Nat) (p : Int) : List (Nat × Nat × Int) :=
    match crew.refOf u v with
    | none => []
    | some r => [(crew.sizeOf r, r.off, p)]
  (if c.srcScr then one c.src c.spitch else []) ++
  (if c.kind = 4 then c.targets.map fun g => (crew.sizeOf ⟨g, 0⟩, c.dst % 2 ^ 32, c.dpitch)
   else if c.dstScr then one c.dst c.dpitch else [])

/-- Check 5: the offset that leaves its scratchpad (R104, R245): where its first row or its last begins, or a BAR whose barrier
passes S (DESIGN CHOICE, log entry 84). -/
def Copy.outside (c : Copy) (crew : Crew) (u : UnitKey) : Option Int :=
  let bar := match c.bar with
    | none => none
    | some b => if crew.sizeOf b < b.off + 32 then some (b.off : Int) else none
  ((c.ends crew u).findSome? fun e => outsideRow e.2.1 e.2.2 c.rows c.rowBytes e.1).or bar

/-- DONE and STATUS written in the control block (R123). -/
def Crew.putStatus (crew : Crew) (c : Copy) : Crew :=
  (crew.putNum c.place.gang (c.place.off + 0x30) 8 c.done).putNum c.place.gang (c.place.off + 0x38) 4 c.status

/-- Copies held by a cluster (R245). -/
def State.copiesHeld (s : State) : Nat :=
  ((s.allCrews.filter fun c => c.socket == s.crew.socket && c.cluster == s.crew.cluster).map fun c =>
    c.copies.length).sum

/-- The code of a rounding mode. -/
def Rm.code : Rm → Nat
  | .rne => 0
  | .rtz => 1
  | .rup => 2
  | .rdn => 3

/-- The needs of a copy (R243, R418). -/
def copyNeeds (kind : Nat) : Needs where
  hmod := { scope := true, rnd := kind == 5, sat := kind == 5 }
  feat := if kind = 5 then 1 else 0
  issuer := .both
  run := .never

/-- A copy instruction (R243, R245): kind, A, B, .y. With .y the unit yields until the copy ends (R36, R248). -/
def State.issueCopy (s : State) (w : Word) (kind : Nat) (a b : BitVec 5) (y : BitVec 1) : Step :=
  let m := s.self.cur.lanes
  s.fx w (copyNeeds kind) [] fun s1 =>
    Exit.withRef s1 (s1.ref (s1.sreg a) w 1 64 true) fun r =>
      let c : Copy := {
        id := s1.crew.nextCopy, kind := kind, block := s1.crew.scrBytes r.gang r.off 0x40, place := r, done := 0
        status := 0, issuer := s1.self.unit, cont := if y = 1 then some (s1.sreg b) else none
        scope := s1.scopeOr 2, rnd := s1.rm.code, sat := s1.sat, keys := [] }
      if c.badFields s1.crew s1.self.unit then s1.stop .illegalOperand (operandVal w 5)
      else if c.misaligned then s1.stop .misaligned 0
      else
        match c.outside s1.crew s1.self.unit with
        | some o => s1.stop .xlate (BitVec.ofInt 64 o).toNat
        | none =>
          if y = 1 ∧ (s1.sreg b).toNat % 4 ≠ 0 then .trap s1 (Trap.at .illegalOperand (operandVal w 2) m)
          else if 64 ≤ s1.copiesHeld then .wait s1 .poll
          else
            let s2 : State := { s1 with crew := { s1.crew with
              copies := s1.crew.copies ++ [c], nextCopy := s1.crew.nextCopy + 1 }.putStatus c }
            if y = 1 then .moved (s2.advance.mapCur fun p => { p with wait := .copy c.id (s1.sreg b) }) else .done s2

/-- CPY: global to scratchpad (R243). -/
def execCpy (a b : BitVec 5) (y : BitVec 1) (s : State) : Step := s.issueCopy (encode (.cpy a b y)) 0 a b y
/-- CPYO: scratchpad to global (R243). -/
def execCpyo (a b : BitVec 5) (y : BitVec 1) (s : State) : Step := s.issueCopy (encode (.cpyo a b y)) 1 a b y
/-- CPYG: global to global (R243). -/
def execCpyg (a b : BitVec 5) (y : BitVec 1) (s : State) : Step := s.issueCopy (encode (.cpyg a b y)) 2 a b y
/-- CPYS: scratchpad to scratchpad (R243). -/
def execCpys (a b : BitVec 5) (y : BitVec 1) (s : State) : Step := s.issueCopy (encode (.cpys a b y)) 3 a b y
/-- CPYM: global to several scratchpads (R105, R243). -/
def execCpym (a b : BitVec 5) (y : BitVec 1) (s : State) : Step := s.issueCopy (encode (.cpym a b y)) 4 a b y
/-- CPYE: FP32 units encoded into a binary8 page (R244). -/
def execCpye (a b : BitVec 5) (y : BitVec 1) (s : State) : Step := s.issueCopy (encode (.cpye a b y)) 5 a b y

/-! ### The copy as it runs -/

/-- A copy of a crew replaced. -/
def Crew.putCopy (crew : Crew) (c : Copy) : Crew :=
  ({ crew with copies := crew.copies.map fun (x : Copy) => if x.id = c.id then c else x }).putStatus c

/-- A path that yielded on a copy resumes at its continuation (R36, R248). -/
def Path.resumeCopy (id : Nat) (p : Path) : Path :=
  match p.wait with
  | .copy k cont => if k = id then { p with pc := cont, wait := .none } else p
  | _ => p

/-- A copy at its end: status 3 or 4 written, its barrier poisoned when it failed, its issuer resumed (R127, R248). An issuer that
resumes from a .y observes what the copy has written (R134). -/
def State.endCopy (s : State) (k : CrewKey) (c : Copy) (status : Nat) : State :=
  let s1 := s.mapCrewAt k fun x =>
    { (x.putStatus { c with status := status }) with copies := x.copies.filter fun y => y.id != c.id }
  let s2 := match status, c.bar with
    | 4, some b => s1.poisonBar k b
    | _, _ => s1
  let s3 := if status = 3 ∧ c.cont.isSome then
      s2.expose 1 fun u => u.writer.unit == ⟨k, c.issuer⟩ && u.writer.engine == some (2 * c.id + 1) else s2
  s3.mapUnit ⟨k, c.issuer⟩ fun a => a.mapPaths (Path.resumeCopy c.id)

/-- A copy parked at a sector (R126). -/
def State.parkCopy (s : State) (k : CrewKey) (c : Copy) (ks : List MergeKey) : State :=
  s.mapCrewAt k fun x => x.putCopy { c with status := 2, keys := ks }

/-- The bytes that a copy with a barrier counts, and the scales under them, are released at the copy's scope (R140, R145, R244). -/
def State.countExpose (s : State) (c : Copy) (l : List (Nat × Nat × Attr)) : State :=
  if c.bar.isSome then s.expose c.scope fun u => l.any fun b => b.1 == u.ca else s

/-- Bytes of a copy counted, one destination's sector after another (R125). -/
def State.countCopy (s : State) (k : CrewKey) (c : Copy) (parts : List Nat) : State :=
  let total := c.done + parts.sum
  let s1 := match c.bar with
    | none => s
    | some b => parts.foldl (fun t n => t.countBytes k b n) s
  let c1 := { c with done := total, status := 1, keys := [] }
  if total = c.rows * c.rowCount * c.ways then s1.endCopy k c1 3 else s1.mapCrewAt k fun x => x.putCopy c1

/-- The source bytes of a sector (R246, R247). -/
def State.copySource (s : State) (crew : Crew) (ctx : Context) (c : Copy) (sa : Int) (n : Nat) :
    State × Except (Option (List MergeKey)) (List Byte) :=
  if c.srcScr then
    match crew.refOf c.issuer c.src with
    | none => (s, .error none)
    | some r =>
      let bad := (List.range n).any fun i =>
        ((crew.gangs[r.gang]?).map fun x => x.pois.contains ((sa.toNat + i) / 256)).getD false
      if bad then (s, .error none) else (s, .ok (crew.scrBytes r.gang sa.toNat n))
  else
    match State.engSpan crew.socket ctx .read srcCopy (n + 2) sa n s with
    | (s1, .ok l) => (s1, .ok (s1.spanBytes l))
    | (s1, .wait ks) => (s1, .error (some ks))
    | (s1, .fail) => (s1, .error none)

/-- Where a copy is to read and write next: the source and destination addresses or offsets, and the bytes to move. A CPYE
moves whole units, 4096 bytes of source for 1024 of destination (R125, R244). -/
structure CopyStep where
  sa : Int
  da : Int
  n : Nat

/-- The next step of a copy. -/
def Copy.next (c : Copy) (crew : Crew) : CopyStep :=
  let off (v : Nat) : Int := ((crew.refOf c.issuer v).map (·.off)).getD 0
  let srcOff : Int := if c.srcScr then off c.src else c.src
  let dstOff : Int := if c.kind = 4 then c.dst % 2 ^ 32 else if c.dstScr then off c.dst else c.dst
  if c.kind = 5 then
    let u : Int := (c.done / 1024 : Nat)
    ⟨srcOff + u * c.spitch, dstOff + u * c.dpitch, 1024⟩
  else
    let pos := c.done / c.ways
    let row : Int := (pos / c.rowBytes : Nat)
    let p := pos % c.rowBytes
    let da := dstOff + row * c.dpitch + p
    ⟨srcOff + row * c.spitch + p, da, min (c.rowBytes - p) (256 - (da % 256).toNat)⟩

/-- The issuer of a copy holds a queued store on a page of the bytes from `va`: the copy, which is hb-after the stores before
its issue, waits for it (R136, R140, R142). -/
def State.copyWaits (s : State) (k : CrewKey) (c : Copy) (va : Int) (n : Nat) : Bool :=
  ((s.unitAt ⟨k, c.issuer⟩).map fun a => a.queuedPage [va.toNat, (va + n - 1).toNat]).getD false

/-- The next step of a copy waits for a queued store of its issuer. -/
def State.copyHeld (s : State) (crew : Crew) (c : Copy) : Bool :=
  let x := c.next crew
  (!c.srcScr && s.copyWaits crew.key c x.sa x.n) || (!c.dstScr && s.copyWaits crew.key c x.da x.n)

/-- One destination sector of a copy that moves bytes (R125, R126). -/
def State.copySector (s : State) (crew : Crew) (ctx : Context) (c : Copy) : State :=
  let k := crew.key
  let sa := (c.next crew).sa
  let da := (c.next crew).da
  let n := (c.next crew).n
  match s.copySource crew ctx c sa n with
  | (s1, .error none) => s1.endCopy k c 4
  | (s1, .error (some ks)) => s1.parkCopy k c ks
  | (s1, .ok bs) =>
    if c.dstScr then
      let gs := if c.kind = 4 then c.targets else (crew.refOf c.issuer c.dst).toList.map (·.gang)
      let s2 := s1.mapCrewAt k fun x => gs.foldl (fun y g => y.putScr g (placed da.toNat bs)) x
      s2.countCopy k c (gs.map fun _ => n)
    else
      match State.engSpan crew.socket ctx .write srcCopy (n + 2) da n s1 with
      | (s2, .ok l) => ((s2.putSpan (crew.copyWriter c) l bs).countExpose c l).countCopy k c [n]
      | (s2, .wait ks) => s2.parkCopy k c ks
      | (s2, .fail) => s2.endCopy k c 4

/-- A value times 2^-s, exactly (R64). -/
def Num.scaleDown (x : Num) (s : Int) : Num :=
  match x with
  | .fin n m e => .fin n m (e - s)
  | y => y

/-- The scale exponent of block `j` among the words of a unit at page offset `y` (R64). -/
def unitExp (f : B8) (geom y : Nat) (ws : List Word) (j : Nat) : Int :=
  if geom = 0 then 0
  else
    let ms := ((List.range 1024).zip ws).filterMap fun e =>
      if blockIndex geom (y + e.1) = j then some (finMag e.2) else none
    blockExp f (ms.foldl magMax (0, 0))

/-- The blocks that a unit at page offset `y` covers (R61). -/
def unitBlocks (geom y : Nat) : List Nat :=
  if geom = 0 then [] else ((List.range 1024).map fun i => blockIndex geom (y + i)).eraseDups

/-- The encoded bytes of a unit (R59, R64, R244). -/
def unitBytes (f : B8) (geom y : Nat) (rm : Rm) (sat : Bool) (ws : List Word) : List Byte :=
  let exps := (unitBlocks geom y).map fun j => (j, unitExp f geom y ws j)
  ((List.range 1024).zip ws).map fun e =>
    let s := laneVal 0 exps (blockIndex geom (y + e.1))
    BitVec.ofNat 8 (f.encode rm sat ((fp32.unpack e.2.toNat).scaleDown (if geom = 0 then 0 else s))).1

/-- One unit of a CPYE (R244): the scale bytes first, then the data, counted by sectors; a unit outside its page's regions,
or a page that is not binary8, is a FORMAT condition (R246). -/
def State.copyUnit (s : State) (crew : Crew) (ctx : Context) (c : Copy) : State :=
  let k := crew.key
  let sa := (c.next crew).sa
  let da := (c.next crew).da
  match s.copySource crew ctx c sa 4096 with
  | (s1, .error none) => s1.endCopy k c 4
  | (s1, .error (some ks)) => s1.parkCopy k c ks
  | (s1, .ok bs) =>
    match State.engSpan crew.socket ctx .write srcCopy 3 da 1024 s1 with
    | (s2, .wait ks) => s2.parkCopy k c ks
    | (s2, .fail) => s2.endCopy k c 4
    | (s2, .ok l) =>
      match s2.engAt crew.socket ctx .write srcCopy da with
      | (s3, .ok pa _ a) =>
        let y := da.toNat % a.size
        let scales := (unitBlocks a.geom y).map fun j => da - y + scaleOffset a.size j
        if !fmtB8 a.fmt || (a.geom != 0 && decide (31 * (a.size / 32) < y + 1024)) then
          (s3.reportFormat crew.socket ctx.id da.toNat srcCopy).endCopy k c 4
        else if scales.any fun va => s.copyWaits k c va 1 then s
        else
          let f := B8.ofBits a.fmt
          let ws := (List.range 1024).map fun i => BitVec.ofNat 32 (leNat (slice bs (4 * i) 4))
          let sc := (unitBlocks a.geom y).filterMap fun j =>
            (canonical (samePage a.ilv pa y (scaleOffset a.size j))).map fun ca =>
              (ca, BitVec.ofInt 8 (unitExp f a.geom y ws j + 128))
          let s4 := (s3.putAll (crew.copyWriter c) sc).putSpan (crew.copyWriter c) l
            (unitBytes f a.geom y (Rm.ofCode c.rnd) c.sat ws)
          (s4.countExpose c (l ++ sc.map fun e => (e.1, 0, a))).countCopy k c [256, 256, 256, 256]
      | (s3, _) => s3.endCopy k c 4

/-- A copy may take its next step: the copies of its crew start in issue order (R246; DEDUCED, log entry 86). -/
def Crew.copyTurn (crew : Crew) (c : Copy) : Bool :=
  c.status != 0 || !crew.copies.any fun y => y.status == 0 && decide (y.id < c.id)

/-- COPY_SECTOR_COUNT: a copy that waits on no page writes and counts its next destination sector (R125, R126). -/
def execCopySectorCount (k : CrewKey) (id : Nat) (s : State) : Step :=
  match s.crewAt k with
  | none => s.absent
  | some crew =>
    match crew.copies.find? fun c => c.id == id, s.crewCtx crew with
    | some c, some ctx =>
      if !c.keys.isEmpty || !crew.copyTurn c || s.copyHeld crew c then s.absent
      else .next (if c.kind = 5 then s.copyUnit crew ctx c else s.copySector crew ctx c)
    | _, _ => s.absent

end Sys2Proof.Machine
end

