-- ==== Sys2Proof/Machine/Link.lean ====
section
/-!
DEFINITION. Credited links (21 R399) and the flits that leave for other parts on them (21 R389).
-/
namespace Sys2Proof.Machine

open Sys2Proof

/-! ### Credits (R399) -/

/-- The number of a link. -/
def linkNum : LinkKey → Nat
  | .interposer d l => 8 * d + l
  | .port p => 1000 + p

/-- A link is credited: an interposer link, or a pod port that runs CBFC (R399). -/
def PodCfg.credited (p : PodCfg) : LinkKey → Bool
  | .interposer d l => decide (d < 10) && decide (l < 8)
  | .port n => decide (n < 32) && p.podPorts.testBit n && p.cbfc.testBit n

/-- A virtual channel of a link before any flit: every buffer is a credit. -/
def Credit.fresh (l : LinkKey) (vc : Nat) : Credit :=
  let b := (Config.creditBuffers (linkNum l) vc).val + 1
  ⟨l, vc, b, 0, 0, b⟩

/-- The credit counts of a virtual channel. -/
def State.creditOf (s : State) (l : LinkKey) (vc : Nat) : Credit :=
  (s.credits.find? fun c => c.link == l && c.vc == vc).getD (Credit.fresh l vc)

/-- The credit counts of a virtual channel replaced. -/
def State.putCredit (s : State) (c : Credit) : State :=
  { s with credits := c :: s.credits.filter fun x => !(x.link == c.link && x.vc == c.vc) }

/-- A flit may leave: its link is not credited, or a credit is left. -/
def State.canSend (s : State) (l : LinkKey) (vc : Nat) : Bool := !s.pod.credited l || decide (0 < (s.creditOf l vc).cred)

/-- A flit leaves. -/
def State.spend (s : State) (l : LinkKey) (vc : Nat) : State :=
  if s.pod.credited l then
    let c := s.creditOf l vc
    s.putCredit { c with sent := (c.sent + 1) % 65536, cred := c.cred - 1 }
  else s

/-- A flit crosses an interposer link: it takes a credit, and its buffer is freed on the other side (log entry 28). -/
def State.cross (s : State) (l : LinkKey) (vc : Nat) : State :=
  let t := s.spend l vc
  t.putCredit { t.creditOf l vc with freed := ((t.creditOf l vc).freed + 1) % 65536 }

/-- The pod port through which the part reaches another: the port of the route, where that is a pod port (R389, R400). -/
def PodCfg.outPort (p : PodCfg) (part : Nat) : Option Nat := (Config.route p.part part).filter fun q => p.podPorts.testBit q

/-- The interposer link from the hub to I/O die 9, which a flit for one of that die's ports takes (R391). -/
def dieNineLink : LinkKey := .interposer 8 0

/-- The link between the dies gives way to a flit for a port: only those of I/O die 9 need it (R391, R399). -/
def State.canReach (s : State) (port vc : Nat) : Bool := decide (port < 16) || s.canSend dieNineLink vc

/-- A flit of the hub on its way to a port crosses to I/O die 9 where the port is that die's (R391, R399). -/
def State.reachPort (s : State) (port vc : Nat) : State := if port < 16 then s else s.cross dieNineLink vc

/-- Flits already wait for a credit of a virtual channel. -/
def State.linkWaits (s : State) (l : LinkKey) (vc : Nat) : Bool := s.flits.any fun f => f.1 == l && f.2.1 == vc

/-- A flit sent on a virtual channel of a link, behind those that wait for a credit there (R399). -/
def State.sendOn (s : State) (l : LinkKey) (vc : Nat) (m : Msg) : State :=
  if s.linkWaits l vc || !s.canSend l vc then { s with flits := s.flits ++ [(l, vc, m)] } else (s.spend l vc).send m

/-- A flit for another part sent through the port of its route (R389; log entry 22). -/
def State.sendTo (s : State) (part vc : Nat) (m : Msg) : State :=
  match s.pod.outPort part with
  | none => s.send m
  | some q => s.sendOn (.port q) vc m

/-- The flits that wait tried again, in order. -/
def State.drainFlits (s : State) : State := s.flits.foldl (fun t f => t.sendOn f.1 f.2.1 f.2.2) { s with flits := [] }

/-- Credits that come back in a step: at most those of the flits that are out (R399; log entry 28). -/
def Credit.returned (c : Credit) (tick : Nat) : Credit :=
  { c with cred := c.cred + min (c.buffers - c.cred) (Config.creditReturn tick (linkNum c.link) c.vc) }

/-- The credits of every link after a step. -/
def State.returnCredits (s : State) : State := { s with credits := s.credits.map fun c => c.returned s.tick }

/-- A flit has arrived and its buffer is freed. -/
def State.freeBuffer (s : State) (l : LinkKey) (vc : Nat) : State :=
  if s.pod.credited l then
    let c := s.creditOf l vc
    s.putCredit { c with freed := (c.freed + 1) % 65536 }
  else s

/-- A flit of another part has arrived through the port of the route to it (log entry 28). -/
def State.freeFrom (s : State) (part vc : Nat) : State :=
  match s.pod.outPort part with
  | none => s
  | some q => s.freeBuffer (.port q) vc

end Sys2Proof.Machine
end

