-- ==== Sys2Proof/Machine/Task.lean ====
section
/-!
DEFINITION. Task queues, FETCHW and versions (01 R39 to R41, 05 R147, 10 R271 to R278).
-/
namespace Sys2Proof.Machine

open Sys2Proof

/-! ### Queues of the package -/

/-- The parts of the pod domain; the part alone before a domain is set (R274). -/
def PodCfg.members (p : PodCfg) : List Nat := if p.domain.isEmpty then [p.part] else p.domain
/-- A configured queue. -/
def State.queueAt (s : State) (q : Nat) : Option TaskQueue := s.queues.find? fun x => x.num == q
/-- A configured queue that a context owns (R272). -/
def State.ownedQueue (s : State) (c : CtxId) (q : Nat) : Option TaskQueue := (s.queueAt q).filter fun x => x.owner == c
/-- A queue put under its number. -/
def State.putQueue (s : State) (t : TaskQueue) : State :=
  { s with queues :=
      if s.queues.any fun x => x.num == t.num then s.queues.map fun x => if x.num = t.num then t else x
      else s.queues ++ [t] }
/-- Entries placed by QPUSH and not yet popped (R274). -/
def TaskQueue.pushed (t : TaskQueue) : Nat := (t.entries.filter fun e => e.src.isNone).length
/-- Slots held by a source part's RENQ entries (R274). -/
def TaskQueue.heldBy (t : TaskQueue) (src : Nat) : Nat := (t.entries.filter fun e => e.src == some src).length
/-- The queue is full for QPUSH (R274). -/
def State.queueFull (s : State) (t : TaskQueue) : Bool :=
  decide (t.cap ≤ t.pushed + t.resv * s.pod.members.length)

/-- A status of a task or Punty instruction as D receives it from R272. -/
abbrev taskOk : Nat := 0
/-- CLOSED. -/
abbrev taskClosed : Nat := 1
/-- NOQUEUE. -/
abbrev taskNoQueue : Nat := 2
/-- UNREACHABLE. -/
abbrev taskUnreachable : Nat := 3

/-- The needs of an FX instruction of this chapter (R257, R271). -/
def fxNeeds (feat : Nat) (u : HmodUse) (issuer : Issuer) : Needs where
  hmod := u
  feat := feat
  issuer := issuer
  run := .never

/-- A queue identifier: the queue, or ILLEGAL_OPERAND (R271). -/
def State.queueId (s : State) (a : BitVec 5) (w : Word) : Except Trap Nat :=
  let v := (s.sreg a).toNat
  if 4096 ≤ v then .error (Trap.at .illegalOperand (operandVal w 1) s.self.cur.lanes) else .ok v

/-- What follows a checked value. -/
def Exit.withVal {α : Type} (s : State) (r : Except Trap α) (k : α → Exit) : Exit :=
  match r with
  | .error t => .trap s t
  | .ok x => k x

/-- QPOP: the acquire of a RENQ entry raises the horizon of the die to the one that the entry carries (R273, R390). -/
def execQpop (d a b : BitVec 5) (s : State) : Step :=
  let w := encode (.qpop d a b)
  s.fx w (fxNeeds 0 {} .both) [] fun s1 =>
    Exit.withVal s1 (s1.queueId a w) fun q =>
      Exit.withRef s1 (s1.ref (s1.sreg b) w 2 32 false) fun r =>
        match s1.ownedQueue s1.ctx.id q with
        | none => .done (s1.putD d taskNoQueue)
        | some t =>
          match t.entries with
          | [] => if t.closed then .done (s1.putD d taskClosed) else .wait s1 .poll
          | e :: es =>
            let s2 := (s1.putQueue { t with entries := es }).putScr r.gang (placed r.off e.bytes)
            .done ((s2.raiseHorizon e.horizon).putD d taskOk)

/-- QPUSH: a release at PACKAGE scope (R273, R274). -/
def execQpush (d a b : BitVec 5) (s : State) : Step :=
  let w := encode (.qpush d a b)
  s.fx w (fxNeeds 0 {} .both) [] fun s1 =>
    Exit.withVal s1 (s1.queueId a w) fun q =>
      Exit.withRef s1 (s1.ref (s1.sreg b) w 2 32 true) fun r =>
        s1.releaseAt 6 fun s2 =>
          match s2.ownedQueue s2.ctx.id q with
          | none => .done (s2.putD d taskNoQueue)
          | some t =>
            if t.closed then .done (s2.putD d taskClosed)
            else if s2.queueFull t then .wait s2 .poll
            else
              .done ((s2.putQueue { t with entries := t.entries ++ [⟨s2.scrBytes r.gang r.off 32, none, 0⟩] }).putD d taskOk)

/-- The word of QSTAT (R275). -/
def TaskQueue.statWord (t : TaskQueue) : DWord :=
  BitVec.ofNat 64 (t.closed.toNat * 2 ^ 63 + t.drops % 256 * 2 ^ 48 + t.cap % 2 ^ 24 * 2 ^ 24 + t.entries.length % 2 ^ 24)

/-- QSTAT (R275). -/
def execQstat (d a : BitVec 5) (s : State) : Step :=
  let w := encode (.qstat d a)
  s.fx w (fxNeeds 0 {} .both) [] fun s1 =>
    Exit.withVal s1 (s1.queueId a w) fun q =>
      .done (s1.putD d (match s1.ownedQueue s1.ctx.id q with
        | none => 0xFFFFFFFFFFFFFFFF#64
        | some t => t.statWord))

/-! ### RENQ (R274) -/

/-- A remote queue identifier: part and queue, or ILLEGAL_OPERAND (R271). -/
def State.remoteId (s : State) (a : BitVec 5) (w : Word) : Except Trap (Nat × Nat) :=
  let v := (s.sreg a).toNat
  let part := bitsOf v 23 12
  let self := bitsOf v 24 24 == 1
  if 2 ^ 25 ≤ v ∨ (self ∧ part ≠ 0) then .error (Trap.at .illegalOperand (operandVal w 1) s.self.cur.lanes)
  else .ok (if self then s.pod.part else part, v % 4096)

/-- A reserved slot is free for an entry to a queue: at this part, the slots not held by entries queued or on their way;
at another part, what its pops have returned, which is timing alone. -/
def State.renqSlot (s : State) (dest q : Nat) : State × Bool :=
  if dest = s.pod.part then
    match s.ownedQueue s.ctx.id q with
    | none => (s, true)
    | some t =>
      let flying := (s.renqs.filter fun f => f.packet.dest == dest && f.packet.queue == q).length
      (s, decide (t.heldBy dest + flying < t.resv))
  else
    let d := s.draw
    (d.2, Config.freeBit d.1)

/-- An entry for another part accepted by the hub and counted for its unit (R398). -/
def State.acceptEntry (s : State) (u : AgentKey) (p : RenqPacket) : State :=
  { s with hub := { s.hub with enq := s.hub.enq ++ [(u, p)] } }.countFence u p.dest true

/-- An entry for another part at the hub: with no free counter, or behind an access of its unit that waits, it waits there
(R398). -/
def State.offerEntry (s : State) (u : AgentKey) (p : RenqPacket) : State :=
  if s.hub.waitsFor u || !s.fenceRoom u p.dest then { s with hub := { s.hub with waiting := s.hub.waiting ++ [.entry u p] } }
  else s.acceptEntry u p

/-- The interposer link of a compute die to the hub. -/
def hubLink (die : Nat) : LinkKey := .interposer die 0

/-- The entry injected: one on its way to this part's own queue, or a packet for another part that crosses to the hub on VC 2.
It carries the horizon of its die. A sender with .ack waits for the answer (R274, R389, R390, R398). -/
def State.sendRenq (s : State) (w : Word) (dest q : Nat) (entry : List Byte) (ack : Bool) : Exit :=
  let p : RenqPacket :=
    { id := s.nextPacket, srcPart := s.pod.part, dest := dest, ctx := s.ctx.id, queue := q, entry := entry, ack := ack
      horizon := (s.dieAt s.crew.socket).horizon }
  let s1 := { s with nextPacket := s.nextPacket + 1 }
  let s2 := if dest = s.pod.part then s1 else (s1.cross (hubLink s.crew.socket) 2).offerEntry s.selfKey p
  let s3 := if ack || dest == s.pod.part then { s2 with renqs := s2.renqs ++ [⟨p, s.selfKey⟩] } else s2
  if ack then .wait s3 (.renq (s.self.held w) p.id) else .done s3

/-- A release of the unit in front to a part may leave its die: the hub has accepted the unit's earlier accesses, and for another
part the link to the hub has a credit (R144, R398, R399). -/
def State.hubTakes (s : State) (dest : Nat) : Bool :=
  !s.unaccepted s.selfKey && (dest == s.pod.part || s.canSend (hubLink s.crew.socket) 2)

/-- RENQ: a release at FABRIC scope (R273, R274). It waits, not yet injected, for a reserved slot and for the hub to have accepted
what its unit sent before. -/
def execRenq (d a b : BitVec 5) (k : BitVec 1) (s : State) : Step :=
  let w := encode (.renq d a b k)
  s.fx w (fxNeeds 0 {} .both) [] fun s1 =>
    Exit.withVal s1 (s1.remoteId a w) fun dq =>
      Exit.withRef s1 (s1.ref (s1.sreg b) w 2 32 true) fun r =>
        s1.release fun s2 =>
          if !s2.pod.members.contains dq.1 || (dq.1 != s2.pod.part && (s2.pod.outPort dq.1).isNone) then
            .done (s2.putD d taskUnreachable)
          else
            let f := s2.renqSlot dq.1 dq.2
            if f.2 && f.1.hubTakes dq.1 then
              (f.1.publish 8).enterMarkers.sendRenq w dq.1 dq.2 (s2.scrBytes r.gang r.off 32) (k == 1)
            else .wait f.1 (.slot (s2.self.held w))

/-- A path waits for the answer to an entry. -/
def Path.renqOf (id : Nat) (p : Path) : Bool :=
  match p.wait with
  | .renq _ n => n == id
  | _ => false

/-- The D field of a held RENQ. -/
def renqDest (w : Word) : BitVec 5 :=
  match decode w with
  | .ok (.renq d _ _ _) => d
  | _ => 0

/-- The answer to an entry reaches the sender: D gets the status when the split goes on (R274). -/
def State.answerRenq (s : State) (f : RenqFlight) (status : Nat) : State :=
  s.mapUnit f.from_ fun a => a.mapPaths fun p =>
    if p.renqOf f.packet.id then p.outcome ((p.wait.insn.map fun h => renqDest h.word).getD 0) (BitVec.ofNat 64 status) else p

/-- An entry at its destination: queued in a reserved slot, or dropped (R274, R275). -/
def State.acceptRenq (s : State) (p : RenqPacket) : State × Nat :=
  match s.queueAt p.queue with
  | none => (s, taskNoQueue)
  | some t =>
    let dropped := s.putQueue { t with drops := if t.drops < 255 then t.drops + 1 else 255 }
    if t.owner ≠ p.ctx then (dropped, taskNoQueue)
    else if t.closed then (dropped, taskClosed)
    else (s.putQueue { t with entries := t.entries ++ [⟨p.entry, some p.srcPart, p.horizon⟩] }, taskOk)

/-- The first entry of its sender to its queue that is still on its way (R274). -/
def State.renqFirst (s : State) (f : RenqFlight) : Bool :=
  (s.renqs.find? fun g => g.from_ == f.from_ && g.packet.queue == f.packet.queue && g.packet.dest == f.packet.dest) ==
    some f

/-- The acknowledgements of an entry from another part, on VC 2: one for the fence counter of its sender, and one with the status
for a sender that waits (R274, R389, R398; log entry 55). -/
def State.ackRenq (s : State) (p : RenqPacket) (status : Nat) : State :=
  let s1 := s.sendTo p.srcPart 2 (.fabricAck p.srcPart p.id [])
  if p.ack then s1.sendTo p.srcPart 2 (.enqueueAck p.srcPart p.id status) else s1

/-- RENQ_DELIVERY: an entry of this part, in the order of its sender, or one from another part (R274). -/
def execRenqDelivery (p : RenqPacket) (s : State) : Step :=
  if p.dest ≠ s.pod.part then s.absent
  else if p.srcPart ≠ s.pod.part then
    let r := (s.freeFrom p.srcPart 2).acceptRenq p
    .next (r.1.ackRenq p r.2)
  else
    match s.renqs.find? fun f => f.packet == p with
    | none => s.absent
    | some f =>
      if !s.renqFirst f then s.absent
      else
        let r := { s with renqs := s.renqs.filter fun g => g.packet.id != p.id }.acceptRenq p
        .next (if p.ack then r.1.answerRenq f r.2 else r.1)

/-- RENQ_ACK: the answer of another part (R274). -/
def execRenqAck (id status : Nat) (s : State) : Step :=
  match s.renqs.find? fun f => f.packet.id == id && f.packet.dest != s.pod.part with
  | none => s.absent
  | some f =>
    .next (({ s with renqs := s.renqs.filter fun g => g.packet.id != id }.freeFrom f.packet.dest 2).answerRenq f status)

/-! ### FETCHW, TASKE, TASKA -/

/-- The logical core of the issuing unit (R296); a Gaffer thread, which has none, stands as its cluster's first. -/
def State.logicalCore (s : State) : Nat := 4 * s.crew.lcl + (if s.self.unit.gaffer then 0 else s.self.unit.gang)

/-- FETCHW (R40, R276). -/
def execFetchw (a : BitVec 5) (s : State) : Step :=
  let w := encode (.fetchw a)
  s.fx w (fxNeeds 0 {} .both) [] fun s1 =>
    Exit.withRef s1 (s1.ref (s1.sreg a) w 1 32 false) fun r =>
      if s1.crew.fetch.isSome then .wait s1 .poll
      else
        .done { s1 with crew := { s1.crew with
          fetch := some ⟨s1.self.unit, r, (s1.dieAt s1.crew.socket).ptime, s1.logicalCore⟩ } }

/-- The open version ends and commits (R147, R277). -/
def State.endVersion (s : State) : State :=
  if s.self.version.active then s.commitVersion Version.none else s.mapSelf fun a => { a with version := Version.none }

/-- The crew withdrawn through a mailbox counts as retired (R41, R277). -/
def State.endWithdrawn (s : State) (box : List Byte) : State :=
  let num := fieldAt box 8 4
  let key := (fieldAt box 0x0C 4, fieldAt box 0x10 4)
  match (s.ctxAt s.ctx.id).bind fun c => c.launch num with
  | none => s
  | some l => if l.withdrawn.contains key then s.countRetired s.ctx.id num key.1 key.2 else s

/-- TASKE (R41, R147, R277). -/
def execTaske (a : BitVec 5) (s : State) : Step :=
  let w := encode (.taske a)
  s.fx w (fxNeeds 0 {} .both) [] fun s1 =>
    let finish (box : Option (List Byte)) : Exit :=
      s1.release fun s2 =>
        let s3 := if s2.self.version.open_ then s2.endVersion.publish 6 else s2.publish 6
        .done (match box with
          | none => s3
          | some b => s3.endWithdrawn b)
    if a = 0 then (if s1.self.version.open_ then finish none else .done s1)
    else
      Exit.withRef s1 (s1.ref (s1.sreg a) w 1 32 true) fun r =>
        let b := s1.scrBytes r.gang r.off 32
        if fieldAt b 0 4 ≠ 1 then s1.stop .illegalOperand (operandVal w 1) else finish (some b)

/-- TASKA: opens a version (R147, R278). -/
def execTaska (a : BitVec 5) (s : State) : Step :=
  let w := encode (.taska a)
  s.fx w (fxNeeds 4 {} .both) [] fun s1 =>
    if s1.self.version.open_ then s1.stop .version 0
    else .done (s1.mapSelf fun x => { x with version := ⟨s.sreg a, true, false, [], []⟩ })

end Sys2Proof.Machine
end

