-- ==== Sys2Proof/Machine/Ordered.lean ====
section
/-!
DEFINITION. Ordered-class injection: stamps and horizons (21 R390), and OSEND (10 R287).
-/
namespace Sys2Proof.Machine

open Sys2Proof

/-- ORDCTL.EN (R397). -/
def Hub.enabled (h : Hub) : Bool := h.ordctl.getLsbD 16

/-- The stamp that a die gives next (R390). -/
def Die.stamp (d : Die) : Nat := max d.ptime (d.horizon + 1)

/-- Ordered-class work injected: a packet for each destination, stamped once on its die and on its way to the hub (R390,
R391). -/
def State.inject (s : State) (w : OrdWork) : State :=
  let st := (s.dieAt w.die).stamp
  let p (dest : Nat) : OrdPacket :=
    { stamp := st, srcPart := s.pod.part, srcSocket := w.die, dest := dest, hops := 0, ctx := w.ctx, agent := some w.unit
      body := w.body }
  s.mapDie w.die fun d => { d with horizon := st, unpassed := d.unpassed ++ w.dests.map p }

/-- Work of the unit in front. -/
def State.ordWork (s : State) (dests : List Nat) (body : OrdBody) : OrdWork :=
  ⟨s.selfKey, s.crew.socket, dests, s.ctx.id, body⟩

/-- Work that waits for injection is injected, in order, while the ordered class is enabled (R397). -/
def State.injectWork (s : State) : State :=
  if s.hub.enabled then s.work.foldl State.inject { s with work := [] } else s

/-- OSEND: a release at POD scope. The issuer continues; the work waits for injection while the ordered class is disabled, and the
fence markers of the release are entered when the hub accepts its packet, behind the unit's earlier ones (R287, R397, R398). -/
def execOsend (d a b : BitVec 5) (s : State) : Step :=
  let w := encode (.osend d a b)
  let m := s.self.cur.lanes
  s.frame w m
    [s.issueCheck (fxNeeds 3 { scope := true } .both) (s.hmod.scope != 0 && s.hmod.scope != 9) w m] []
    fun s1 _ =>
      let va := (s1.sreg a).toNat
      let part := (s1.sreg b).toNat
      if m = 0 then .done s1
      else if 4096 ≤ part then s1.stop .illegalOperand (operandVal w 2)
      else if va % 4 ≠ 0 then s1.stop .misaligned 0
      else if 2 ^ 56 ≤ va then s1.stop .xlate va
      else
        s1.release fun s2 =>
          let o := s2.ordWork [part] (.write (s2.sreg a) ((s2.sreg d).setWidth 32))
          .done { s2.publish 9 with work := s2.work ++ [o] }.injectWork

end Sys2Proof.Machine
end

