-- ==== Sys2Proof/Machine/Punty.lean ====
section
/-!
DEFINITION. The Punty: names, objects and handles (04 R118 to R120, 22 R402 to R405, 23 R429) and its instructions (10
R279 to R284).
-/
namespace Sys2Proof.Machine

open Sys2Proof

/-! ### The directory -/

/-- A name of the directory. -/
def Punty.name (p : Punty) (n : Nat) : Option PuntyName := p.names.find? fun x => x.name == n
/-- The object that a context registered under an identifier. -/
def Punty.object (p : Punty) (c : CtxId) (oid : Nat) : Option PuntyObj := p.objs.find? fun o => o.owner == c && o.oid == oid
/-- The object in a slot. -/
def Punty.inSlot (p : Punty) (n : Nat) : Option PuntyObj := p.objs.find? fun o => o.slot == n
/-- Some name is bound to the object. -/
def Punty.bound (p : Punty) (o : PuntyObj) : Bool := p.names.any fun n => n.owner == o.owner && n.bound == some o.oid
/-- Open references to an object, over every context. -/
def PuntyObj.refs (o : PuntyObj) : Nat := (o.opens.map (·.2)).sum
/-- Open references of the package (R118). -/
def Punty.refs (p : Punty) : Nat := (p.objs.map PuntyObj.refs).sum

/-- The open references of a context to an object set to a count. -/
def PuntyObj.setOpen (o : PuntyObj) (c : CtxId) (n : Nat) : PuntyObj :=
  let rest := o.opens.filter fun e => e.1 != c
  { o with opens := if n = 0 then rest else (c, n) :: rest }

/-- One more or one less open reference of a context to the object in a slot. -/
def Punty.countRef (p : Punty) (slot : Nat) (c : CtxId) (open_ : Bool) : Punty :=
  { p with objs := p.objs.map fun x =>
      if x.slot = slot then x.setOpen c (if open_ then x.openOf c + 1 else x.openOf c - 1) else x }

/-- The directory changed. -/
def State.mapPunty (s : State) (f : Punty → Punty) : State := { s with punty := f s.punty }

/-- The object in a slot leaves the directory, and the slot's generation advances (R118, R120). -/
def Punty.free (p : Punty) (o : PuntyObj) : Punty :=
  { p with
    objs := p.objs.filter fun x => x.slot != o.slot
    gens := (o.slot, (o.gen + 1) % 256) :: p.gens.filter fun g => g.1 != o.slot }

/-- An object that no name refers to and no handle holds is reclaimed, and its owner told through the command endpoint of I/O
die 8 (R120, R403, R405). -/
def State.reclaim (s : State) (slot : Nat) : State :=
  match s.punty.inSlot slot with
  | none => s
  | some o =>
    if s.punty.bound o ∨ o.refs ≠ 0 then s
    else (s.mapPunty fun p => p.free o).send (.event 8 4 (o.oid + o.owner.word.toNat * 2 ^ 32))

/-- The check of one entry of a bind list (R283, R429): NONAME, DENIED, NOOBJ, DUP, NAMEFULL; 0 when it passes. `seen` holds
the names before it, `fresh` how many of them the host's command would create. -/
def Punty.checkEntry (p : Punty) (c : CtxId) (host : Bool) (seen : List Nat) (fresh : Nat) (e : BindEntry) : Nat :=
  let have_ := p.name e.name
  if have_.isNone ∧ !host then 2
  else if (have_.map fun n => n.owner != c).getD false then 4
  else if e.oid ≠ 0 ∧ (p.object c e.oid).isNone then 6
  else if seen.contains e.name then 7
  else if have_.isNone ∧ 65536 ≤ p.names.length + fresh then 9
  else 0

/-- The first entry of a list that fails: its status and index (R283). -/
def Punty.checkList (p : Punty) (c : CtxId) (host : Bool) : List Nat → Nat → Nat → List BindEntry → Option (Nat × Nat × Nat)
  | _, _, _, [] => none
  | seen, fresh, i, e :: es =>
    let st := p.checkEntry c host seen fresh e
    if st ≠ 0 then some (st, i, e.oid)
    else p.checkList c host (e.name :: seen) (if (p.name e.name).isNone then fresh + 1 else fresh) (i + 1) es

/-- One name moved; a name that the directory does not hold is created (R119, R429). -/
def Punty.bindOne (p : Punty) (c : CtxId) (e : BindEntry) : Punty :=
  let b := if e.oid = 0 then none else some e.oid
  if (p.name e.name).isSome then
    { p with names := p.names.map fun n => if n.name = e.name then { n with bound := b } else n }
  else { p with names := p.names ++ [⟨e.name, c, b⟩] }

/-- A status and a handle as D of a Punty instruction (R279). -/
def puntyWord (status handle : Nat) : DWord := BitVec.ofNat 64 (status * 2 ^ 56 + handle)

/-- DOPEN at the directory: status and handle, with the reference taken (R281). -/
def State.openName (s : State) (c : CtxId) (name : Nat) : State × Nat × Nat :=
  match s.punty.name name with
  | none => (s, 2, 0)
  | some n =>
    if n.owner ≠ c then (s, 4, 0)
    else
      match n.bound.bind fun oid => s.punty.object c oid with
      | none => (s, 1, 0)
      | some o =>
        if 262144 ≤ s.punty.refs then (s, 3, 0)
        else (s.mapPunty fun p => p.countRef o.slot c true, 0, o.handle)

/-- The D field and .w of a held DOPEN. -/
def dopenFields (w : Word) : BitVec 5 × Bool :=
  match decode w with
  | .ok (.dopen d _ k) => (d, k == 1)
  | _ => (0, false)

/-- The name that a path waits for at the directory, with its held DOPEN.w (R119). -/
def Path.bindWait (p : Path) : Option (HeldInsn × Nat) :=
  match p.wait with
  | .bind h name => some (h, name)
  | _ => none

/-- The paths of a context that wait at the directory for a bind of a name (R119). -/
def State.binders (s : State) (c : CtxId) (name : Nat) : List (AgentKey × Path) :=
  (s.allCrews.filter fun x => x.key.ctx == c).flatMap fun x => x.agents.flatMap fun a =>
    (a.paths.filter fun p => p.mask != 0 && (p.bindWait.map (·.2)) == some name).map fun p => (⟨x.key, a.unit⟩, p)

/-- The DOPEN.w of a waiting path completes with what the directory holds now; it waits on while the name is unbound (R119,
R281). -/
def State.completeBind (s : State) (c : CtxId) (b : AgentKey × Path) : State :=
  match b.2.bindWait with
  | none => s
  | some (h, name) =>
    let o := s.openName c name
    if o.2.1 = 1 then s
    else o.1.giveResult b.1 (fun p => p == b.2) (dopenFields h.word).1 (puntyWord o.2.1 o.2.2)

/-- Every name of a checked list moved at once, which completes the DOPEN.w that wait for a bind of one; objects that lose
their last binding while no handle holds them are reclaimed (R119, R403). -/
def State.applyBinds (s : State) (c : CtxId) (l : List BindEntry) : State :=
  let old := l.filterMap fun e =>
    ((s.punty.name e.name).bind (·.bound)).bind fun oid => (s.punty.object c oid).map (·.slot)
  let s1 := s.mapPunty fun p => l.foldl (fun q e => q.bindOne c e) p
  let s2 := l.foldl (fun t e => (t.binders c e.name).foldl (fun u b => u.completeBind c b) t) s1
  old.eraseDups.foldl (fun t n => t.reclaim n) s2

/-! ### DOPEN -/

/-- DOPEN: at PACKAGE scope the part's own directory, at POD scope a probe through the hub (R281, R396). -/
def execDopen (d a : BitVec 5) (k : BitVec 1) (s : State) : Step :=
  let w := encode (.dopen d a k)
  let m := s.self.cur.lanes
  let sc := s.hmod.scope
  s.frame w m
    [s.issueCheck (fxNeeds 0 { scope := true } .both) (sc != 0 && sc != 6 && sc != 9) w m] []
    fun s1 _ =>
      if m = 0 then .done s1
      else
        Exit.withRef s1 (s1.ref (s1.sreg a) w 1 16 true) fun r =>
          let name := s1.scrNum r.gang r.off 16
          if sc = 9 then
            if !s1.hub.enabled then .wait s1 .poll
            else
              let die := s1.crew.socket
              let st := (s1.dieAt die).stamp
              .wait (s1.inject (s1.ordWork [s1.pod.part] (.probe s1.selfKey s1.self.cur.slot name)))
                (.probe (s1.self.held w) st)
          else
            let o := s1.openName s1.ctx.id name
            if o.2.1 = 1 ∧ k = 1 then .wait s1 (.bind (s1.self.held w) name)
            else .done ((o.1.acquireHorizon 6).putD d (puntyWord o.2.1 o.2.2))

/-! ### DCLOSE, DINFO -/

/-- A handle in an operand (R279). -/
def State.handleVal (s : State) (a : BitVec 5) (w : Word) : Except Trap Nat :=
  let v := (s.sreg a).toNat
  if 2 ^ 32 ≤ v then .error (Trap.at .illegalOperand (operandVal w 1) s.self.cur.lanes) else .ok v

/-- The object that a context holds open under a handle, or STALE or NOTOPEN (R118, R280). A slot that has never held an object
gives NOTOPEN whatever the handle's generation: the spec does not say which (log entry 56). -/
def Punty.openObj (p : Punty) (c : CtxId) (h : Nat) : Except Nat PuntyObj :=
  let slot := handleSlot h
  match p.inSlot slot with
  | some o => if o.handle ≠ h then .error 5 else if o.openOf c = 0 then .error 8 else .ok o
  | none =>
    match p.gens.find? fun g => g.1 == slot with
    | none => .error 8
    | some g => if g.2 = h / 2 ^ 24 then .error 8 else .error 5

/-- DCLOSE: a release at PACKAGE scope (R282, R404). -/
def execDclose (d a : BitVec 5) (s : State) : Step :=
  let w := encode (.dclose d a)
  s.fx w (fxNeeds 0 {} .both) [] fun s1 =>
    Exit.withVal s1 (s1.handleVal a w) fun h =>
      s1.releaseAt 6 fun s2 =>
        match s2.punty.openObj s2.ctx.id h with
        | .error st => .done (s2.putD d (puntyWord st 0))
        | .ok o =>
          .done (((s2.mapPunty fun p => p.countRef o.slot s2.ctx.id false).reclaim o.slot).putD d (puntyWord 0 0))

/-- FMT of the page at an object's base; where nothing is mapped there, a free value (log entry 23). -/
def State.objFmt (s : State) (o : PuntyObj) : State × Nat :=
  match (s.ctxAt o.owner).map fun c => s.walk c o.base with
  | some (.leaf e _ _) => (s, leafFmt e)
  | _ =>
    let d := s.draw
    (d.2, (Config.freeByte d.1).toNat)

/-- The block that DINFO writes (R282). -/
def infoBytes (o : PuntyObj) (fmt : Nat) (bound : Bool) : List Byte :=
  leBytes 8 o.base ++ leBytes 8 o.size ++ leBytes 4 o.oid ++ leBytes 1 fmt ++ leBytes 1 bound.toNat ++ leBytes 2 0 ++
  leBytes 8 o.refs

/-- DINFO (R282). -/
def execDinfo (d a b : BitVec 5) (s : State) : Step :=
  let w := encode (.dinfo d a b)
  s.fx w (fxNeeds 0 {} .both) [] fun s1 =>
    Exit.withVal s1 (s1.handleVal a w) fun h =>
      Exit.withRef s1 (s1.ref (s1.sreg b) w 2 32 false) fun r =>
        match s1.punty.openObj s1.ctx.id h with
        | .error st => .done (s1.putD d (puntyWord st 0))
        | .ok o =>
          let f := s1.objFmt o
          .done ((f.1.putScr r.gang (placed r.off (infoBytes o f.2 (s1.punty.bound o)))).putD d (puntyWord 0 0))

/-! ### DBIND -/

/-- The entries of a bind list; none where a count or a reserved field offends (R283). -/
def bindList (bs : List Byte) : Option (List BindEntry) :=
  let n := fieldAt bs 0 4
  if n = 0 ∨ 16 < n ∨ !zeroAt bs 4 28 ∨ (List.range n).any fun e => !zeroAt bs (0x34 + 32 * e) 12 then none
  else some ((List.range n).map fun e => ⟨fieldAt bs (0x20 + 32 * e) 16, fieldAt bs (0x30 + 32 * e) 4⟩)

/-- The bytes of a bind list with its count of entries (R283). -/
def listBytes (n : Nat) : Nat := 32 + 32 * (if 16 < n then 0 else n)

/-- DBIND: at PACKAGE scope at once, or with .o, a release at POD scope, injected as an ordered-class bind for every part of the
pod domain (R144, R148, R283, R284, R402). -/
def execDbind (d a : BitVec 5) (o : BitVec 1) (s : State) : Step :=
  let w := encode (.dbind d a o)
  s.fx w (fxNeeds (if o = 1 then 3 else 0) {} .both) [] fun s1 =>
    Exit.withRef s1 (s1.ref (s1.sreg a) w 1 32 true) fun r =>
      let n := listBytes (s1.scrNum r.gang r.off 4)
      if s1.crew.sizeOf r < r.off + n then s1.stop .xlate r.off
      else
        match bindList (s1.scrBytes r.gang r.off n) with
        | none => s1.stop .illegalOperand (operandVal w 1)
        | some l =>
          s1.releaseAt (if o = 1 then 9 else 6) fun s2 =>
            match s2.punty.checkList s2.ctx.id false [] 0 0 l with
            | some f => .done (s2.putD d (puntyWord f.1 0))
            | none =>
              if o = 0 then .done ((s2.applyBinds s2.ctx.id l).putD d (puntyWord 0 0))
              else if !s2.hub.enabled then .wait s2 .poll
              else
                .done ((s2.inject (s2.ordWork s2.pod.members (.bind l))).putD d (puntyWord 0 0))

end Sys2Proof.Machine
end

