-- ==== Sys2Proof/Machine/Reduce.lean ====
section
/-!
DEFINITION. Time (10 R286) and router reductions (10 R288 to R290, 13 R296, R298, R300).
-/
namespace Sys2Proof.Machine

open Sys2Proof

/-! ### Time (R286) -/

/-- PTIME of the issuer's die. -/
def State.now (s : State) : Nat := (s.dieAt s.crew.socket).ptime

/-- TSTAMP. -/
def execTstamp (d : BitVec 5) (s : State) : Step :=
  s.fx (encode (.tstamp d)) (fxNeeds 0 {} .both) [] fun s1 => .done (s1.putD d (BitVec.ofNat 64 s1.now))

/-- The word of TSERR. -/
def State.timeStatus (s : State) : DWord :=
  let die := s.dieAt s.crew.socket
  BitVec.ofNat 64 (die.err % 2 ^ 32 + die.healthy.toNat * 2 ^ 32 + s.pod.synced.toNat * 2 ^ 33)

/-- TSERR. -/
def execTserr (d : BitVec 5) (s : State) : Step :=
  s.fx (encode (.tserr d)) (fxNeeds 0 {} .both) [] fun s1 => .done (s1.putD d s1.timeStatus)

/-- TWAIT. -/
def execTwait (a : BitVec 5) (s : State) : Step :=
  let w := encode (.twait a)
  s.fx w (fxNeeds 0 {} .both) [] fun s1 =>
    let t := (s1.sreg a).toNat
    if t ≤ s1.now then .done s1 else .wait s1 (.twait (s1.self.held w) t)

/-- A held instruction of the path in front completes. -/
def State.finishHeld (s : State) (h : HeldInsn) (f : State → State) : State := (f (s.resumeHeld h)).advance

/-- TWAIT_TARGET_REACHED. -/
def execTwaitTargetReached (u : AgentKey) (slot : Nat) (s : State) : Step :=
  match s.focus u slot with
  | none => s.absent
  | some s1 =>
    match s1.self.cur.wait with
    | .twait h t => if s1.now < t ∨ !s1.mayEnd then s.absent else .next (s1.finishHeld h id)
    | _ => s.absent

/-! ### Tree descriptors (R288) -/

/-- RID. -/
def treeRid (v : Nat) : Nat := v % 4096
/-- FIRST. -/
def treeFirst (v : Nat) : Nat := bitsOf v 20 12
/-- COUNT. -/
def treeCount (v : Nat) : Nat := bitsOf v 25 21 + 1
/-- LEN. -/
def treeLen (v : Nat) : Nat := bitsOf v 30 26 + 1
/-- ZC. -/
def treeZc (v : Nat) : Bool := bitsOf v 31 31 == 1
/-- ROFF * 32. -/
def treeOff (v : Nat) : Nat := bitsOf v 45 32 * 32
/-- SHAPE 1, sequential. -/
def treeSeq (v : Nat) : Bool := bitsOf v 47 46 == 1
/-- ROUND. -/
def treeRound (v : Nat) : Nat := bitsOf v 55 48

/-- A descriptor is refused: a reserved field, or contributors that the context does not have (R288). -/
def badTree (nlc v : Nat) : Bool :=
  decide (2 ^ 56 ≤ v) || decide (1 < bitsOf v 47 46) || decide (4 * nlc < treeFirst v + treeCount v)

/-! ### Combining (R289) -/

/-- The format of an op's elements; none for integers (R288). -/
def redFmt (op : Nat) : Option FFmt :=
  match op with
  | 0 | 1 | 2 => some fp32
  | 6 => some fp16
  | 7 => some bf16
  | _ => none

/-- Two elements combined, the lower index on the left (R288). -/
def redPair (op : Nat) (zc : Bool) (a b : Nat) : Nat :=
  let lt := decide ((BitVec.ofNat 32 b).toInt < (BitVec.ofNat 32 a).toInt)
  match op with
  | 0 => (fp32.add .rne false zc a b).1
  | 1 => fp32.minMax false false a b
  | 2 => fp32.minMax true false a b
  | 3 => (a + b) % 2 ^ 32
  | 4 => if lt then b else a
  | 5 => if lt then a else b
  | 6 => (fp16.add .rne false zc a b).1
  | _ => (bf16.add .rne false zc a b).1

/-- Neighbours of a list combined in pairs; an odd last one passes through. -/
def redLevel (f : Nat → Nat → Nat) : List Nat → List Nat
  | a :: b :: rest => f a b :: redLevel f rest
  | l => l

/-- The result of one element over its contributions in index order: the first NaN quieted (R73), else the tree's. -/
def redElem (op : Nat) (seq zc : Bool) (xs : List Nat) : Nat :=
  match (redFmt op).bind fun f => (xs.find? f.isNan).map f.quiet with
  | some r => r
  | none =>
    let f := redPair op zc
    match xs with
    | [] => 0
    | x :: rest => if seq then rest.foldl f x else ((redLevel f (redLevel f (redLevel f (redLevel f (redLevel f xs)))))).headD 0

/-- The result word of one position: whole, or two halves for .hadd and .bfadd. -/
def redWord (op : Nat) (seq zc : Bool) (xs : List Word) : Word :=
  let ns := xs.map (·.toNat)
  if op = 6 ∨ op = 7 then
    BitVec.ofNat 32 (redElem op seq zc (ns.map (· % 2 ^ 16)) + redElem op seq zc (ns.map (· / 2 ^ 16)) * 2 ^ 16)
  else BitVec.ofNat 32 (redElem op seq zc ns)

/-- A word that a contribution of another LEN leaves unstated: a free value (log entry 24). -/
def freeWord (n : Nat) : Word :=
  BitVec.ofNat 32 (leNat [Config.freeByte n, Config.freeByte (n + 1), Config.freeByte (n + 2), Config.freeByte (n + 3)])

/-! ### Rounds (R289, R290, R300) -/

/-- The contributions that count, by contributor: the first of each, where its op is the waiter's (R290). -/
def redValid (op : Nat) (cs : List Contrib) (i : Nat) : Option (List Word) :=
  ((cs.find? fun c => c.ix == i).filter fun c => c.op == op).map (·.words)

/-- A contributor sent twice (R290). -/
def redTwice (cs : List Contrib) : Bool := ((cs.map (·.ix)).eraseDups).length != cs.length

/-- D of a REDW: absent contributors, and the bits of discarded contributions (R290). -/
def redMask (op count : Nat) (cs : List Contrib) : DWord :=
  let absent := (List.range count).foldl (fun n i => if (redValid op cs i).isNone then n + 2 ^ i else n) 0
  BitVec.ofNat 64 (absent + (if cs.any fun c => c.op != op then 2 ^ 62 else 0) + (if redTwice cs then 2 ^ 63 else 0))

/-- Every contribution is present. -/
def redComplete (op count : Nat) (cs : List Contrib) : Bool := (List.range count).all fun i => (redValid op cs i).isSome

/-- The contributions held for a round. -/
def State.roundOf (s : State) (c : CtxId) (rid round : Nat) : List Contrib :=
  ((s.rounds.find? fun r => r.ctx == c && r.rid == rid && r.round == round).map (·.contribs)).getD []

/-- A round closed: its contributions dropped, the closed mark of its RID moved to it (R300). -/
def State.closeRound (s : State) (c : CtxId) (rid round : Nat) : State :=
  { s with rounds := s.rounds.filter fun r => !(r.ctx == c && r.rid == rid && r.round == round) }.mapCtxAt c fun x =>
    { x with marks := (rid, round) :: x.marks.filter fun m => m.1 != rid }

/-- The result words of a complete round (R289). -/
def redResult (v op : Nat) (cs : List Contrib) (free : Nat) : List Word :=
  (List.range (treeLen v)).map fun e =>
    redWord op (treeSeq v) (treeZc v) ((List.range (treeCount v)).map fun i =>
      ((redValid op cs i).getD []).getD e (freeWord (free + 4 * e)))

/-- What a round that closes writes in the root's scratchpad: the result of a complete round, nothing at a deadline (R290). -/
def roundBytes (v op : Nat) (cs : List Contrib) (free : Nat) (complete : Bool) : List (Nat × Byte) :=
  if complete then placed (treeOff v) ((redResult v op cs free).flatMap fun (w : Word) => leBytes 4 w.toNat) else []

/-- A round closed, with the free values that its result uses drawn. -/
def State.endRound (s : State) (c : CtxId) (v : Nat) (complete : Bool) : State :=
  let s1 := s.closeRound c (treeRid v) (treeRound v)
  if complete then { s1 with free := s1.free + 4 * treeLen v } else s1

/-- A REDW of the unit in front, with its instruction at hand: D and the result of a complete round, or of one closed at
its deadline (R290). -/
def State.closeRedw (s : State) (d : BitVec 5) (v op : Nat) (complete : Bool) : State :=
  let cs := s.roundOf s.ctx.id (treeRid v) (treeRound v)
  ((s.endRound s.ctx.id v complete).putScr s.self.unit.gang (roundBytes v op cs s.free complete)).putD d
    (redMask op (treeCount v) cs)

/-- The descriptors of the REDWs that a unit waits on, with their fields: destination, descriptor, op. -/
def Agent.redws (a : Agent) : List (Path × HeldInsn × BitVec 5 × Nat × Nat) :=
  a.paths.filterMap fun p => match p.wait with
    | .redw h v _ => match decode h.word with
      | .ok (.redw d _ _ o) => some (p, h, d, v, o.toNat)
      | _ => none
    | _ => none

/-- The units of a context that wait on a round: unit, path, held word, destination, descriptor, op. -/
def State.redwOn (s : State) (c : CtxId) (rid round : Nat) :
    Option (AgentKey × Path × HeldInsn × BitVec 5 × Nat × Nat) :=
  (s.allCrews.filter fun k => k.key.ctx == c).findSome? fun k =>
    k.agents.findSome? fun a =>
      (a.redws.find? fun r => treeRid r.2.2.2.1 == rid && treeRound r.2.2.2.1 == round).map fun r => (⟨k.key, a.unit⟩, r)

/-- REDP: a release at PACKAGE scope; the words are read after issue (R288, R289). -/
def execRedp (a b : BitVec 5) (o : BitVec 4) (s : State) : Step :=
  let w := encode (.redp a b o)
  let m := s.self.cur.lanes
  s.frame w m [s.issueCheck (fxNeeds 5 {} .group) (decide (8 ≤ o.toNat)) w m] [] fun s1 _ =>
    let v := (s1.sreg a).toNat
    let core := s1.logicalCore
    if m = 0 then .done s1
    else if badTree s1.ctx.nlc v || decide (core < treeFirst v) || decide (treeFirst v + treeCount v ≤ core) then
      s1.stop .illegalOperand (operandVal w 1)
    else
      Exit.withRef s1 (s1.ref (s1.sreg b) w 2 4 false) fun r =>
        if s1.crew.sizeOf r < r.off + 4 * treeLen v then s1.stop .xlate r.off
        else
          s1.releaseAt 6 fun s2 =>
            .done { s2 with
              redps := s2.redps ++ [{
                id := s2.nextPacket, crew := s2.crew.key, src := r, len := treeLen v, rid := treeRid v
                round := treeRound v, ix := core - treeFirst v, op := o.toNat }]
              nextPacket := s2.nextPacket + 1 }

/-- REDW (R288, R290). -/
def execRedw (d a b : BitVec 5) (o : BitVec 4) (s : State) : Step :=
  let w := encode (.redw d a b o)
  let m := s.self.cur.lanes
  s.frame w m [s.issueCheck (fxNeeds 5 {} .group) (decide (8 ≤ o.toNat)) w m] [] fun s1 _ =>
    let v := (s1.sreg a).toNat
    if m = 0 then .done s1
    else if badTree s1.ctx.nlc v || s1.logicalCore != treeFirst v ||
        (s1.redwOn s1.ctx.id (treeRid v) (treeRound v)).isSome then
      s1.stop .illegalOperand (operandVal w 1)
    else if s1.crew.sizeOf ⟨s1.self.unit.gang, 0⟩ < treeOff v + 4 * treeLen v then s1.stop .xlate (treeOff v)
    else if redComplete o.toNat (treeCount v) (s1.roundOf s1.ctx.id (treeRid v) (treeRound v)) then
      .done (s1.closeRedw d v o.toNat true)
    else .wait s1 (.redw (s1.self.held w) v (if b = 0 then none else some (s1.sreg b).toNat))

/-- A contribution's round is the one of its RID that is marked closed (R300). -/
def State.closedFor (s : State) (f : RedpFlight) : Bool :=
  ((s.ctxAt f.crew.ctx).map fun x => x.marks.contains (f.rid, f.round)).getD false

/-- A contribution held: in its round, or discarded when that round is the one marked closed (R289, R300). -/
def State.addContrib (s : State) (f : RedpFlight) (ws : List Word) : State :=
  let c := f.crew.ctx
  if s.closedFor f then s
  else
    let k : Contrib := ⟨f.ix, f.op, ws⟩
    let mine (r : Round) : Bool := r.ctx == c && r.rid == f.rid && r.round == f.round
    if s.rounds.any mine then
      { s with rounds := s.rounds.map fun r => if mine r then { r with contribs := r.contribs ++ [k] } else r }
    else { s with rounds := s.rounds ++ [⟨c, f.rid, f.round, [k]⟩] }

/-- The open rounds that the routers hold at most: 64 on each of eight dies (R289). -/
def roundLimit : Nat := 512

/-- A waiting REDW whose round is complete: the result is written, and D receives its word when the split goes on (R290). -/
def State.wakeRedw (s : State) (c : CtxId) (rid round : Nat) : State :=
  match s.redwOn c rid round with
  | none => s
  | some (u, p, _, d, v, op) =>
    let cs := s.roundOf c rid round
    if redComplete op (treeCount v) cs then
      ((s.endRound c v true).mapCrewAt u.crew fun x => x.putScr u.unit.gang (roundBytes v op cs s.free true)).giveResult u
        (fun q => q.wait == p.wait) d (redMask op (treeCount v) cs)
    else s

/-- REDP_ARRIVAL: the words are read and the contribution held; a complete round that a REDW waits on combines (R289,
R290). A contribution that would open a round too many waits; one that is discarded opens none (R300). -/
def execRedpArrival (id : Nat) (s : State) : Step :=
  match s.redps.find? fun f => f.id == id with
  | none => s.absent
  | some f =>
    let open_ := s.rounds.any fun r => r.ctx == f.crew.ctx && r.rid == f.rid && r.round == f.round
    match s.crewAt f.crew with
    | none => s.absent
    | some c =>
      if !open_ ∧ !s.closedFor f ∧ roundLimit ≤ s.rounds.length then s.absent
      else
        let bs := c.scrBytes f.src.gang f.src.off (4 * f.len)
        let ws := (List.range f.len).map fun i => BitVec.ofNat 32 (leNat (slice bs (4 * i) 4))
        let s1 := { s with redps := s.redps.filter fun g => g.id != id }
        .next ((s1.addContrib f ws).wakeRedw f.crew.ctx f.rid f.round)

/-- REDW_DEADLINE: the round closes with the mask of its absent contributors (R290). -/
def execRedwDeadline (u : AgentKey) (slot : Nat) (s : State) : Step :=
  match s.focus u slot with
  | none => s.absent
  | some s1 =>
    match s1.self.cur.wait with
    | .redw h v (some t) =>
      if s1.now < t ∨ !s1.mayEnd then s.absent
      else
        match decode h.word with
        | .ok (.redw d _ _ o) =>
          .next (s1.finishHeld h fun x => x.closeRedw d v o.toNat false)
        | _ => s.absent
    | _ => s.absent

end Sys2Proof.Machine
end

