-- ==== Sys2Proof/Machine/Plane.lean ====
section
/-!
DEFINITION. The Marver's plane: engine addresses (10 R258), weights in their internal form (03 R88), loading a tile, the
streamed products and the constant matrices (03 R88 to R92, 10 R262 to R265).
-/
namespace Sys2Proof.Machine

open Sys2Proof

/-! ### Engine addresses (R258) -/

/-- SPACE: a scratchpad. -/
def eaScr (ea : Nat) : Bool := decide (2 ^ 63 ≤ ea)
/-- GANG. -/
def eaGang (ea : Nat) : Nat := ea / 2 ^ 32 % 4
/-- OFF or VA. -/
def eaBase (ea : Nat) : Nat := if eaScr ea then ea % 2 ^ 32 else ea % 2 ^ 56
/-- A well-formed engine address of a crew. -/
def Crew.eaOk (c : Crew) (ea : Nat) : Bool :=
  if eaScr ea then ea / 2 ^ 34 % 2 ^ 29 == 0 && (c.gangs[eaGang ea]?).isSome else decide (ea < 2 ^ 56)

/-- What an engine access gives: a value; or the merge entries it waits on; or, with none, an engine error (R81). -/
abbrev EngRes (α : Type) := State × Except (Option (List MergeKey)) α

/-- The places of consecutive bytes: a scratchpad's, or canonical addresses. -/
inductive EngPlace where
  | scr (g off : Nat)
  | mem (l : List (Nat × Nat × Attr))
  deriving DecidableEq, Repr

/-- A sector of a scratchpad extent is poisoned. -/
def Crew.scrPoison (c : Crew) (g off n : Nat) : Bool :=
  ((c.gangs[g]?).map fun x => (List.range n).any fun i => x.pois.contains ((off + i) / 256)).getD false

/-- The place of `n` bytes at an engine address plus an offset; `raw` asks for raw pages (R261). -/
def State.engPlace (s : State) (c : Crew) (x : Context) (k : AccKind) (raw : Bool) (ea : Nat) (off : Int) (n : Nat) :
    EngRes EngPlace :=
  let a : Int := eaBase ea + off
  if eaScr ea then
    let g := eaGang ea
    if a < 0 ∨ (c.sizeOf ⟨g, 0⟩ : Int) < a + n ∨ (k == .read && c.scrPoison g a.toNat n) then (s, .error none)
    else (s, .ok (.scr g a.toNat))
  else
    match State.engSpan c.socket x k srcMarver (n / 65536 + 2) a n s with
    | (s1, .ok l) =>
      if raw && l.any fun b => b.2.2.fmt != 0 || b.2.2.geom != 0 then (s1, .error none) else (s1, .ok (.mem l))
    | (s1, .wait ks) => (s1, .error (some ks))
    | (s1, .fail) => (s1, .error none)

/-- The bytes at a place. -/
def State.placeGet (s : State) (c : Crew) (n : Nat) : EngPlace → List Byte
  | .scr g off => c.scrBytes g off n
  | .mem l => s.spanBytes l

/-- The Gaffer thread that issued an operation, as the writer of its stores. -/
def MOp.writer (o : MOp) (c : Crew) : Writer := { c.writer ⟨true, 0, o.thread⟩ with engine := some (2 * o.id) }

/-- Bytes written at a place of a crew's engine. -/
def State.placePut (s : State) (w : Writer) (bs : List Byte) : EngPlace → State
  | .scr g off => s.mapCrewAt w.unit.crew fun c => c.putScr g (placed off bs)
  | .mem l => s.putSpan w l bs

/-- Plain bytes read at an engine address. -/
def State.engBytes (s : State) (c : Crew) (x : Context) (ea : Nat) (off : Int) (n : Nat) : EngRes (List Byte) :=
  match s.engPlace c x .read true ea off n with
  | (s1, .ok p) => (s1, .ok (s1.placeGet c n p))
  | (s1, .error e) => (s1, .error e)

/-- An engine access for each member of a list, up to the first that does not succeed. -/
def engMap {α β : Type} (f : State → α → EngRes β) : List α → State → EngRes (List β)
  | [], s => (s, .ok [])
  | a :: as, s =>
    match f s a with
    | (s1, .error e) => (s1, .error e)
    | (s1, .ok b) =>
      match engMap f as s1 with
      | (s2, .error e) => (s2, .error e)
      | (s2, .ok bs) => (s2, .ok (b :: bs))

/-! ### Formats and weights (R88) -/

/-- A width class: 0 binary8, 1 half, 2 single. -/
def widthClass (fmt : Nat) : Nat := if elemSize fmt = 1 then 0 else if elemSize fmt = 2 then 1 else 2
/-- The bytes of an element of a class. -/
def classSize (cls : Nat) : Nat := 2 ^ cls
/-- The sub-positions that a class fills, E. -/
def classSubs (cls : Nat) : Nat := 4 / 2 ^ cls
/-- The number of chains of a mode (R90). -/
def modeChains (mode : Nat) : Nat := 2 ^ mode
/-- The array rows of a chain, which are as many as its ACC rows (R90). -/
def modeSpan (mode : Nat) : Nat := 128 / 2 ^ mode

/-- The value of an element's raw bits, unscaled: NaN as it widens to FP32 (R48, R62). -/
def elemNum (fmt raw : Nat) : Num :=
  if fmt < 2 then fp32.unpack raw
  else if fmt = 2 then fp32.unpack (widen fp16 raw)
  else if fmt = 3 then fp32.unpack (widen bf16 raw)
  else (B8.ofBits fmt).decode raw

/-- The internal form: SIGN, EXP, SIG, CLASS, LOADED (R88). The spec fixes the fields, not the scaling: SIG has its
leading bit at 23 and EXP is the exponent of that bit. DESIGN CHOICE (log entry 21). -/
def weightBits (neg : Bool) (exp : Int) (sig cls : Nat) : BitVec 40 :=
  BitVec.ofNat 40 ((if neg then 2 ^ 39 else 0) + (BitVec.ofInt 10 exp).toNat * 2 ^ 29 + sig % 2 ^ 24 * 2 ^ 5 + cls * 8 + 4)

/-- A value in the internal form. -/
def Num.weight : Num → BitVec 40
  | .nan r => weightBits (r / 2 ^ 31 % 2 == 1) 0 (r % 2 ^ 23) 3
  | .inf n => weightBits n 0 0 2
  | .fin n m e => if m = 0 then weightBits n 0 0 0 else weightBits n (e + Nat.log2 m) (m * 2 ^ 23 / 2 ^ Nat.log2 m) 1

/-- The value that an internal form holds. -/
def weightNum (w : BitVec 40) : Num :=
  let neg := w.getLsbD 39
  let sig := (w.extractLsb' 5 24).toNat
  match (w.extractLsb' 3 2).toNat with
  | 0 => .fin neg 0 0
  | 1 => .fin neg sig ((w.extractLsb' 29 10).toInt - 23)
  | 2 => .inf neg
  | _ => .nan (fp32.inf neg + sig)

/-- An element of a formatted page decoded as LD.e would (R62, R117, R262): its class, value and flags. -/
def State.pageElem (s : State) (c : Crew) (x : Context) (va : Int) : EngRes (Nat × Num × Flags) :=
  match s.engAt c.socket x .read srcMarver va with
  | (s1, .miss y) =>
    let j := s1.joinMerge c.socket x.id va.toNat .read (missKind .read y) srcMarver
    (j.1, .error (some j.2))
  | (s1, .fail) => (s1, .error none)
  | (s1, .ok pa ca a) =>
    let v := va.toNat
    let y := v % a.size
    if v % elemSize a.fmt ≠ 0 ∨ inScales a.geom a.size y then (s1, .error none)
    else
      let z := elemNum a.fmt (s1.numAt ca (elemSize a.fmt))
      let place := canonical (samePage a.ilv pa y (scaleOffset a.size (blockIndex a.geom y)))
      let sc := (place.map fun b => (s1.byteAt b).toNat).getD 0
      if a.geom ≠ 0 ∧ (place.map s1.poisonedAt).getD false then (s1, .error none)
      else
      match (if a.geom = 0 then some z else scaleNum z sc) with
      | none => (s1, .ok (widthClass a.fmt, .nan fp32.nan, flagNV))
      | some n => (s1, .ok (widthClass a.fmt, n, 0))

/-- `n` consecutive elements of size `es` at an engine address: in a stated format from raw bytes, else as their pages
say (R262, R263). -/
def State.engElems (s : State) (c : Crew) (x : Context) (fmt es ea : Nat) (off : Int) (n : Nat) :
    EngRes (List (Nat × Num × Flags)) :=
  if n = 0 then (s, .ok [])
  else if fmt = 0 then
    engMap (fun t i => t.pageElem c x ((eaBase ea : Int) + off + (i * es : Nat))) (List.range n) s
  else
    match s.engBytes c x ea off (n * es) with
    | (s1, .error e) => (s1, .error e)
    | (s1, .ok bs) =>
      (s1, .ok ((List.range n).map fun i => (widthClass fmt, elemNum fmt (leNat (slice bs (i * es) es)), 0)))

/-- The class of a tile or stream: of its stated format, else of the page of its first element (R262, R263). -/
def State.engClass (s : State) (c : Crew) (x : Context) (fmt ea : Nat) : EngRes Nat :=
  if fmt ≠ 0 then (s, .ok (widthClass fmt))
  else
    match s.pageElem c x (eaBase ea) with
    | (s1, .error e) => (s1, .error e)
    | (s1, .ok r) => (s1, .ok r.1)

/-! ### The operands of an operation as issued -/

/-- A 64-bit field of the operand block. -/
def MOp.f8 (o : MOp) (a : Nat) : Nat := fieldAt o.block a 8
/-- A 32-bit field. -/
def MOp.f4 (o : MOp) (a : Nat) : Nat := fieldAt o.block a 4
/-- A 16-bit field. -/
def MOp.f2 (o : MOp) (a : Nat) : Nat := fieldAt o.block a 2
/-- An 8-bit field. -/
def MOp.f1 (o : MOp) (a : Nat) : Nat := fieldAt o.block a 1
/-- A signed 32-bit field. -/
def MOp.i4 (o : MOp) (a : Nat) : Int := signedOf 32 (o.f4 a)
/-- A signed 64-bit field. -/
def MOp.i8 (o : MOp) (a : Nat) : Int := signedOf 64 (o.f8 a)

/-- What one step of an operation comes to: the Marver after it and the step reached; a wait on merge entries; an engine
error (R81). -/
inductive EngEnd where
  | done (m : Marver) (step : Nat)
  | wait (ks : List MergeKey)
  | fail
  deriving DecidableEq, Repr

/-- The end that an unsuccessful access gives. -/
def engStop : Option (List MergeKey) → EngEnd
  | none => .fail
  | some ks => .wait ks

/-- Flags of Marver arithmetic raised in MST (R78). -/
def Marver.raise (m : Marver) (fl : Flags) : Marver := { m with mst := m.mst ||| fl.setWidth 32 }
/-- An accumulator (R77). -/
def Marver.accAt (m : Marver) (r n : Nat) : Word := Sparse.get 0 m.acc (128 * r + n)
/-- Accumulators of row `r` written by column. -/
def Marver.putAcc (m : Marver) (r : Nat) (l : List (Nat × Word)) : Marver :=
  { m with acc := l.foldl (fun a e => Sparse.set 0 a (128 * r + e.1) e.2) m.acc }
/-- The OR of flags. -/
def orAll (l : List Flags) : Flags := l.foldl (fun a b => a ||| b) 0

/-! ### MSTAT (R88, R90, R262) -/

/-- The tile's layout fits its class (R262). -/
def MOp.statFits (o : MOp) (cls : Nat) : Bool :=
  let es := classSize cls
  decide (o.f4 0x10 ≤ classSubs cls * modeSpan (o.f1 0x1D)) && o.f8 0 % es == 0 &&
  (o.f1 0x1D == 0 || o.f8 8 % es == 0) && o.f4 0x18 % es == 0

/-- The sub-positions of a loaded tile by `4(128a + n) + s`, from its rows by `h * K + k` (R88, R90). -/
def tileCells (mode k n cls : Nat) (rows : List (List Num)) : List (Nat × BitVec 40) :=
  let tab := (rows.map List.toArray).toArray
  let e := classSubs cls
  (List.range 128).flatMap fun a =>
    (List.range n).flatMap fun c =>
      (List.range e).filterMap fun p =>
        let j := a % modeSpan mode * e + p
        if j < k then
          some (4 * (128 * a + c) + p, (((tab.getD (a / modeSpan mode * k + j) #[])[c]?).getD (.fin false 0 0)).weight)
        else none

/-- MSTAT: the tile into SHD with its record. -/
def State.mstat (s : State) (c : Crew) (x : Context) (o : MOp) : State × EngEnd :=
  let ea := o.f8 0
  let k := o.f4 0x10
  let n := o.f4 0x14
  let mode := o.f1 0x1D
  match s.engClass c x (o.f1 0x1C) ea with
  | (s1, .error e) => (s1, engStop e)
  | (s1, .ok cls) =>
    if !o.statFits cls then (s1, .fail)
    else
      let at_ (i : Nat) : Int := ((i / k : Nat) : Int) * o.i8 8 + ((i % k : Nat) : Int) * o.i4 0x18
      match engMap (fun t i => t.engElems c x (o.f1 0x1C) (classSize cls) ea (at_ i) n)
          (List.range (modeChains mode * k)) s1 with
      | (s2, .error e) => (s2, engStop e)
      | (s2, .ok rows) =>
        if rows.any fun r => r.any fun w => w.1 != cls then (s2, .fail)
        else
          let m := c.marver.raise (orAll (rows.flatMap fun r => r.map fun w => w.2.2))
          (s2, .done { m with
            shd := tileCells mode k n cls (rows.map fun r => r.map fun w => w.2.1), shdRec := ⟨k, n, mode, some cls⟩ } 1)

/-! ### Streamed products (R89 to R92) -/

/-- The loaded cells of column `n` in the array rows of chain `h`, by increasing array row: K index and weight. -/
def Marver.column (m : Marver) (h n : Nat) : List (List (Nat × Num)) :=
  let span := modeSpan m.staRec.mode
  let e := classSubs (m.staRec.cls.getD 2)
  let col := m.sta.filter fun w => w.2.getLsbD 2 && w.1 / 4 % 128 == n && w.1 / 512 / span == h
  ((List.range span).map fun a => (col.filter fun w => w.1 / 512 % span == a).map fun w =>
    (a * e + w.1 % 4, weightNum w.2)).filter fun l => !l.isEmpty

/-- The sum of a list of exact terms. -/
def ExactSum.all : List ExactSum → ExactSum
  | [] => .fin 0 0 none
  | t :: ts => ts.foldl ExactSum.add t

/-- A value is a NaN. -/
def Num.isNan : Num → Bool
  | .nan _ => true
  | _ => false

/-- One cell of a chain: the exact sum of its products added to the partial and rounded once (R89). A partial that is a NaN
stays one, and a cell with a NaN input makes it one; then only an invalid sum of its other products raises a flag (R73; log
entry 61). -/
def chainCell (zc : Bool) (x : Array Num) (r : Option Word × Flags) (ws : List (Nat × Num)) : Option Word × Flags :=
  let act (w : Nat × Num) : Num := (x[w.1]?).getD (.fin false 0 0)
  let clean := ws.filter fun w => !(act w).isNan && !w.2.isNan
  let t := ExactSum.all (clean.map fun w => ExactSum.ofNum (mulNum (act w) w.2))
  let nv := if t = .invalid then flagNV else 0
  if (r.1.map fun p => fp32.isNan p.toNat).getD false then (r.1, r.2 ||| nv)
  else if clean.length ≠ ws.length then (some (BitVec.ofNat 32 fp32.nan), r.2 ||| nv)
  else
    let q := (match r.1 with
      | none => t
      | some p => (ExactSum.ofNum (some (fp32.unpack p.toNat))).add t).round fp32 .rne false zc
    (some (BitVec.ofNat 32 q.1), r.2 ||| q.2)

/-- The NaN that decides a chain (R73): the partial's, else the lowest K index's; of two at one index the activation's (DESIGN
CHOICE, log entry 78). -/
def chainNan (x : Array Num) (p : Option Word) (col : List (List (Nat × Num))) : Option Nat :=
  let nanOf : Num → Option Nat := fun n => match n with | .nan r => some r | _ => none
  (p.bind fun w => if fp32.isNan w.toNat then some w.toNat else none).or
    (col.flatten.findSome? fun w => (nanOf ((x[w.1]?).getD (.fin false 0 0))).or (nanOf w.2))

/-- An ACC element after one activation row of its chain (R89); none for a column without loaded cells. The flags of every cell
stand, also where a NaN decides the value (R73; DEDUCED, log entry 61). -/
def chainSum (zc : Bool) (x : Array Num) (p : Option Word) (col : List (List (Nat × Num))) : Option (Word × Flags) :=
  if col.isEmpty then none
  else
    let r := col.foldl (chainCell zc x) (p, 0)
    some (((chainNan x p col).map fun w => BitVec.ofNat 32 (fp32.quiet w)).getD (r.1.getD 0), r.2)

/-- The activation rows of step `m`, one for each chain: MRED's are all ones (R92, R263). -/
def State.strmRows (s : State) (c : Crew) (x : Context) (o : MOp) (m : Nat) : EngRes (List (List (Nat × Num × Flags))) :=
  let rec_ := c.marver.staRec
  let cls := rec_.cls.getD 2
  if o.eop = 11 then
    (s, .ok (List.replicate (modeChains rec_.mode) (List.replicate rec_.k (cls, .fin false 1 0, 0))))
  else
    engMap (fun t (h : Nat) => t.engElems c x (o.f1 0x18) (classSize cls) (o.f8 0) ((h : Int) * o.i8 8 + (m : Int) * o.i4 0x14)
      rec_.k) (List.range (modeChains rec_.mode)) s

/-- One row of every chain of MSTRM or MRED (R89, R90). -/
def State.strmRow (s : State) (c : Crew) (x : Context) (o : MOp) : State × EngEnd :=
  let mv := c.marver
  let rec_ := mv.staRec
  if o.eop = 4 ∧ o.f1 0x18 ≠ 0 ∧ (rec_.cls.map fun k => k != widthClass (o.f1 0x18)).getD false then (s, .fail)
  else
    match s.strmRows c x o o.step with
    | (s1, .error e) => (s1, engStop e)
    | (s1, .ok xs) =>
      if xs.any fun r => r.any fun w => rec_.cls != some w.1 then (s1, .fail)
      else
        let res := ((List.range xs.length).zip xs).map fun hx =>
          let a := (hx.2.map fun w => w.2.1).toArray
          let row := hx.1 * modeSpan rec_.mode + o.step
          (row, (List.range 128).filterMap fun n =>
            (chainSum o.zc a (if o.arg = 1 then none else some (mv.accAt row n)) (mv.column hx.1 n)).map fun r => (n, r))
        let fl := orAll (xs.flatMap fun r => r.map fun w => w.2.2) ||| orAll (res.flatMap fun r => r.2.map fun e => e.2.2)
        (s1, .done (res.foldl (fun t r => t.putAcc r.1 (r.2.map fun e => (e.1, e.2.1))) (mv.raise fl)) (o.step + 1))

/-! ### Constant matrices (R92, R264) -/

/-- X_s[a][n] as FP32, +0 for an unloaded cell. -/
def Marver.cell (m : Marver) (a n sub : Nat) : Word × Flags :=
  let w := Sparse.get 0 m.sta (4 * (128 * a + n) + sub)
  if w.getLsbD 2 then
    let r := numToFp32 .rne (weightNum w)
    (BitVec.ofNat 32 r.1, r.2)
  else (0, 0)

/-- An ACC row replaced by cells. -/
def Marver.cellRow (m : Marver) (row : Nat) (f : Nat → Word × Flags) : Marver :=
  (m.raise (orAll ((List.range 128).map fun n => (f n).2))).putAcc row ((List.range 128).map fun n => (n, (f n).1))

/-- One ACC row of MTRN. -/
def State.mtrnRow (s : State) (c : Crew) (o : MOp) : State × EngEnd :=
  (s, .done (c.marver.cellRow o.step fun a => c.marver.cell a o.step o.arg) (o.step + 1))

/-- One ACC row of MPRM. -/
def State.mprmRow (s : State) (c : Crew) (x : Context) (o : MOp) : State × EngEnd :=
  match s.engBytes c x (o.f8 0) (4 * o.step : Nat) 4 with
  | (s1, .error e) => (s1, engStop e)
  | (s1, .ok bs) =>
    let i := leNat bs
    let mv := c.marver
    if 128 ≤ i then
      (s1, .done ({ mv with mst := mv.mst ||| 0x2000#32 }.cellRow o.step fun _ => (0, 0)) (o.step + 1))
    else (s1, .done (mv.cellRow o.step fun n => mv.cell i n (o.f1 0xC)) (o.step + 1))

/-! ### MDRAIN, MSWAP, MZERO (R265, R267) -/

/-- The bytes and flags of a drained element. -/
def drainElem (fmt : Nat) (sat : Bool) (w : Word) : List Byte × Flags :=
  if fmt = 1 then (leBytes 4 w.toNat, 0)
  else
    let r := narrow (if fmt = 2 then fp16 else bf16) .rne sat w.toNat
    (leBytes 2 r.1, r.2)

/-- MDRAIN: every destination is translated before any is written. -/
def State.mdrain (s : State) (c : Crew) (x : Context) (o : MOp) : State × EngEnd :=
  let es := if o.f1 0xC = 1 then 4 else 2
  let mv := c.marver
  let cols := List.range (o.f2 0x14)
  match engMap (fun t (i : Nat) => t.engPlace c x .write true (o.f8 0) ((i : Int) * o.i4 8) (o.f2 0x14 * es))
      (List.range (o.f2 0x10)) s with
  | (s1, .error e) => (s1, engStop e)
  | (s1, .ok ps) =>
    let rows := (List.range ps.length).map fun i => cols.map fun j =>
      drainElem (o.f1 0xC) (o.f1 0xD % 2 == 1) (mv.accAt (o.f2 0xE + i) (o.f2 0x12 + j))
    let s2 := (ps.zip rows).foldl (fun t p => t.placePut (o.writer c) (p.2.flatMap fun e => e.1) p.1) s1
    let m1 := mv.raise (orAll (rows.flatMap fun r => r.map fun e => e.2))
    let m2 := if o.f1 0xD / 2 % 2 = 1 then
        (List.range ps.length).foldl (fun t i => t.putAcc (o.f2 0xE + i) (cols.map fun j => (o.f2 0x12 + j, 0))) m1
      else m1
    (s2, .done m2 1)

/-- MSWAP: STA and SHD exchanged with their records. -/
def Marver.swap (m : Marver) : Marver := { m with sta := m.shd, shd := m.sta, staRec := m.shdRec, shdRec := m.staRec }

end Sys2Proof.Machine
end

