-- ==== Sys2Proof/Machine/SpecialFn.lean ====
section
/-!
DEFINITION. The special functions RCP, RSQ, SQRT, EXP2, LOG2, SINPI and COSPI (spec 02 R66, R67): each gives the exact
mathematical result rounded once. The transcendental ones are evaluated in fixed point with 448 fractional bits, whose
error lies far below the distance of any FP32 argument's result from a rounding boundary (log entry 7, DEDUCED); the
arguments whose results are exact are separated first.
-/
namespace Sys2Proof.Machine

open Sys2Proof

/-- Fractional bits of the fixed-point evaluation. -/
def fxBits : Nat := 448
/-- One in fixed point. -/
def fxOne : Nat := 2 ^ 448
/-- Pi in fixed point, rounded down. -/
def fxPi : Nat := 0x3243F6A8885A308D313198A2E03707344A4093822299F31D0082EFA98EC4E6C89452821E638D01377BE5466CF34E90C6CC0AC29B7C97C50DD
/-- The natural logarithm of 2 in fixed point, rounded down. -/
def fxLn2 : Nat := 0xB17217F7D1CF79ABC9E3B39803F2F6AF40F343267298B62D8A0D175B8BAAFA2BE7B876206DEBAC98559552FB4AFA1B10ED2EAE35C1382144

/-- The terms of exp(z) from term `k` on, `n` of them: `t` is the term before. -/
def expTerms (z : Nat) : Nat → Nat → Nat → Nat
  | 0, _, _ => 0
  | n + 1, k, t =>
    let t' := t * z / fxOne / k
    t' + expTerms z n (k + 1) t'

/-- 2 to a fixed-point fraction in [0, 1). -/
def fxExp2 (fr : Nat) : Nat := fxOne + expTerms (fr * fxLn2 / fxOne) 110 1 fxOne

/-- The terms of atanh(z) / z from term `k` on: `p` is z^(2k) and `zz` is z^2. -/
def atanhTerms (zz : Nat) : Nat → Nat → Nat → Nat
  | 0, _, _ => 0
  | n + 1, k, p => p / (2 * k + 1) + atanhTerms zz n (k + 1) (p * zz / fxOne)

/-- The binary logarithm of a fixed-point number in [1, 2). -/
def fxLog2 (m : Nat) : Nat :=
  let z := (m - fxOne) * fxOne / (m + fxOne)
  2 * (z * atanhTerms (z * z / fxOne) 150 0 fxOne / fxOne) * fxOne / fxLn2

/-- The terms of sin(z) from term `k` on, with alternating signs: `t` is the term before, `zz` is z^2. -/
def sinTerms (zz : Nat) : Nat → Nat → Nat → Int
  | 0, _, _ => 0
  | n + 1, k, t =>
    let t' := t * zz / fxOne / ((2 * k) * (2 * k + 1))
    (0 : Int) - t' - sinTerms zz n (k + 1) t'

/-- sin(pi r) for a fixed-point r in [0, 1/2]. -/
def fxSinPi (r : Nat) : Nat :=
  let z := r * fxPi / fxOne
  ((z : Int) + sinTerms (z * z / fxOne) 90 1 z).toNat

/-- A magnitude m * 2^e in fixed point; e is at least -448 for every FP32 value. -/
def toFx (m : Nat) (e : Int) : Nat := m * 2 ^ (e + fxBits).toNat

/-- A finite value is an integer. -/
def isInteger (m : Nat) (e : Int) : Bool := decide (0 ≤ e) || m % 2 ^ (-e).toNat == 0

/-- 2^x for a finite x (R66, R67). -/
def exp2Fin (rm : Rm) (sat : Bool) (neg : Bool) (m : Nat) (e : Int) : Nat × Flags :=
  if 12 ≤ bitLen m + e then fp32.pack rm sat false 1 (if neg then -4096 else 4096) false
  else if isInteger m e then
    let k : Int := (if 0 ≤ e then m <<< e.toNat else m >>> (-e).toNat : Nat)
    fp32.pack rm sat false 1 (if neg then -k else k) false
  else
    let x := toFx m e
    let k := x / fxOne
    let fr := x % fxOne
    if neg then fp32.pack rm sat false (fxExp2 (fxOne - fr)) (-(k : Int) - 1 - fxBits) true
    else fp32.pack rm sat false (fxExp2 fr) ((k : Int) - fxBits) true

/-- log2 x for a finite x above 0 (R66, R67). -/
def log2Fin (rm : Rm) (sat : Bool) (m : Nat) (e : Int) : Nat × Flags :=
  let k := Nat.log2 m
  let n := e + k
  if m = 2 ^ k then fp32.pack rm sat (decide (n < 0)) n.natAbs 0 false
  else
    let v : Int := n * fxOne + fxLog2 (m * 2 ^ (fxBits - k))
    fp32.pack rm sat (decide (v < 0)) v.natAbs (-(fxBits : Int)) true

/-- sin(pi x) for a finite x (R66, R67). -/
def sinPiFin (rm : Rm) (sat : Bool) (neg : Bool) (m : Nat) (e : Int) : Nat × Flags :=
  if isInteger m e then (fp32.zero neg, 0)
  else
    let r := toFx m e % (2 * fxOne)
    let s := if fxOne ≤ r then !neg else neg
    let r1 := r % fxOne
    let r2 := if fxOne < 2 * r1 then fxOne - r1 else r1
    if 2 * r2 = fxOne then fp32.pack rm sat s 1 0 false
    else fp32.pack rm sat s (fxSinPi r2) (-(fxBits : Int)) true

/-- cos(pi x) for a finite x (R66, R67). -/
def cosPiFin (rm : Rm) (sat : Bool) (m : Nat) (e : Int) : Nat × Flags :=
  if isInteger m e then
    let odd := if 0 < e then false else (m >>> (-e).toNat) % 2 == 1
    fp32.pack rm sat odd 1 0 false
  else
    let r := toFx m e % (2 * fxOne)
    let r1 := if fxOne < r then 2 * fxOne - r else r
    if 2 * r1 = fxOne then (0, 0)
    else if 2 * r1 < fxOne then fp32.pack rm sat false (fxSinPi (fxOne / 2 - r1)) (-(fxBits : Int)) true
    else fp32.pack rm sat true (fxSinPi (r1 - fxOne / 2)) (-(fxBits : Int)) true

/-- FSFU's function codes (R196) on an FP32 value: 0 RCP, 1 RSQ, 2 SQRT, 3 EXP2, 4 LOG2, 5 SINPI, 6 COSPI. -/
def specialFn (code : Nat) (rm : Rm) (sat : Bool) (a : Nat) : Nat × Flags :=
  match fp32.unpack a with
  | .nan r => (fp32.quiet r, 0)
  | .inf n =>
    match code with
    | 0 => (fp32.zero n, 0)
    | 1 => if n then (fp32.nan, flagNV) else (0, 0)
    | 2 => if n then (fp32.nan, flagNV) else (fp32.inf false, 0)
    | 3 => if n then (0, 0) else (fp32.inf false, 0)
    | 4 => if n then (fp32.nan, flagNV) else (fp32.inf false, 0)
    | _ => (fp32.nan, flagNV)
  | .fin n m e =>
    match code with
    | 0 => if m = 0 then (fp32.inf n, flagDZ) else fp32.divFin rm sat n 1 0 m e
    | 1 => if m = 0 then (fp32.inf n, flagDZ) else if n then (fp32.nan, flagNV) else fp32.rsqrtFin rm sat m e
    | 2 => if m = 0 then (fp32.zero n, 0) else if n then (fp32.nan, flagNV) else fp32.sqrtFin rm sat m e
    | 3 => exp2Fin rm sat n m e
    | 4 => if m = 0 then (fp32.inf true, flagDZ) else if n then (fp32.nan, flagNV) else log2Fin rm sat m e
    | 5 => if m = 0 then (fp32.zero n, 0) else sinPiFin rm sat n m e
    | _ => cosPiFin rm sat m e

end Sys2Proof.Machine
end

