-- ==== Sys2Proof/Machine/Rule.lean ====
section
/-!
DEFINITION. Rules of the Marver (03 R82 to R86): images and their check, and one cell's work at one step.
-/
namespace Sys2Proof.Machine

open Sys2Proof

/-! ### Images (R82, R83) -/

/-- Word `i` of a rule image: the header, then the micro-ops 1 to 8. -/
def ruleWord (img : List Byte) (i : Nat) : Nat := fieldAt img (4 * i) 4
/-- LEN. -/
def ruleLen (img : List Byte) : Nat := ruleWord img 0 / 2 ^ 28
/-- VT: INT32 values. -/
def ruleInt (img : List Byte) : Bool := ruleWord img 0 / 2 ^ 27 % 2 == 1
/-- TBE: the rule produces traceback. -/
def ruleTbe (img : List Byte) : Bool := ruleWord img 0 / 2 ^ 26 % 2 == 1
/-- BWD: a backward rule. -/
def ruleBwd (img : List Byte) : Bool := ruleWord img 0 / 2 ^ 25 % 2 == 1
/-- BM: the column element is read per cell. -/
def ruleBm (img : List Byte) : Bool := ruleWord img 0 / 2 ^ 24 % 2 == 1
/-- Constant K0 to K3. -/
def ruleK (img : List Byte) (i : Nat) : Word := BitVec.ofNat 32 (fieldAt img (0x24 + 4 * i) 4)

/-- A micro-op (R83). -/
structure MicroOp where
  op : Nat
  dst : Nat
  x : Nat
  y : Nat
  z : Nat
  nx : Bool
  ny : Bool
  nz : Bool
  tie : Bool
  low : Nat
  deriving DecidableEq, Repr

/-- The micro-op that a word spells (R83). -/
def MicroOp.ofWord (w : Nat) : MicroOp where
  op := bitsOf w 31 26
  dst := bitsOf w 25 23
  x := bitsOf w 22 19
  y := bitsOf w 18 15
  z := bitsOf w 14 11
  nx := bitsOf w 10 10 == 1
  ny := bitsOf w 9 9 == 1
  nz := bitsOf w 8 8 == 1
  tie := bitsOf w 7 7 == 1
  low := bitsOf w 6 0

/-- The number of sources that an operation reads, 0 for a reserved one (R84). -/
def opArity (op : Nat) : Nat :=
  match op with
  | 1 | 2 | 3 | 5 | 6 | 12 => 2
  | 4 | 7 | 8 | 11 => 3
  | 9 | 10 | 13 => 1
  | _ => 0

/-- Source `i` of a micro-op holds a code that its rule may use (R83). -/
def MicroOp.srcOk (m : MicroOp) (bwd : Bool) (i code : Nat) : Bool :=
  if i < opArity m.op then decide (code < 14) || (code == 14 && bwd) else code == 13

/-- A micro-op word that R86 lets a rule hold. -/
def MicroOp.ok (m : MicroOp) (int bwd : Bool) : Bool :=
  opArity m.op != 0 && decide (m.dst < 6) && m.low == 0 && m.srcOk bwd 0 m.x && m.srcOk bwd 1 m.y &&
  m.srcOk bwd 2 m.z && !(int && (m.op == 9 || m.op == 10)) && !(bwd && decide (4 ≤ m.dst))

/-- The header is at fault (R86). -/
def badHeader (img : List Byte) : Bool :=
  ruleLen img == 0 || decide (8 < ruleLen img) || ruleWord img 0 % 2 ^ 24 != 0 ||
  (ruleBwd img && (ruleInt img || ruleTbe img || ruleBm img))

/-- Micro-op word `u` is at fault (R86). -/
def badMicro (img : List Byte) (u : Nat) : Bool :=
  if ruleLen img < u then ruleWord img u != 0
  else !(MicroOp.ofWord (ruleWord img u)).ok (ruleInt img) (ruleBwd img) ||
    (u == ruleLen img && !ruleBwd img &&
      !(List.range 8).any fun i => decide (i < ruleLen img) && bitsOf (ruleWord img (i + 1)) 25 23 == 4)

/-- The index of the first bad word of an image; none for a sound one (R86). -/
def badRule (img : List Byte) : Option Nat :=
  (List.range 10).find? fun i => if i = 0 then badHeader img else if i < 9 then badMicro img i else !zeroAt img 0x34 12

/-! ### One step of a cell (R84, R85) -/

/-- What a cell reads: its neighbours' values, row and column element, and in a backward rule its own forward value. -/
structure CellIn where
  l : Word
  u : Word
  d : Word
  a : Word
  b : Word
  vf : Word
  deriving DecidableEq, Repr

/-- What a cell holds while its rule runs: t0 to t3, the last value written to V, the traceback, flags. -/
structure CellRun where
  t : List Word
  v : Word
  tb : Nat
  fl : Flags
  deriving DecidableEq, Repr

/-- The value of a source code (R83). -/
def cellSrc (img : List Byte) (c : CellIn) (r : CellRun) (code : Nat) : Word :=
  match code with
  | 0 => c.l
  | 1 => c.u
  | 2 => c.d
  | 3 => c.a
  | 4 => c.b
  | 14 => c.vf
  | n => if 5 ≤ n ∧ n ≤ 8 then ruleK img (n - 5) else if 9 ≤ n ∧ n ≤ 12 then r.t.getD (n - 9) 0 else 0

/-- A source negated where its bit says so (R85). -/
def negIf (int neg : Bool) (w : Word) : Word := if !neg then w else if int then -w else w ^^^ 0x80000000#32

/-- The order of two values of a rule's type, with -0 below +0 (R84). -/
def ruleKey (int : Bool) (w : Word) : Int := if int then w.toInt else fp32.key w.toNat

/-- The better of two selections, the earlier one `p`: `late` prefers the later on equal values. -/
def pickOne (int max late : Bool) (p q : Word × Nat) : Word × Nat :=
  let a := ruleKey int p.1
  let b := ruleKey int q.1
  if a = b then (if late then q else p) else if (if max then decide (a < b) else decide (b < a)) then q else p

/-- MIN, MAX, MIN3TB and MAX3TB: the result and the selection (R84). -/
def pickBest (int max tie : Bool) (first : Word) (rest : List Word) : Word × Nat :=
  match (if int then none else (first :: rest).find? fun w => fp32.isNan w.toNat) with
  | some w => (BitVec.ofNat 32 (fp32.quiet w.toNat), 3)
  | none => ((List.range rest.length).zip rest).foldl (fun p c => pickOne int max (!tie) p (c.2, c.1 + 1)) (first, 0)

/-- A NaN quieted, as every result of an FP32 rule is (R48, R84). -/
def quietWord (w : Word) : Word := if fp32.isNan w.toNat then BitVec.ofNat 32 (fp32.quiet w.toNat) else w

/-- The result of an FP32 operation of code 1 to 4 and 9 to 13 (R84). -/
def ruleFp (zc : Bool) (op : Nat) (x y z : Word) : Word × Flags :=
  let r : Nat × Flags := match op with
    | 1 => fp32.add .rne false zc x.toNat y.toNat
    | 2 => fp32.sub .rne false zc x.toNat y.toNat
    | 3 => fp32.mul .rne false x.toNat y.toNat
    | 4 => fp32.fma .rne false zc false x.toNat y.toNat z.toNat
    | 9 => specialFn 3 .rne false x.toNat
    | 10 => specialFn 4 .rne false x.toNat
    | 11 => ((quietWord (if x.toNat % 2 ^ 31 = 0 then z else y)).toNat, 0)
    | 12 =>
      let eq := !fp32.isNan x.toNat && !fp32.isNan y.toNat && cmpNum (fp32.unpack x.toNat) (fp32.unpack y.toNat) == 0
      (if eq then 0x3F800000 else 0, 0)
    | _ => ((quietWord x).toNat, 0)
  (BitVec.ofNat 32 r.1, r.2)

/-- The result of an INT32 operation of code 1 to 4 and 11 to 13 (R84). -/
def ruleI32 (op : Nat) (x y z : Word) : Word :=
  match op with
  | 1 => x + y
  | 2 => x - y
  | 3 => x * y
  | 4 => x * y + z
  | 11 => if x = 0 then z else y
  | 12 => if x = y then 1 else 0
  | _ => x

/-- LowBits2 (R85). -/
def lowBits2 (int : Bool) (w : Word) : Nat :=
  if int then w.toNat % 4
  else
    match fp32.unpack w.toNat with
    | .fin n m e => (BitVec.ofInt 2 (roundInt .rtz n m e).1).toNat
    | _ => 3

/-- One micro-op (R85). -/
def CellRun.micro (img : List Byte) (zc : Bool) (c : CellIn) (r : CellRun) (m : MicroOp) : CellRun :=
  let int := ruleInt img
  let x := negIf int m.nx (cellSrc img c r m.x)
  let y := negIf int m.ny (cellSrc img c r m.y)
  let z := negIf int m.nz (cellSrc img c r m.z)
  let sel : Option (Word × Nat) :=
    if m.op = 5 ∨ m.op = 6 then some (pickBest int (m.op == 6) m.tie x [y])
    else if m.op = 7 ∨ m.op = 8 then some (pickBest int (m.op == 8) m.tie x [y, z])
    else none
  let res : Word × Flags := match sel with
    | some p => (p.1, 0)
    | none => if int then (ruleI32 m.op x y z, 0) else ruleFp zc m.op x y z
  let r1 : CellRun :=
    if m.dst = 5 then { r with tb := lowBits2 int res.1 }
    else if m.dst = 4 then { r with v := res.1 }
    else { r with t := r.t.set m.dst res.1 }
  { r1 with
    fl := r1.fl ||| res.2
    tb := match sel with
      | some p => if m.op = 7 ∨ m.op = 8 then p.2 else r1.tb
      | none => r1.tb }

/-- The rule of an image run once (R85). -/
def runRule (img : List Byte) (zc : Bool) (c : CellIn) : CellRun :=
  ((List.range (ruleLen img)).map fun u => MicroOp.ofWord (ruleWord img (u + 1))).foldl (CellRun.micro img zc c)
    ⟨[0, 0, 0, 0], 0, 3, 0⟩

end Sys2Proof.Machine
end

