-- ==== Sys2Proof/Machine/Wave.lean ====
section
/-!
DEFINITION. Wave mode: MWAVE and MBACK over their planes, in segments of up to 32 columns that end at drain points (03 R93
to R98, 10 R266).
-/
namespace Sys2Proof.Machine

open Sys2Proof

/-! ### The wave block (R266) -/

/-- P. -/
def MOp.wP (o : MOp) : Nat := o.f4 0
/-- M. -/
def MOp.wM (o : MOp) : Nat := o.f4 4
/-- W. -/
def MOp.wW (o : MOp) : Nat := o.f4 8
/-- ADDR k. -/
def MOp.wAddr (o : MOp) (k : Nat) : Nat := o.f8 (0x10 + 16 * k)
/-- PSTRIDE k. -/
def MOp.wStride (o : MOp) (k : Nat) : Int := o.i8 (0x18 + 16 * k)

/-- The rule image in a slot (R77). -/
def Marver.slot (m : Marver) (n : Nat) : Option (List Byte) := (m.slots.find? fun e => e.1 == n).map (·.2)

/-- Words of operand `k` of plane `p`, from element `first` on; zeros for an absent operand. -/
def State.waveRead (s : State) (c : Crew) (x : Context) (o : MOp) (p : Nat) (r : Nat × Nat × Nat) : EngRes (List Word) :=
  if o.wAddr r.1 = 0 then (s, .ok (List.replicate r.2.2 0))
  else
    match s.engBytes c x (o.wAddr r.1) (p * o.wStride r.1 + (4 * r.2.1 : Nat)) (4 * r.2.2) with
    | (s1, .error e) => (s1, .error e)
    | (s1, .ok bs) => (s1, .ok ((List.range r.2.2).map fun i => BitVec.ofNat 32 (leNat (slice bs (4 * i) 4))))

/-- Bytes to write into operand `k` of plane `p` at a byte offset: which bits of each, and their values. -/
structure WavePut where
  p : Nat
  k : Nat
  off : Nat
  data : List (Byte × Byte)
  deriving DecidableEq, Repr

/-- Words to write from element `first` on. -/
def putWords (p k first : Nat) (ws : List Word) : WavePut :=
  ⟨p, k, 4 * first, (ws.flatMap fun w => leBytes 4 w.toNat).map fun b => (0xFF, b)⟩

/-- The mask and value of byte `b` of TRACE for cells `c0` on, of `total` cells: unused bits are written 0 (R266). -/
def traceByte (total c0 : Nat) (tbs : List Nat) (b : Nat) : Byte × Byte :=
  (List.range 4).foldl (fun r q =>
    let c := 4 * b + q
    let bits : Byte := (3 : Byte) <<< (2 * q)
    if c0 ≤ c ∧ c < c0 + tbs.length then (r.1 ||| bits, r.2 ||| (BitVec.ofNat 8 (tbs.getD (c - c0) 3) <<< (2 * q)))
    else if total ≤ c then (r.1 ||| bits, r.2) else r) (0, 0)

/-- Traceback codes to write from cell `c0` on. -/
def putTrace (p total c0 : Nat) (tbs : List Nat) : WavePut :=
  let b0 := c0 / 4
  ⟨p, 7, b0, (List.range ((c0 + tbs.length - 1) / 4 + 1 - b0)).map fun i => traceByte total c0 tbs (b0 + i)⟩

/-- One write performed at its place. -/
def State.waveWrite (s : State) (c : Crew) (w : Writer) (e : EngPlace × WavePut) : State :=
  let old := s.placeGet ((s.crewAt c.key).getD c) e.2.data.length e.1
  s.placePut w (old.zipWith (fun b d => (b &&& ~~~ d.1) ||| (d.2 &&& d.1)) e.2.data) e.1

/-- The outputs of a segment written: every place is translated before any is written. -/
def State.wavePuts (s : State) (c : Crew) (x : Context) (o : MOp) (l : List WavePut) : EngRes Unit :=
  let l1 := l.filter fun w => o.wAddr w.k != 0
  match engMap (fun t (w : WavePut) =>
      t.engPlace c x .write true (o.wAddr w.k) (w.p * o.wStride w.k + (w.off : Nat)) w.data.length) l1 s with
  | (s1, .error e) => (s1, .error e)
  | (s1, .ok ps) => ((ps.zip l1).foldl (fun t e => t.waveWrite c (o.writer c) e) s1, .ok ())

/-- What a segment computes for a plane: its outputs, its edge by row, its flags. -/
structure WaveOut where
  puts : List WavePut
  edge : List (Word × Word)
  fl : Flags
  deriving DecidableEq, Repr

/-- The edge buffers after a segment (R77, R98). -/
def edgeCells (outs : List WaveOut) : List (Nat × BitVec 32) :=
  ((List.range outs.length).zip outs).flatMap fun po =>
    ((List.range po.2.edge.length).zip po.2.edge).flatMap fun ie =>
      (if ie.2.1 = 0 then [] else [(256 * po.1 + 2 * ie.1, ie.2.1)]) ++
      (if ie.2.2 = 0 then [] else [(256 * po.1 + 2 * ie.1 + 1, ie.2.2)])

/-- Word `w` of the edge of row index `i` of plane `p`. -/
def Marver.edge (m : Marver) (p i w : Nat) : Word := Sparse.get 0 m.edges (256 * p + 2 * i + w)

/-! ### The forward wave (R93, R95) -/

/-- The cells of one row from the left: `l` the left and `d` the diagonal value of the first; upper values and column
elements by column. -/
def fwdCells (img : List Byte) (zc : Bool) (a l d : Word) : List (Word × Word) → List CellRun
  | [] => []
  | ub :: rest =>
    let r := runRule img zc ⟨l, ub.1, d, a, ub.2, 0⟩
    r :: fwdCells img zc a r.v ub.1 rest

/-- The rows of a segment from the top: `prev` holds the row above from the left edge on; each row brings its left
value, its row element and its column elements. -/
def fwdRows (img : List Byte) (zc : Bool) (prev : List Word) : List (Word × Word × List Word) → List (List CellRun)
  | [] => []
  | r :: rest =>
    let row := fwdCells img zc r.2.1 r.1 (prev.headD 0) (prev.tail.zip r.2.2)
    row :: fwdRows img zc (r.1 :: row.map (·.v)) rest

/-- What a forward segment reads of a plane (R93). -/
def fwdReqs (o : MOp) (bm : Bool) (j0 n : Nat) : List (Nat × Nat × Nat) :=
  [(0, 0, o.wM), (2, j0, n + 1), (3, 0, o.wM)] ++
  (if bm then (List.range o.wM).map fun i => (1, i * o.wW + j0, n) else [(1, j0, n)])

/-- A forward segment of a plane: columns j0 + 1 to j0 + n (R93). -/
def fwdPlane (mv : Marver) (o : MOp) (img : List Byte) (p j0 n : Nat) (ins : List (List Word)) : WaveOut :=
  let arow := ins.getD 0 []
  let left (i : Nat) : Word := if j0 = 0 then (ins.getD 2 []).getD i 0 else mv.edge p i 0
  let bs (i : Nat) : List Word := if ruleBm img then ins.getD (3 + i) [] else ins.getD 3 []
  let rows := fwdRows img o.zc (ins.getD 1 []) ((List.range o.wM).map fun i => (left i, arow.getD i 0, bs i))
  let last := (rows.getLast?.getD []).map (·.v)
  let edge := rows.map fun r => ((r.getLast?.map (·.v)).getD 0, (0 : Word))
  let each {β : Type} (f : Nat → List CellRun → β) : List β := (List.range rows.length).zipWith f rows
  { puts :=
      [if j0 = 0 then putWords p 4 0 (left (o.wM - 1) :: last) else putWords p 4 (j0 + 1) last] ++
      (if j0 + n = o.wW then [putWords p 5 0 (edge.map (·.1))] else []) ++
      (each fun i r => putWords p 6 (i * o.wW + j0) (r.map (·.v))) ++
      (each fun i r => putTrace p (o.wM * o.wW) (i * o.wW + j0) (r.map fun t => if ruleTbe img then t.tb else 3))
    edge := edge
    fl := orAll (rows.flatMap fun r => r.map (·.fl)) }

/-! ### The backward sweep (R96, R97) -/

/-- Nothing passes the other addend through, a NaN quieted (R48, R96). -/
def addOpt (zc : Bool) (x y : Option Word × Flags) : Option Word × Flags :=
  match x.1, y.1 with
  | none, b => (b.map quietWord, x.2 ||| y.2)
  | a, none => (a.map quietWord, x.2 ||| y.2)
  | some a, some b =>
    let r := fp32.add .rne false zc a.toNat b.toNat
    (some (BitVec.ofNat 32 r.1), x.2 ||| y.2 ||| r.2)

/-- What a cell of the backward sweep gives: E and the gradients passed left, up and diagonally. -/
structure BackOut where
  e : Word
  gl : Word
  gu : Word
  gd : Word
  fl : Flags
  deriving DecidableEq, Repr

/-- One cell of the backward sweep with its incoming gradients (R96). -/
def backCell (img : List Byte) (zc : Bool) (c : CellIn) (right below diag : Option Word) : BackOut :=
  let s := addOpt zc (addOpt zc (right, 0) (below, 0)) (diag, 0)
  let e := s.1.getD (if zc then 0 else 0x80000000#32)
  let r := runRule img zc c
  let g (i : Nat) : Nat × Flags := fp32.mul .rne false e.toNat ((r.t.getD i 0).toNat)
  ⟨e, BitVec.ofNat 32 (g 1).1, BitVec.ofNat 32 (g 2).1, BitVec.ofNat 32 (g 3).1, s.2 ||| r.fl ||| (g 1).2 ||| (g 2).2 ||| (g 3).2⟩

/-- The cells of one column from the bottom: each with its values and its right and diagonal gradients. -/
def backCells (img : List Byte) (zc : Bool) (below : Option Word) :
    List (CellIn × Option Word × Option Word) → List BackOut
  | [] => []
  | c :: rest =>
    let r := backCell img zc c.1 c.2.1 below c.2.2
    r :: backCells img zc (some r.gu) rest

/-- The gradients that enter a column by row: from the right, and from the lower right for all rows but the last. -/
structure GradEdge where
  right : List (Option Word)
  diag : List (Option Word)
  deriving DecidableEq, Repr

/-- The edge that a column, given from the top, leaves to its left. -/
def gradEdge (col : List BackOut) : GradEdge :=
  ⟨col.map fun r => some r.gl, (col.drop 1).map fun r => some r.gd⟩

/-- The inputs of a backward segment of a plane, as read (R96). -/
structure BackIn where
  arow : List Word
  bcol : List Word
  v : List (List Word)
  gbu : Nat → Option Word
  corner : Nat → Option Word

/-- Columns from the right, `q` counting down from `n`: each column's cells from the top. -/
def backCols (img : List Byte) (zc : Bool) (b : BackIn) (m : Nat) : Nat → GradEdge → List (List BackOut) × GradEdge
  | 0, g => ([], g)
  | q + 1, g =>
    let at_ (i k : Nat) : Word := (b.v.getD i []).getD k 0
    let cells := (List.range m).map fun i =>
      let c : CellIn := ⟨at_ (i + 1) q, at_ i (q + 1), at_ i q, b.arow.getD i 0, b.bcol.getD q 0, at_ (i + 1) (q + 1)⟩
      (c, (g.right.getD i none), if i + 1 = m then b.corner q else g.diag.getD i none)
    let col := (backCells img zc (b.gbu q) cells.reverse).reverse
    let rest := backCols img zc b m q (gradEdge col)
    (col :: rest.1, rest.2)

/-- What a backward segment reads of a plane (R96). -/
def backReqs (o : MOp) (j0 n : Nat) : List (Nat × Nat × Nat) :=
  [(0, 0, o.wM), (1, j0, n), (2, j0, n + 1), (3, 0, o.wM), (8, 0, o.wM), (9, 0, o.wM), (10, j0 + 1, n), (11, j0 + 1, n),
   (12, 0, 1)] ++
  (List.range o.wM).map fun i => if j0 = 0 then (6, i * o.wW, n) else (6, i * o.wW + j0 - 1, n + 1)

/-- A backward segment of a plane: columns j0 + n down to j0 + 1 (R96). -/
def backPlane (mv : Marver) (o : MOp) (img : List Byte) (p j0 n : Nat) (ins : List (List Word)) : WaveOut :=
  let opt (k : Nat) (l : List Word) (i : Nat) : Option Word := if o.wAddr k = 0 then none else l[i]?
  let left := ins.getD 3 []
  let m := o.wM
  let b : BackIn := {
    arow := ins.getD 0 [], bcol := ins.getD 1 []
    v := ins.getD 2 [] :: (List.range m).map fun i =>
      if j0 = 0 then left.getD i 0 :: ins.getD (9 + i) [] else ins.getD (9 + i) []
    gbu := fun q => opt 10 (ins.getD 6 []) q
    corner := fun q => if j0 + q + 1 = o.wW then opt 12 (ins.getD 8 []) 0 else opt 11 (ins.getD 7 []) q }
  let g0 : GradEdge :=
    if o.step = 0 then ⟨(List.range m).map (opt 8 (ins.getD 4 [])), (List.range m).map (opt 9 (ins.getD 5 []))⟩
    else ⟨(List.range m).map fun i => some (mv.edge p i 0), (List.range m).map fun i => some (mv.edge p i 1)⟩
  let r := backCols img o.zc b m n g0
  let cols := r.1.reverse
  let out (i q : Nat) : BackOut := (cols.getD q []).getD i ⟨0, 0, 0, 0, 0⟩
  let ns := List.range n
  let edge := (List.range m).map fun i => ((out i 0).gl, if i + 1 = m then (0 : Word) else (out (i + 1) 0).gd)
  { puts :=
      ((List.range m).map fun i => putWords p 13 (i * o.wW + j0) (ns.map fun q => (out i q).e)) ++
      [putWords p 16 (j0 + 1) (ns.map fun q => (out 0 q).gu), putWords p 17 j0 (ns.map fun q => (out 0 q).gd)] ++
      (if j0 + n = o.wW then [putWords p 17 o.wW [0]] else []) ++
      (if j0 = 0 then
        [putWords p 16 0 [0], putWords p 14 0 (edge.map (·.1)), putWords p 15 0 (edge.map (·.2))] else [])
    edge := edge
    fl := orAll (cols.flatMap fun c => c.map (·.fl)) }

/-! ### A segment -/

/-- The next segment of MWAVE or MBACK, up to 32 columns of every plane (R94, R98). Columns before the step from which the
operation was resumed leave their edge alone: they write no output and raise no flag (R100). MST.STEP of a stop inside the segment
is its first column (R81; DESIGN CHOICE, log entry 43). -/
def State.waveSegment (s : State) (c : Crew) (x : Context) (o : MOp) : State × EngEnd :=
  let mv := c.marver
  let back := o.eop == 6
  match mv.slot (o.f1 0xC) with
  | none => (s, .fail)
  | some img =>
    if ruleBwd img != back then (s, .fail)
    else
      let n := min 32 (o.wW - o.step)
      let j0 := if back then o.wW - o.step - n else o.step
      let reqs := if back then backReqs o j0 n else fwdReqs o (ruleBm img) j0 n
      match engMap (fun t p => engMap (fun u r => u.waveRead c x o p r) reqs t) (List.range o.wP) s with
      | (s1, .error e) => (s1, engStop e)
      | (s1, .ok ins) =>
        let outs := (List.range o.wP).zipWith (fun p l =>
          if back then backPlane mv o img p j0 n l else fwdPlane mv o img p j0 n l) ins
        if o.step < o.skip then (s1, .done { mv with edges := edgeCells outs } (o.step + n))
        else
          match s1.wavePuts c x o (outs.flatMap fun w => w.puts) with
          | (s2, .error e) => (s2, engStop e)
          | (s2, .ok _) =>
            let m1 := mv.raise (orAll (outs.map fun w => w.fl))
            (s2, .done { m1 with edges := edgeCells outs } (o.step + n))

end Sys2Proof.Machine
end

