-- ==== Sys2Proof/Machine/Marver.lean ====
section
/-!
DEFINITION. The Marver's instructions and its operation queue (03 R79 to R81, R86, R98 to R100, 10 R256 to R270).
-/
namespace Sys2Proof.Machine

open Sys2Proof

/-! ### The engine of a crew -/

/-- The Marver of a crew changed. -/
def State.mapMarver (s : State) (k : CrewKey) (f : Marver → Marver) : State :=
  s.mapCrewAt k fun c => { c with marver := f c.marver }
/-- An operation of the queue replaced. -/
def Marver.putOp (m : Marver) (o : MOp) : Marver := { m with queue := m.queue.map fun p => if p.id = o.id then o else p }
/-- MST.STOP (R78). -/
def Marver.stopped (m : Marver) : Bool := m.mst.getLsbD 14
/-- MST.STEP (R78). -/
def Marver.stepField (m : Marver) : Nat := bitsOf m.mst.toNat 31 19

/-- The number of steps of an operation; 1 for one that runs whole (R98). -/
def MOp.total (o : MOp) : Nat :=
  match o.eop with
  | 4 => o.f4 0x10
  | 5 => o.wW
  | 6 => o.wW
  | 9 => 128
  | 10 => o.f4 8
  | _ => 1
/-- MWAVE or MBACK. -/
def MOp.isWave (o : MOp) : Bool := o.eop == 5 || o.eop == 6
/-- The steps between drain points (R98). -/
def MOp.grain (o : MOp) : Nat := if o.isWave then 32 else 16
/-- An operation without drain points (R98). -/
def MOp.whole (o : MOp) : Bool := o.eop == 2 || o.eop == 3 || o.eop == 7 || o.eop == 8
/-- A compute operation (R79). -/
def MOp.compute (o : MOp) : Bool := !o.whole

/-- The next step of an operation: a row, a segment of a wave, or the whole. An MSTRM whose ROWS pass the span of the mode that
STA has when it runs stops with an engine error at the first row beyond (DESIGN CHOICE, log entry 77). -/
def State.opStep (s : State) (c : Crew) (x : Context) (o : MOp) : State × EngEnd :=
  match o.eop with
  | 2 => s.mstat c x o
  | 3 => (s, .done c.marver.swap 1)
  | 4 => if modeSpan c.marver.staRec.mode ≤ o.step then (s, .fail) else s.strmRow c x o
  | 5 => s.waveSegment c x o
  | 6 => s.waveSegment c x o
  | 7 => s.mdrain c x o
  | 8 => (s, .done { c.marver with acc := [] } 1)
  | 9 => s.mtrnRow c o
  | 10 => s.mprmRow c x o
  | _ => s.strmRow c x o

/-- MST of a stopped or interrupted operation: STEP, EOP, and STOP (R78). -/
def mstStep (mst : BitVec 32) (o : MOp) (stop : Bool) : BitVec 32 :=
  BitVec.ofNat 32
    (mst.toNat % 2 ^ 14 + (if stop then 2 ^ 14 else 0) + o.eop % 16 * 2 ^ 15 + max o.step o.skip % 2 ^ 13 * 2 ^ 19)

/-- An engine error: the operation stops with MST.STOP = 1 (R81). With another operation stopped already, this one takes
its error once that one has been resumed or discarded. -/
def Marver.engError (m : Marver) (o : MOp) : Marver :=
  if m.stopped then m.putOp { o with failed := true, keys := [] }
  else { m.putOp { o with state := .stopped, failed := false, keys := [] } with mst := mstStep m.mst o true }

/-- A started operation run to its next drain point, or until it waits or stops (R81, R98). -/
def State.opRun (k : CrewKey) (id : Nat) : Nat → State → State
  | 0, s => s
  | f + 1, s =>
    match s.crewAt k, (s.crewAt k).bind s.crewCtx with
    | some c, some x =>
      match c.marver.queue.find? fun o => o.id == id with
      | none => s
      | some o =>
        if o.total ≤ o.step then s
        else if o.failed then s.mapMarver k fun m => m.engError o
        else
          match s.opStep c x o with
          | (s1, .wait ks) => s1.mapMarver k fun m => m.putOp { o with keys := ks }
          | (s1, .fail) => s1.mapMarver k fun m => m.engError o
          | (s1, .done m n) =>
            let s2 := s1.mapMarver k fun _ => m.putOp { o with step := n, keys := [] }
            if o.total ≤ n ∨ n % o.grain = 0 then s2 else State.opRun k id f s2
    | _, _ => s

/-- An operation may start (R79): a load after every earlier load and exchange; a compute operation over loads that have
started; any other after everything. -/
def canStart (earlier : List MOp) (o : MOp) : Bool :=
  if o.eop = 2 then !earlier.any fun e => e.eop == 2 || e.eop == 3
  else if o.compute then earlier.all fun e => e.eop == 2 && e.state == .running
  else earlier.isEmpty

/-- MARVER_OP_START (R79, R81, R99). -/
def execMarverOpStart (k : CrewKey) (ix : Nat) (s : State) : Step :=
  match s.crewAt k with
  | none => s.absent
  | some c =>
    let m := c.marver
    match m.queue.find? fun o => o.id == ix with
    | none => s.absent
    | some o =>
      if o.state ≠ .queued ∨ !o.keys.isEmpty ∨ m.stopped ∨ c.area.isSome ∨ !canStart (m.queue.takeWhile fun e => e.id != ix) o then
        s.absent
      else .next ((s.mapMarver k fun x => x.putOp { o with state := .running }).opRun k ix 16)

/-- The operation is between two drain points: a step of it has been done since the last one (R98). -/
def MOp.between (o : MOp) : Bool := o.step % o.grain != 0 && decide (o.step < o.total)

/-- A running operation that has a step to take and waits on no page. In a pre-emption an operation goes on only to its next
drain point, and one without drain points completes first (R98, R99). -/
def Crew.runnable (c : Crew) : Option MOp :=
  c.marver.queue.find? fun o =>
    o.state == .running && decide (o.step < o.total) && o.keys.isEmpty && !(o.failed && c.marver.stopped) &&
      (c.area.isNone || o.whole || o.between)

/-- An operation leaves the queue; a wave's edges go with it. -/
def Marver.dropOp (m : Marver) (o : MOp) : Marver :=
  { m with queue := m.queue.filter fun p => p.id != o.id, edges := if o.isWave then [] else m.edges }

/-- MST.POIS set. -/
def Marver.setPois (m : Marver) : Marver := { m with mst := m.mst ||| 0x1000#32 }

/-- The writes of an operation made visible as it ends (R80): at the scope of its arrival; without a barrier to its cluster, where
MWAIT and MFENCE observe it. -/
def State.exposeOp (s : State) (c : Crew) (o : MOp) : State :=
  s.expose (if o.barrier.isSome then o.scope else 4) fun u => u.writer == o.writer c

/-- MARVER_OP_COMPLETE: the operation arrives on its barrier as its last action (R80, R267). -/
def execMarverOpComplete (k : CrewKey) (ix : Nat) (s : State) : Step :=
  match s.crewAt k with
  | none => s.absent
  | some c =>
    match c.marver.queue.find? fun o => o.id == ix with
    | none => s.absent
    | some o =>
      if o.state ≠ .running ∨ o.step < o.total then s.absent
      else
        let s1 := (s.exposeOp c o).mapMarver k fun m => m.dropOp o
        match o.barrier with
        | none => .next s1
        | some r =>
          let b := c.bar r
          let s2 := s1.arrive k r
          .next (if b.poison || b.rem == 0 then s2.mapMarver k Marver.setPois else s2)

/-- An operation discarded: its barrier poisoned and POIS set (R81). -/
def State.discardOp (s : State) (k : CrewKey) (o : MOp) : State :=
  let s1 := s.mapMarver k fun m => (m.dropOp o).setPois
  match o.barrier with
  | none => s1
  | some r => s1.poisonBar k r

/-! ### Issue (R256 to R261) -/

/-- The value of an A or B field of an FE word: 0 stands for 0 (R256). -/
def State.fe (s : State) (f : BitVec 5) : DWord := if f = 0 then 0 else s.sreg f

/-- The ILLEGAL_OPERAND of an operand value that an engine instruction refuses. -/
def State.badValue (s : State) (bad : Bool) (w : Word) (f : Nat) : Option Trap := operandIf bad w f s.self.cur.lanes

/-- The form of the barrier reference in B (R242, R259). -/
def State.barForm (s : State) (b : BitVec 5) (w : Word) : Option Trap := if b = 0 then none else s.refForm (s.sreg b) w 2

/-- An engine instruction: decode checks, EXCL, the required A, the values that its operands refuse, then ENGINE_FAULT while
STOP = 1 (R178, R259, R260, R270; log entry 48). -/
def State.engine (s : State) (w : Word) (n : Needs) (b : BitVec 5) (need excl stopOk : Bool) (a : BitVec 5)
    (vals : List (Option Trap)) (k : State → Exit) : Step :=
  let m := s.self.cur.lanes
  let sc := s.hmod.scope
  let mcf := s.crew.marver.mcf
  let barred := mcf.getLsbD 4 && bitsOf mcf.toNat 6 5 != s.self.unit.ix
  s.frame w m
    [s.issueCheck n (sc != 0 && (b == 0 || decide (sc.toNat < 4))) w m,
     if excl && barred then some (Trap.at .illegalIssuer w.toNat m) else none, operandIf (need && a == 0) w 1 m]
    [] fun s1 _ =>
      if m = 0 then .done s1
      else
        match firstTrap vals with
        | some t => .trap s1 t
        | none =>
          if s1.crew.marver.stopped && !stopOk then s1.stop .engineFault s1.crew.marver.mst.toNat else k s1

/-- The needs of an engine instruction: SCOPE only with a barrier, and never 1 to 3 (R259). -/
def engNeeds (scope : Bool) (feat : Nat) : Needs where
  hmod := { scope := scope }
  feat := feat
  issuer := .gaffer
  run := .never

/-- The arrival barrier that B names (R259). -/
def State.barrierOf (s : State) (b : BitVec 5) (w : Word) : Except Trap (Option ScrRef) :=
  if b = 0 then .ok none
  else
    match s.ref (s.sreg b) w 2 32 false with
    | .error t => .error t
    | .ok r => .ok (some r)

/-- The operand block that A names, read at issue (R261). -/
def State.engBlock (s : State) (a : BitVec 5) (w : Word) (align size : Nat) : Except Trap (List Byte) :=
  match s.ref (s.sreg a) w 1 align false with
  | .error t => .error t
  | .ok r =>
    if s.crew.sizeOf r < r.off + size then .error (Trap.at .xlate r.off s.self.cur.lanes)
    else if s.crew.scrPoison r.gang r.off size then .error (Trap.at .eccUe r.off s.self.cur.lanes)
    else .ok (s.crew.scrBytes r.gang r.off size)

/-- The operation placed in the queue; a full queue stalls the thread (R267). -/
def State.enqueueOp (s : State) (w : Word) (eop : Nat) (b : BitVec 5) (block : List Byte) (arg : Nat) : Exit :=
  match s.barrierOf b w with
  | .error t => .trap s t
  | .ok bar =>
    let m := s.crew.marver
    if Config.marverDepth ≤ m.queue.length then .wait s .poll
    else
      let dscope := bitsOf m.mcf.toNat 3 0
      let o : MOp := {
        id := m.nextId, eop := eop, thread := s.self.unit.ix, barrier := bar
        scope := s.scopeOr (if dscope = 0 then 4 else dscope), zc := s.zc, block := block, arg := arg, step := 0
        skip := 0, state := .queued, failed := false, keys := [] }
      .done { s with crew := { s.crew with marver := { m with queue := m.queue ++ [o], nextId := m.nextId + 1 } } }

/-- The first offending field of a block (R261): block offsets in rising order, each with whether it offends. -/
def firstBad (l : List (Nat × Bool)) : Option Nat := (l.find? fun e => e.2).map (·.1)

/-- A scratchpad extent that passes S: offsets of its parts, each `tail` bytes long (R261). -/
def Crew.extentOut (c : Crew) (ea : Nat) (offs : List Int) (tail : Nat) : Option Nat :=
  if eaScr ea && offs.any fun o => decide ((eaBase ea : Int) + o < 0) ||
      decide ((c.sizeOf ⟨eaGang ea, 0⟩ : Int) < (eaBase ea : Int) + o + tail) then some (eaBase ea) else none

/-- An instruction with an operand block: fields, then extents, then the queue (R261). -/
def State.blockOp (s : State) (w : Word) (eop : Nat) (a b : BitVec 5) (align size arg : Nat)
    (bad : MOp → List (Nat × Bool)) (out : MOp → Option Nat) : Exit :=
  match s.engBlock a w align size with
  | .error t => .trap s t
  | .ok bs =>
    let o : MOp := ⟨0, eop, 0, none, 0, false, bs, arg, 0, 0, .queued, false, []⟩
    match firstBad (bad o) with
    | some f => s.stop .illegalOperand (5 * 2 ^ 32 + f)
    | none =>
      match out o with
      | some v => s.stop .xlate v
      | none => s.enqueueOp w eop b bs arg

/-! ### MRULE, MCFG -/

/-- MRULE: waits for every earlier operation, checks the image and loads the slot (R82, R86). -/
def execMrule (a b : BitVec 5) (s : State) : Step :=
  let w := encode (.mrule a b)
  let slot := (s.fe b).toNat
  s.engine w (engNeeds false 0) 0 true true false a [s.refForm (s.sreg a) w 1, s.badValue (decide (15 < slot)) w 2] fun s1 =>
    match s1.engBlock a w 4 64 with
    | .error t => .trap s1 t
    | .ok img =>
      if !s1.crew.marver.queue.isEmpty then .wait s1 .poll
      else
        match badRule img with
        | some i => s1.stop .engineFault i
        | none => .done (s1.mapMarver s1.crew.key fun m =>
            { m with slots := (slot, img) :: m.slots.filter fun e => e.1 != slot })

/-- MCFG (R260). -/
def execMcfg (d a : BitVec 5) (s : State) : Step :=
  let w := encode (.mcfg d a)
  let v := (s.sreg a).toNat
  let bad := a != 0 && (decide (2 ^ 7 ≤ v) || (decide (1 ≤ v % 16) && decide (v % 16 ≤ 3)) || decide (9 < v % 16))
  s.engine w (engNeeds false 0) 0 false false false a [s.badValue bad w 1] fun s1 =>
    let old := s1.crew.marver.mcf.setWidth 64
    if a = 0 then .done (s1.putD d old)
    else .done ((s1.mapMarver s1.crew.key fun m => { m with mcf := BitVec.ofNat 32 v }).putD d old)

/-! ### Operations with blocks -/

/-- An FMT or XFMT of a block is reserved (R262). -/
def badFmt (f : Nat) : Bool := f != 0 && !((decide (f < 4) || fmtB8 f) && decide (f < 64))

/-- The fields of an MSTAT block that offend (R262). -/
def statBad (c : Crew) (o : MOp) : List (Nat × Bool) :=
  let fmt := o.f1 0x1C
  let mode := o.f1 0x1D
  let known := fmt != 0 && !badFmt fmt
  let es := if known then elemSize fmt else 1
  let full := if known then classSubs (widthClass fmt) * 128 else 512
  let ch := if mode ≤ 2 then modeChains mode else 1
  let ea := o.f8 0
  [(0x00, ea == 0 || !c.eaOk ea || (fmt == 0 && eaScr ea) || ea % es != 0),
   (0x08, mode != 0 && o.f8 8 % es != 0),
   (0x10, o.f4 0x10 == 0 || decide (full / ch < o.f4 0x10)),
   (0x14, o.f4 0x14 == 0 || decide (128 < o.f4 0x14)),
   (0x18, o.f4 0x18 % es != 0),
   (0x1C, badFmt fmt),
   (0x1D, decide (2 < mode)),
   (0x1E, !zeroAt o.block 0x1E 34)]

/-- The scratchpad extent of an MSTAT block. -/
def statOut (c : Crew) (o : MOp) : Option Nat :=
  let es := elemSize (o.f1 0x1C)
  let hs : List Int := if o.f1 0x1D = 0 then [0] else [0, ((modeChains (o.f1 0x1D) - 1 : Nat) : Int) * o.i8 8]
  let rs : List Int := [0, ((o.f4 0x10 - 1 : Nat) : Int) * o.i4 0x18]
  c.extentOut (o.f8 0) (hs.flatMap fun h => rs.map fun r => h + r) (o.f4 0x14 * es)

/-- MSTAT (R88, R262). -/
def execMstat (a b : BitVec 5) (s : State) : Step :=
  let w := encode (.mstat a b)
  s.engine w (engNeeds true 0) b true true false a [s.refForm (s.sreg a) w 1, s.barForm b w] fun s1 =>
    s1.blockOp w 2 a b 64 64 0 (statBad s1.crew) (statOut s1.crew)

/-- The record that STA will hold when an operation issued now starts (R263). -/
def Marver.futureRec (m : Marver) : PlaneRec :=
  (m.queue.foldl (fun (r : PlaneRec × PlaneRec) o =>
    if o.eop = 2 ∧ o.step = 0 then (r.1, ⟨o.f4 0x10, o.f4 0x14, o.f1 0x1D, none⟩)
    else if o.eop = 3 ∧ o.step = 0 then (r.2, r.1) else r) (m.staRec, m.shdRec)).1

/-- The fields of an MSTRM block that offend (R263). -/
def strmBad (c : Crew) (o : MOp) : List (Nat × Bool) :=
  let ea := o.f8 0
  let span := modeSpan c.marver.futureRec.mode
  [(0x00, ea == 0 || !c.eaOk ea || (o.f1 0x18 == 0 && eaScr ea)),
   (0x10, o.f4 0x10 == 0 || decide (span < o.f4 0x10)),
   (0x18, badFmt (o.f1 0x18)),
   (0x19, !zeroAt o.block 0x19 39)]

/-- The scratchpad extent of an MSTRM block. -/
def strmOut (c : Crew) (o : MOp) : Option Nat :=
  let r := c.marver.futureRec
  if r.k = 0 then none
  else
    let hs : List Int := if r.mode = 0 then [0] else [0, ((modeChains r.mode - 1 : Nat) : Int) * o.i8 8]
    let rs : List Int := [0, ((o.f4 0x10 - 1 : Nat) : Int) * o.i4 0x14]
    c.extentOut (o.f8 0) (hs.flatMap fun h => rs.map fun q => h + q) (r.k * elemSize (o.f1 0x18))

/-- MSTRM (R89, R263). -/
def execMstrm (a b : BitVec 5) (st : BitVec 1) (s : State) : Step :=
  let w := encode (.mstrm a b st)
  s.engine w (engNeeds true 0) b true true false a [s.refForm (s.sreg a) w 1, s.barForm b w] fun s1 =>
    s1.blockOp w 4 a b 64 64 st.toNat (strmBad s1.crew) (strmOut s1.crew)

/-- The fields of an MPRM block that offend (R264). -/
def prmBad (c : Crew) (o : MOp) : List (Nat × Bool) :=
  [(0, o.f8 0 == 0 || !c.eaOk (o.f8 0) || o.f8 0 % 4 != 0), (8, o.f4 8 == 0 || decide (128 < o.f4 8)),
   (0xC, decide (3 < o.f1 0xC)), (0xD, !zeroAt o.block 0xD 3)]

/-- MPRM (R92, R264). -/
def execMprm (a b : BitVec 5) (s : State) : Step :=
  let w := encode (.mprm a b)
  s.engine w (engNeeds true 0) b true true false a [s.refForm (s.sreg a) w 1, s.barForm b w] fun s1 =>
    s1.blockOp w 10 a b 16 16 0 (prmBad s1.crew) fun o => s1.crew.extentOut (o.f8 0) [0] (4 * o.f4 8)

/-- The fields of an MDRAIN block that offend (R265). -/
def drainBad (c : Crew) (o : MOp) : List (Nat × Bool) :=
  let es := if o.f1 0xC = 1 then 4 else 2
  [(0, o.f8 0 == 0 || !c.eaOk (o.f8 0) || o.f8 0 % es != 0), (8, o.f4 8 % es != 0),
   (0xC, o.f1 0xC == 0 || decide (3 < o.f1 0xC)), (0xD, decide (3 < o.f1 0xD)), (0xE, decide (127 < o.f2 0xE)),
   (0x10, o.f2 0x10 == 0 || decide (128 < o.f2 0xE + o.f2 0x10)), (0x12, decide (127 < o.f2 0x12)),
   (0x14, o.f2 0x14 == 0 || decide (128 < o.f2 0x12 + o.f2 0x14)), (0x16, !zeroAt o.block 0x16 42)]

/-- MDRAIN (R265). -/
def execMdrain (a b : BitVec 5) (s : State) : Step :=
  let w := encode (.mdrain a b)
  s.engine w (engNeeds true 0) b true true false a [s.refForm (s.sreg a) w 1, s.barForm b w] fun s1 =>
    s1.blockOp w 7 a b 64 64 0 (drainBad s1.crew) fun o =>
      s1.crew.extentOut (o.f8 0) [0, ((o.f2 0x10 - 1 : Nat) : Int) * o.i4 8]
        (o.f2 0x14 * (if o.f1 0xC = 1 then 4 else 2))

/-- Descriptor `k` of a wave block offends, at its ADDR and at its PSTRIDE (R266). -/
def waveDesc (c : Crew) (back : Bool) (o : MOp) (k : Nat) : List (Nat × Bool) :=
  let ea := o.wAddr k
  let absent := if back then k == 4 || k == 5 || k == 7 else decide (8 ≤ k)
  [(0x10 + 16 * k, !c.eaOk ea || (ea != 0 && absent) || (back && k == 6 && ea == 0) ||
      (ea != 0 && k != 7 && ea % 4 != 0)),
   (0x18 + 16 * k, ea != 0 && k != 7 && o.f8 (0x18 + 16 * k) % 4 != 0)]

/-- The fields of a wave block that offend (R93, R96, R266). -/
def waveBad (c : Crew) (back : Bool) (o : MOp) : List (Nat × Bool) :=
  let slot := (c.marver.slot (o.f1 0xC)).map ruleBwd
  [(0, o.wP == 0 || decide (128 < o.wP)), (4, o.wM == 0 || decide (128 < o.wM)),
   (8, o.wW == 0 || decide (4096 < o.wW)), (0xC, slot != some back), (0xD, !zeroAt o.block 0xD 3)] ++
  ((List.range 18).flatMap fun k => waveDesc c back o k) ++ [(0x130, !zeroAt o.block 0x130 16)]

/-- The bytes of operand `k` of one plane (R93, R96, R266). -/
def MOp.waveLen (o : MOp) (bm : Bool) (k : Nat) : Nat :=
  let mw := o.wM * o.wW
  if k = 7 then (mw + 3) / 4
  else if k = 12 then 4
  else if k = 6 ∨ k = 13 ∨ (k = 1 ∧ bm) then 4 * mw
  else if k = 1 then 4 * o.wW
  else if k = 2 ∨ k = 4 ∨ k = 10 ∨ k = 11 ∨ k = 16 ∨ k = 17 then 4 * (o.wW + 1)
  else 4 * o.wM

/-- The first scratchpad extent of a wave block that passes S. -/
def waveOut (c : Crew) (o : MOp) : Option Nat :=
  let bm := ((c.marver.slot (o.f1 0xC)).map ruleBm).getD false
  (List.range 18).findSome? fun k =>
    if o.wAddr k = 0 then none
    else c.extentOut (o.wAddr k) [0, ((o.wP - 1 : Nat) : Int) * o.wStride k] (o.waveLen bm k)

/-- MWAVE (R93, R266). -/
def execMwave (a b : BitVec 5) (s : State) : Step :=
  let w := encode (.mwave a b)
  s.engine w (engNeeds true 2) b true true false a [s.refForm (s.sreg a) w 1, s.barForm b w] fun s1 =>
    s1.blockOp w 5 a b 64 320 0 (waveBad s1.crew false) (waveOut s1.crew)

/-- MBACK (R96, R266). -/
def execMback (a b : BitVec 5) (s : State) : Step :=
  let w := encode (.mback a b)
  s.engine w (engNeeds true 2) b true true false a [s.refForm (s.sreg a) w 1, s.barForm b w] fun s1 =>
    s1.blockOp w 6 a b 64 320 0 (waveBad s1.crew true) (waveOut s1.crew)

/-! ### Operations without blocks -/

/-- MSWAP (R79). -/
def execMswap (b : BitVec 5) (s : State) : Step :=
  let w := encode (.mswap b)
  s.engine w (engNeeds true 0) b false true false 0 [s.barForm b w] fun s1 => s1.enqueueOp w 3 b [] 0

/-- MZERO (R267). -/
def execMzero (b : BitVec 5) (s : State) : Step :=
  let w := encode (.mzero b)
  s.engine w (engNeeds true 0) b false true false 0 [s.barForm b w] fun s1 => s1.enqueueOp w 8 b [] 0

/-- MTRN (R92, R259). -/
def execMtrn (a b : BitVec 5) (s : State) : Step :=
  let w := encode (.mtrn a b)
  s.engine w (engNeeds true 0) b false true false a [s.badValue (decide (3 < (s.fe a).toNat)) w 1, s.barForm b w] fun s1 =>
    s1.enqueueOp w 9 b [] (s.fe a).toNat

/-- MRED (R92). -/
def execMred (b : BitVec 5) (st : BitVec 1) (s : State) : Step :=
  let w := encode (.mred b st)
  s.engine w (engNeeds true 0) b false true false 0 [s.barForm b w] fun s1 => s1.enqueueOp w 11 b [] st.toNat

/-! ### MWAIT, MFENCE, MSTEP -/

/-- MST as a 64-bit value. -/
def State.mst (s : State) : DWord := s.crew.marver.mst.setWidth 64

/-- Operations of a list that are still in the queue. -/
def Marver.pending (m : Marver) (ids : List Nat) : List MOp := m.queue.filter fun o => ids.contains o.id

/-- The thread held until the operations numbered have completed (R268). -/
def State.awaitOps (s : State) (w : Word) (d : BitVec 5) (ids : List Nat) : Exit :=
  if ids.isEmpty then .done (s.putD d s.mst)
  else .moved (s.mapSelf fun a => a.hold (.mfence (a.held w) ids))

/-- MWAIT: the operations of the thread (R268). -/
def execMwait (d : BitVec 5) (s : State) : Step :=
  let w := encode (.mwait d)
  s.engine w (engNeeds false 0) 0 false false false 0 [] fun s1 =>
    s1.awaitOps w d ((s1.crew.marver.queue.filter fun o => o.thread == s1.self.unit.ix).map (·.id))

/-- MFENCE: every operation that has reached the Marver (R268). -/
def execMfence (d : BitVec 5) (s : State) : Step :=
  let w := encode (.mfence d)
  s.engine w (engNeeds false 0) 0 false false false 0 [] fun s1 => s1.awaitOps w d (s1.crew.marver.queue.map (·.id))

/-- A wait over operations has ended: none is left, or an awaited one is stopped (R268). -/
def Marver.waitOver (m : Marver) (ids : List Nat) : Bool :=
  (m.pending ids).isEmpty || (m.stopped && (m.pending ids).any fun o => o.state == .stopped)

/-- The thread goes on at the end of its wait, or raises ENGINE_FAULT (R268). -/
def State.endWait (s : State) (h : HeldInsn) (ids : List Nat) : Step :=
  let s1 := s.resumeHeld h
  let d : BitVec 5 := match decode h.word with
    | .ok (.mwait d) => d
    | .ok (.mfence d) => d
    | _ => 0
  if (s.crew.marver.pending ids).isEmpty then (Exit.done (s1.putD d s1.mst)).settle
  else (s1.stop .engineFault s1.crew.marver.mst.toNat).settle

/-- MSTEP's read and clear: D gets MST, then POIS, OOR and the flags are cleared (R269). -/
def State.readMst (s : State) (d : BitVec 5) : State :=
  (s.putD d s.mst).mapMarver s.crew.key fun m => { m with mst := m.mst &&& 0xFFFFCFE0#32 }

/-- The stopped operation resumed at a step (R100, R269): STOP is cleared. The edge buffers hold the edge of a wave's last
drain point alone (R77), so a wave taken back to an earlier one computes its columns from the first on and writes those from the
step named on. -/
def Marver.resume (m : Marver) (step : Nat) : Marver :=
  let m1 := { m with mst := m.mst &&& 0xFFFFBFFF#32 }
  match m.queue.find? fun o => o.state == .stopped with
  | none => m1
  | some o => m1.putOp { o with
      state := .running
      keys := []
      skip := step
      step := if o.isWave then (if step < o.step then 0 else o.step) else step }

/-- MSTEP, read form (R269). -/
def execMstep (d : BitVec 5) (s : State) : Step :=
  let w := encode (.mstep d)
  s.engine w (engNeeds false 0) 0 false false true 0 [] fun s1 => .done (s1.readMst d)

/-- A form of MSTEP that acts on the stopped operation (R269). -/
def State.mstepForm (s : State) (w : Word) (d a : BitVec 5) (k : Marver → State → Exit) : Step :=
  s.engine w (engNeeds false 0) 0 false true true a [] fun s1 =>
    if !s1.crew.marver.stopped then s1.stop .illegalOperand (operandVal w 5) else k s1.crew.marver (s1.readMst d)

/-- MSTEP.res (R269). -/
def execMstepRes (d : BitVec 5) (s : State) : Step :=
  s.mstepForm (encode (.mstepRes d)) d 0 fun m s2 =>
    .done (s2.mapMarver s2.crew.key fun x => x.resume m.stepField)

/-- MSTEP.resat: rounded down to a drain point (R269). -/
def execMstepResat (d a : BitVec 5) (s : State) : Step :=
  let w := encode (.mstepResat d a)
  s.mstepForm w d a fun m s2 =>
    let v := (s.fe a).toNat % 2 ^ 32
    let g := ((m.queue.find? fun o => o.state == .stopped).map MOp.grain).getD 1
    if m.stepField < v then .trap s (Trap.at .illegalOperand (operandVal w 1) s.self.cur.lanes)
    else .done (s2.mapMarver s2.crew.key fun x => x.resume (v / g * g))

/-- MSTEP.dis: the stopped operation discarded (R81, R269). -/
def execMstepDis (d : BitVec 5) (s : State) : Step :=
  s.mstepForm (encode (.mstepDis d)) d 0 fun m s2 =>
    let s3 := s2.mapMarver s2.crew.key fun x => { x with mst := x.mst &&& 0xFFFFBFFF#32 }
    .done (match m.queue.find? fun o => o.state == .stopped with
      | none => s3
      | some o => s3.discardOp s3.crew.key o)

end Sys2Proof.Machine
end

