-- ==== Sys2Proof/Machine/Queue.lean ====
section
/-!
DEFINITION. Queue registers: attaching, detaching, fetching ahead (04 R121, 09 R253, R254); runs: header and trailer
(01 R30 to R34, 09 R221).
-/
namespace Sys2Proof.Machine

open Sys2Proof

/-! ### Queue registers -/

/-- The queue that a replay entry was pushed onto; none for a store or a reduction. -/
def Replay.queue (r : Replay) : Option Nat :=
  match decode r.word with
  | .ok (.st _ _ _ _ _ _) => none
  | .ok (.red _ _ _ _ _ _) => none
  | _ => if isQ (fD r.word) then some ((fD r.word).toNat - 0x74) else none

/-- A pushed entry of a queue has not been written yet (R254). -/
def Agent.draining (a : Agent) (n : Nat) : Bool :=
  let q := a.regs.qAt n
  q.attached && q.store && a.replay.any fun r => r.queue == some n

/-- A stream descriptor is refused (R121). For a COUNT or an AREG outside its range the spec states no outcome; log entry
53. -/
def badDescriptor (bs : List Byte) : Bool :=
  fieldAt bs 8 4 == 0 || decide (2 ^ 31 < fieldAt bs 8 4) || decide (1 < fieldAt bs 0x10 1) ||
  !(fieldAt bs 0x11 1 == 0 || fieldAt bs 0x11 1 == 3) || decide (7 < fieldAt bs 0x12 1) || !zeroAt bs 0x13 13

/-- The queue register that a descriptor attaches (R121). -/
def QueueReg.ofBytes (bs : List Byte) : QueueReg where
  attached := true
  base := fieldAt bs 0 8
  count := fieldAt bs 8 4
  stride := signedOf 32 (fieldAt bs 0x0C 4)
  store := fieldAt bs 0x10 1 == 1
  wide := fieldAt bs 0x11 1 == 3
  areg := fieldAt bs 0x12 1
  next := 0
  ahead := []

/-- A queue attached by a descriptor, or detached (R253, R254); a fetch of its old stream awaits nothing any more. -/
def State.applyQueue (s : State) (o : QueueOp) : State :=
  (s.mapSelf fun a => { a with streams := a.streams.filter fun x => x.q != o.q }).mapRegs fun r =>
    r.putQ o.q (match o.desc with
      | none => QueueReg.none
      | some bs => QueueReg.ofBytes bs)

/-- A queue operation: at once, or at the trailer in a run (R254). -/
def State.queueOp (s : State) (o : QueueOp) : Exit :=
  match s.self.run with
  | some r => .done (s.mapSelf fun a => { a with run := some { r with qops := r.qops ++ [o] } })
  | none => if s.self.draining o.q then .wait s .poll else .done (s.applyQueue o)

/-- QCFG (R121, R253). -/
def execQcfg (d a : BitVec 5) (s : State) : Step :=
  let w := encode (.qcfg d a)
  s.fx w {} [operandIf (decide (3 < d.toNat)) w 0 s.self.cur.lanes] fun s1 =>
    Exit.withRef s1 (s1.ref (s1.sreg a) w 1 32 true) fun r =>
      let bs := s1.scrBytes r.gang r.off 32
      if badDescriptor bs then s1.stop .illegalOperand (operandVal w 5) else s1.queueOp ⟨d.toNat, some bs⟩

/-- QDRN (R254). -/
def execQdrn (d : BitVec 5) (s : State) : Step :=
  let w := encode (.qdrn d)
  s.fx w {} [operandIf (decide (3 < d.toNat)) w 0 s.self.cur.lanes] fun s1 => s1.queueOp ⟨d.toNat, none⟩

/-- A fault held for the pop that reaches the entry; none for a miss, which the pop meets itself (R121, R340). -/
def heldFault (l : List LaneAcc) : Option Fetched :=
  match worst l with
  | some (_, .xlate, v) => some (.denied v)
  | some (_, .format, v) => some (.format v)
  | some (_, .physErr, v) => some (.phys v)
  | _ => none

/-- The next entry of a load stream of the unit in front fetched ahead of the pops (R121): its elements, or the fault that the
pop will take. A miss joins the merge table as a fetch of the stream, which waits until it is answered (R340, R342). -/
def State.streamFetch (s : State) (q : Nat) (r : QueueReg) (k : Nat) : State :=
  let x := (s.mapCur fun p => { p with failed := [] }).fetchEntry r k
  let s1 : State := { x.1 with self := s.self }
  let ahead (f : Fetched) : State := s1.mapRegs fun g => g.putQ q { r with ahead := r.ahead ++ [f] }
  match x.2 with
  | .ok es => ahead (.data es)
  | .error l =>
    match heldFault l with
    | some f => ahead f
    | none =>
      let j := s1.joinLanes .read srcStream l
      if j.2.isEmpty then j.1
      else j.1.mapSelf fun a => { a with streams := a.streams ++ [
        ⟨q, k, ((l.find? LaneAcc.isMiss).map (·.va)).getD 0, j.2⟩] }

/-- A fetched entry that holds a fault. -/
def Fetched.faulty : Fetched → Bool
  | .data _ => false
  | _ => true

/-- QUEUE_STREAM_FETCH: the load engine fetches ahead for a stream that holds no fault and awaits no page (R121). -/
def execQueueStreamFetch (u : AgentKey) (q : Nat) (s : State) : Step :=
  match (s.focusCrew u.crew).bind fun t => t.focusUnit u.unit with
  | none => s.absent
  | some s1 =>
    let r := s1.self.regs.qAt q
    let k := r.next + r.ahead.length
    if s1.self.inRun || s1.self.tl != 0 || s1.crew.area.isSome || !r.attached || r.store || decide (r.count ≤ k) ||
        r.ahead.any Fetched.faulty || (s1.self.streams.any fun x => x.q == q) || s1.entryQueued r k then s.absent
    else .next (s1.streamFetch q r k)

/-! ### Runs -/

/-- The word is a trailer (R177). -/
def isTrl (w : Word) : Bool :=
  match decode w with
  | .ok (.trl _ _) => true
  | _ => false

/-- A run opened at the RUNB: its registers are kept for a rollback, the latches are zero (R30). -/
def Agent.openRun (a : Agent) (n : Nat) : Agent :=
  { a with run := some {
      pc := a.cur.pc, n := n, pos := 0, saved := a.regs, lat := Vector.replicate 4 (Lanes.const 0), stores := []
      xfer := none, qops := [], long := false, count := 0 } }

/-- RUNB: the word N + 1 places on must be a trailer, and no awaited token pending (R30). -/
def execRunb (n : BitVec 5) (a : BitVec 8) (s : State) : Step :=
  let w := encode (.runb n a)
  let m := s.self.cur.lanes
  if s.self.cur.pfx.count ≠ 0 then .next s.strayPfx
  else
    match s.issueCheck { run := .never } false w m with
    | some t => .next (s.raise t)
    | none =>
      match s.fetchAt (s.self.cur.pc + BitVec.ofNat 64 (4 * (n.toNat + 1))).toNat m with
      | .stop e => e.settle
      | .word s1 x =>
        if !isTrl x then .next (s1.raise (Trap.at .illegalInsn w.toNat m))
        else if s1.self.tokens &&& a ≠ 0 then (Exit.wait s1 .poll).settle
        else (Exit.done (s1.mapSelf fun b => b.openRun n.toNat)).settle

/-- The held stores of a run made visible, oldest first (R33). -/
def State.commitStores (s : State) (l : List HeldByte) : State :=
  let old := l.reverse
  let s1 := s.applyStore (old.filterMap fun h => if h.gang.isNone then some ⟨h.addr, h.va, h.byte⟩ else none)
  (List.range 4).foldl (fun t g =>
    let bs := old.filterMap fun h => if h.gang = some g then some (h.addr, h.byte) else none
    if bs.isEmpty then t else t.putScr g bs) s1

/-- The token of a trailer set pending while some long-latency result of its run is outstanding, which is timing alone
(R33); log entry 20. -/
def State.setToken (s : State) (t : BitVec 3) (v : BitVec 1) (long : Bool) : State :=
  if v = 1 ∧ long then
    let d := s.draw
    if Config.freeBit d.1 then d.2.mapSelf fun a => { a with tokens := a.tokens ||| ((1 : BitVec 8) <<< t.toNat) } else d.2
  else s

/-- The paths after the trailer: the control transfer of the last body word, else the next word (R215). Groups that find no free
slot park at their targets, with the return pushed (R29; DESIGN CHOICE, log entry 64). -/
def State.afterRun (s : State) (x : Option Xfer) : State :=
  match x with
  | none => s.advance
  | some f => s.divide (f.dests.map fun d => ⟨d.1, d.2.1, d.2.2, none, false⟩)

/-- TRL: the run's held writes take effect together (R33, R177). -/
def execTrl (t : BitVec 3) (v : BitVec 1) (s : State) : Step :=
  let w := encode (.trl t v)
  let m := s.self.cur.lanes
  if s.self.cur.pfx.count ≠ 0 then .next s.strayPfx
  else
    match s.self.run with
    | none => .next (s.raise (firstTrap [s.issueCheck {} true w m] |>.getD (Trap.at .illegalInsn w.toNat m)))
    | some r =>
      if r.pos ≠ r.n + 1 then .next (s.raise (Trap.at .illegalInsn w.toNat m))
      else if r.qops.any fun o => s.self.draining o.q then (Exit.wait s .poll).settle
      else
        let s1 := s.mapSelf fun a => { a with run := none }.retireRun r
        let s2 := r.qops.foldl State.applyQueue (s1.commitStores r.stores)
        .next ((s2.setToken t v r.long).afterRun r.xfer)

/-- A token cleared: a path that waited for named tokens goes on once none of them is pending (R36). -/
def Agent.clearToken (a : Agent) (token : Nat) : Agent :=
  let left := a.tokens &&& ~~~((1 : BitVec 8) <<< token)
  { a with tokens := left }.mapPaths fun p => match p.wait with
    | .tokens m => if left &&& m = 0 then { p with wait := .none } else p
    | _ => p

/-- RESULT_WRITEBACK: the last long-latency result of the runs behind a token has been written: the token clears (R33). -/
def execResultWriteback (u : AgentKey) (token : Nat) (s : State) : Step :=
  match s.unitAt u with
  | none => s.absent
  | some a =>
    if 8 ≤ token ∨ !a.tokens.getLsbD token then s.absent
    else .next (s.mapUnit u fun b => b.clearToken token)

end Sys2Proof.Machine
end

