-- ==== Sys2Proof/Machine/FaultPath.lean ====
section
/-!
DEFINITION. The fault path: replay of queued stores (05 R142), the flush of a Lehr's batch (17 R344, R345), replies from
service software (17 R343, R347), and the imprecise trap (05 R142).
-/
namespace Sys2Proof.Machine

open Sys2Proof

/-! ### Replay of queued stores (R142) -/

/-- The shape of a queued store's access: element, raw, width. -/
def Replay.shape (r : Replay) : AccShape :=
  let raw := (r.pfx.hmod.map fun h => h.tv == 7).getD false
  match decode r.word with
  | .ok (.st _ _ _ _ w _) => ⟨.write, false, w == 0, raw, fmBytes w, srcGroup, 0⟩
  | .ok (.red _ _ _ _ _ _) => ⟨.write, true, false, raw, 4, srcGroup, 0⟩
  | _ => if r.wide then ⟨.write, false, false, false, 4, srcStream, 0⟩ else ⟨.write, false, true, false, 1, srcStream, r.size⟩

/-- The operation of a queued reduction; none for a store (R236). -/
def Replay.red (r : Replay) : Option Nat :=
  match decode r.word with
  | .ok (.red _ _ _ _ o _) => some o.toNat
  | _ => none

/-- The data of a lane of a queued store. -/
def Replay.data (r : Replay) (lane : Nat) : List Byte :=
  ((r.lanes.find? fun l => l.lane == lane).map (·.data)).getD []

/-- The places of a queued store performed, with the flags of encoding elements (R63, R142). -/
def State.replayWrite (s : State) (r : Replay) (l : List LaneAcc) : State :=
  match r.red with
  | some op =>
    (State.atomGlobal op s.zc (fun n => BitVec.ofNat 32 (leNat (r.data n))) (fun _ => 0) l s).1
  | none =>
    let b := l.foldl (fun (x : List StoreByte × Flags) a => match a.out with
      | .ok _ ca at_ =>
        if r.shape.e then
          let e := encodeElem at_.fmt s.rm s.sat (BitVec.ofNat 32 (leNat (r.data a.lane)))
          (x.1 ++ storeBytes ca a.va (leBytes (elemSize at_.fmt) e.1), x.2 ||| e.2)
        else (x.1 ++ storeBytes ca a.va (r.data a.lane), x.2)
      | _ => x) ([], 0)
    (s.applyStore b.1).raiseFlags b.2

/-- The unit in front as a queued store sees it: its own prefix, at TL = 0, in its version or in none. -/
def Agent.asReplay (a : Agent) (r : Replay) : Agent :=
  { a with
    cur := { a.cur with pfx := r.pfx, failed := [], handler := false }
    run := none
    version := if r.ver then a.version else Version.none }

/-- What the replay changed, in the unit as it stands: registers and, for a store of the version, the version. Flags that the
store raises stay when a run in flight, which began after the store, rolls back (R34, R142; R52 does not say: DESIGN CHOICE, log
entry 65). -/
def Agent.afterReplay (a b : Agent) (r : Replay) : Agent :=
  let keep (x : Run) : Run :=
    { x with saved := { x.saved with fpc := x.saved.fpc ||| (b.regs.fpc &&& ~~~a.regs.fpc) } }
  { b with cur := a.cur, run := a.run.map keep, version := if r.ver then b.version else a.version }

/-- A queued store tried again: done, discarded with a cause and TVAL, or missed again, as it stays in the queue. -/
inductive Replayed where
  | done
  | failed (c : Cause) (v : Nat)
  | again (r : Replay)
  deriving DecidableEq, Repr

/-- The places of the lanes of a queued store, and the store with the addresses of its lanes: an entry pushed when its first
page was missing takes its element size from that page now (R121; of a page that lane 0 does not use log entry 76). -/
def State.replayPlaces (s : State) (r : Replay) : State × Replay × List LaneAcc :=
  let places (t : State) (q : Replay) : State × Replay × List LaneAcc :=
    let x := t.lanesBy (fun st key => st.laneAt q.shape key) (q.lanes.map fun l => (l.lane, l.va, l.va))
    (x.1, q, x.2)
  if r.size != unsized then places s r
  else
    let x := s.laneAt ⟨.write, false, false, true, 1, srcStream, 0⟩ ((r.lanes.head?.map (·.va)).getD 0)
    match x.2 with
    | .ok _ _ a =>
      let z := elemSize a.fmt
      places x.1 { r with size := z, lanes := r.lanes.map fun l => { l with va := (l.va + z * l.lane) % 2 ^ 64 } }
    | o => (x.1, r, r.lanes.map fun l => ⟨l.lane, l.va, o⟩)

/-- One queued store of the unit in front tried (R142): every lane is translated before any is stored. R142 names XLATE, FORMAT
and PHYS_ERR for a store that fails; every other cause is handled alike (log entry 54). -/
def State.replayOne (s : State) (r : Replay) : State × Replayed :=
  let x := State.replayPlaces { s with self := s.self.asReplay r } r
  let q := x.2.1
  let back (u : State) : State := { u with self := s.self.afterReplay u.self r }
  match worst x.2.2 with
  | some (_, c, v) => (back x.1, .failed c v)
  | none =>
    if x.2.2.any LaneAcc.isMiss then
      let j := x.1.joinLanes .write r.shape.src x.2.2
      (back j.1, .again { q with keys := j.2 })
    else (back (x.1.replayWrite q x.2.2), .done)

/-- A pending imprecise trap; a further one adds nothing (R142). -/
def Agent.pend (a : Agent) (c : Cause) (v : Nat) : Agent :=
  if a.imprecise.isSome then a else { a with imprecise := some (c, BitVec.ofNat 64 v) }

/-- The replay queue of the unit in front from its head on, while the head waits on nothing (R142). -/
def State.replayFront : Nat → State → State
  | 0, s => s
  | f + 1, s =>
    match s.self.replay with
    | [] => s
    | r :: _ =>
      if !r.keys.isEmpty then s
      else
        match s.replayOne r with
        | (s1, .done) => State.replayFront f (s1.mapSelf fun a => { a with replay := a.replay.drop 1 })
        | (s1, .failed c v) => State.replayFront f (s1.mapSelf fun a => { a.pend c v with replay := a.replay.drop 1 })
        | (s1, .again q) => s1.mapSelf fun a => { a with replay := q :: a.replay.drop 1 }

/-- The replay queue of a unit tried; the unit in front stays there. -/
def State.replayUnit (s : State) (u : AgentKey) : State :=
  match (s.focusCrew u.crew).bind fun t => t.focusUnit u.unit with
  | none => s
  | some s1 => (s1.replayFront 17).refocus s

/-- Every unit with a queued store. -/
def State.replayers (s : State) : List AgentKey :=
  s.allCrews.flatMap fun c => (c.agents.filter fun a => !a.replay.isEmpty).map fun a => ⟨c.key, a.unit⟩

/-- A unit whose first queued store waits on no entry: it found the merge table full (R342). -/
def Agent.storeStuck (a : Agent) : Bool := (a.replay.head?.map fun r => r.keys.isEmpty).getD false

/-- The queued stores that found the merge table full tried again, as entries of it come free (R142, R342). -/
def State.retryStores (s : State) : State :=
  (s.replayers.filter fun u => ((s.unitAt u).map Agent.storeStuck).getD false).foldl (fun t u => t.replayUnit u) s

/-- IMPRECISE_TRAP_TAKEN: the pending trap at an issue slot at TL = 0; a run in flight rolls back (R34, R142). -/
def execImpreciseTrapTaken (u : AgentKey) (slot : Nat) (s : State) : Step :=
  match s.focus u slot with
  | none => s.absent
  | some s1 =>
    match s1.self.imprecise with
    | none => s.absent
    | some (c, v) =>
      if s1.self.tl ≠ 0 then s.absent
      else
        .next ((s1.mapSelf fun a => { a with imprecise := none }).raise
          { Trap.at c 0 s1.self.cur.lanes with val := v, impr := true })

/-! ### The Lehr's flush (R344, R345) -/

/-- The place of a record in the sorted batch (R344). -/
def FaultRec.rank (r : FaultRec) : Nat := ((r.ctx.tag * 256 + r.ctx.gen) * 2 ^ 56 + r.page) * 8 + r.kind

/-- A record inserted into a sorted batch; an equal one takes its SRC bits (R344). -/
def insertRec (r : FaultRec) : List FaultRec → List FaultRec
  | [] => [r]
  | q :: qs =>
    if r.rank < q.rank then r :: q :: qs
    else if r.rank = q.rank then { q with src := q.src ||| r.src } :: qs
    else q :: insertRec r qs

/-- A range of pages with its first record. -/
structure FaultRange where
  first : FaultRec
  pages : Nat
  deriving DecidableEq, Repr

/-- A record continues a range: the next page, same context and kind; never for KIND 6 (R344, R345). -/
def FaultRange.continues (g : FaultRange) (r : FaultRec) : Bool :=
  g.first.ctx == r.ctx && g.first.kind == r.kind && r.kind != 6 && r.page == g.first.page + g.pages * 65536 &&
  decide (g.pages < 256)

/-- A record joined to the ranges before it (R344). -/
def joinRange (gs : List FaultRange) (r : FaultRec) : List FaultRange :=
  if gs.any fun g => g.continues r then
    gs.map fun g => if g.continues r then
      ⟨{ g.first with src := g.first.src ||| r.src }, g.pages + 1⟩ else g
  else gs ++ [⟨r, 1⟩]

/-- The range records of a batch, in the order of (TAG, GEN, first VA, KIND) (R344). -/
def batchRanges (b : List FaultRec) : List FaultRange :=
  (b.foldl (fun l r => insertRec r l) []).foldl joinRange []

/-- The bytes of a range record (R345). -/
def FaultRange.bytes (g : FaultRange) (die seq time : Nat) : List Byte :=
  leBytes 8 g.first.page ++ leBytes 4 g.pages ++ leBytes 4 g.first.ctx.word.toNat ++ leBytes 1 g.first.kind ++
  leBytes 1 g.first.src ++ leBytes 1 die ++ leBytes 1 0 ++ leBytes 4 (seq % 2 ^ 32) ++ leBytes 8 time

/-- LEHRQ.EN, REPLYQ and FAULTQ (R346). -/
def Die.lehrEn (d : Die) : Bool := d.lehrq.getLsbD 31
/-- REPLYQ. -/
def Die.replyQ (d : Die) : Nat := bitsOf d.lehrq.toNat 27 16
/-- FAULTQ. -/
def Die.faultQ (d : Die) : Nat := bitsOf d.lehrq.toNat 11 0

/-- One record of an entry that was marked unreported, while a batch has room (R344). -/
def Die.reportOne (d : Die) (e : MergeEntry) : Die :=
  if e.reported || d.batchesFull then { d with merge := d.merge ++ [e] }
  else { d.record ⟨e.key.ctx, e.key.page, e.kind, e.src⟩ with merge := d.merge ++ [{ e with reported := true }] }

/-- The records of unreported entries, as far as there is room (R344). -/
def Die.reportAll (d : Die) : Die := d.merge.foldl Die.reportOne { d with merge := [] }

/-- The flush of a due batch started: its range records, and the second batch in its place (R344). -/
def Die.startFlush (d : Die) (die : Nat) : Die :=
  { d with
    flushing := (batchRanges d.batch).map fun g => g.bytes die d.seq d.ptime
    batch := d.spare
    batchAt := d.spareAt
    spare := []
    seq := (d.seq + 1) % 2 ^ 32 }

/-- The first `n` range records of a started flush pushed (R344). -/
def Die.pushed (d : Die) (n : Nat) : Die := { d with flushing := d.flushing.drop n }.reportAll

/-- The free entries of a queue for a push (R274). -/
def State.queueRoom (s : State) (t : TaskQueue) : Nat := t.cap - (t.pushed + t.resv * s.pod.members.length)

/-- LEHR_BATCH_FLUSH: a due batch becomes range records, which go to the fault queue in order as far as it has room; the rest of
them wait, and the flush goes on when there is room again (R344, R346). -/
def execLehrBatchFlush (die : Nat) (s : State) : Step :=
  let d := s.dieAt die
  match s.queueAt d.faultQ with
  | none => s.absent
  | some t =>
    if 8 ≤ die ∨ !d.lehrEn ∨ t.closed ∨ (d.flushing.isEmpty ∧ !d.flushDue) then s.absent
    else
      let d1 := if d.flushing.isEmpty then d.startFlush die else d
      let n := min (s.queueRoom t) d1.flushing.length
      let es := (d1.flushing.take n).map fun b => (⟨b, none, 0⟩ : QueueEntry)
      .next ((s.putQueue { t with entries := t.entries ++ es }).mapDie die fun _ => d1.pushed n)

/-! ### Replies (R347) -/

/-- A reply as it lies in the queue (R347). -/
structure Reply where
  va : Nat
  pages : Nat
  ctx : CtxId
  fail : Bool
  deriving DecidableEq, Repr

/-- A reply read; none for one that is discarded (R347). -/
def replyOf (bs : List Byte) : Option Reply :=
  let va := fieldAt bs 0 8
  let pages := fieldAt bs 8 4
  let cw := fieldAt bs 0x0C 4
  let action := fieldAt bs 0x10 1
  if va % 65536 ≠ 0 ∨ 2 ^ 56 ≤ va ∨ pages = 0 ∨ 2 ^ 20 < pages ∨ 1 < action ∨ !zeroAt bs 0x11 15 ∨ 2 ^ 20 ≤ cw then none
  else some ⟨va, pages, CtxId.ofNat cw, action == 1⟩

/-- An entry lies in the range of a reply, in either class (R347). -/
def Reply.covers (r : Reply) (die : Nat) (k : MergeKey) : Bool :=
  k.die == die && k.ctx == r.ctx && decide (r.va ≤ k.page) && decide (k.page < r.va + 65536 * r.pages)

/-- A path whose entries are answered: ready once none is left; failed ones are kept for its XLATE (R343, R347). -/
def Path.answered (ks : List MergeKey) (fail : Bool) (p : Path) : Path :=
  let go (l : List MergeKey) (w : List MergeKey → Wait) : Path :=
    let rest := l.filter fun k => !ks.contains k
    { p with
      wait := if rest.isEmpty then .none else w rest
      failed := if fail then p.failed ++ l.filter fun k => ks.contains k else p.failed }
  match p.wait with
  | .parked l => go l .parked
  | .stuck l => if l.isEmpty then p else go l .stuck
  | .fetch l => go l .fetch
  | _ => p

/-- The queued stores of a unit whose entries are answered; a failed one is discarded with an imprecise XLATE at its
lowest lane there (R142, R347). -/
def Agent.answerReplay (ks : List MergeKey) (fail : Bool) (a : Agent) : Agent :=
  let hit (r : Replay) : Bool := r.keys.any fun k => ks.contains k
  if fail then
    let dead := a.replay.filter hit
    let a1 := { a with replay := a.replay.filter fun r => !hit r }
    dead.foldl (fun b r =>
      let lanes := r.lanes.filter fun l => ks.any fun k => r.keys.contains k && k.page == l.va / 65536 * 65536
      b.pend .xlate ((lanes.head?.map (·.va)).getD 0)) a1
  else { a with replay := a.replay.map fun r => { r with keys := r.keys.filter fun k => !ks.contains k } }

/-- A held XLATE behind the entries that a stream has fetched ahead, at the address of the lowest lane that missed (R347); a
stream that a restore has set back meets the page again when it comes to the entry. -/
def Regs.holdFault (r : Regs) (x : StreamWait) : Regs :=
  let q := r.qAt x.q
  if q.next + q.ahead.length = x.entry then r.putQ x.q { q with ahead := q.ahead ++ [.denied x.va] } else r

/-- The stream fetches of a unit whose entries are answered: they go on, or hold XLATE for the pop (R347). A run in flight
holds it, too, in the registers that a rollback restores. -/
def Agent.answerStreams (ks : List MergeKey) (fail : Bool) (a : Agent) : Agent :=
  let hit (x : StreamWait) : Bool := x.keys.any fun k => ks.contains k
  if fail then
    (a.streams.filter hit).foldl (fun b x =>
      { b with regs := b.regs.holdFault x, run := b.run.map fun r => { r with saved := r.saved.holdFault x } })
      { a with streams := a.streams.filter fun x => !hit x }
  else
    { a with streams := (a.streams.map fun x => { x with keys := x.keys.filter fun k => !ks.contains k }).filter fun x =>
        !x.keys.isEmpty }

/-- A unit with its answered waits. -/
def Agent.answered (ks : List MergeKey) (fail : Bool) (a : Agent) : Agent :=
  ((a.mapPaths (Path.answered ks fail)).answerReplay ks fail).answerStreams ks fail

/-- Copies that wait on answered entries: they resume, or fail (R126, R127, R347). -/
def State.answerCopies (s : State) (ks : List MergeKey) (fail : Bool) : State :=
  s.allCrews.foldl (fun t c => c.copies.foldl (fun u y =>
    if !y.keys.any fun k => ks.contains k then u
    else if fail then u.endCopy c.key y 4
    else
      let rest := y.keys.filter fun k => !ks.contains k
      u.mapCrewAt c.key fun x => x.putCopy { y with keys := rest, status := if rest.isEmpty then 1 else y.status }) t) s

/-- Marver operations that wait on answered entries: they go on, or stop with an engine error (R81, R347). -/
def State.answerOps (s : State) (ks : List MergeKey) (fail : Bool) : State :=
  s.allCrews.foldl (fun t c => c.marver.queue.foldl (fun u o =>
    if !o.keys.any fun k => ks.contains k then u
    else u.mapMarver c.key fun m =>
      let o1 := { o with keys := o.keys.filter fun k => !ks.contains k }
      if fail then m.engError o1 else m.putOp o1) t) s

/-- Merge entries answered: they are freed, and their waiters go on or take the fatal path (R347). -/
def State.answer (s : State) (die : Nat) (ks : List MergeKey) (fail : Bool) : State :=
  let s1 := s.mapDie die fun d => { d with merge := d.merge.filter fun e => !ks.contains e.key }
  let s2 := s1.mapUnits fun _ a => a.answered ks fail
  let s3 := (s2.answerCopies ks fail).answerOps ks fail
  s3.replayers.foldl (fun t u => t.replayUnit u) s3

/-- The reply at the head of a die's reply queue taken and applied; `fail` says which kind the event takes (R347). -/
def State.takeReply (s : State) (die : Nat) (fail : Bool) : Step :=
  let d := s.dieAt die
  match (if die < 8 && d.lehrEn then s.queueAt d.replyQ else none) with
  | none => s.absent
  | some t =>
    match t.entries with
    | [] => s.absent
    | e :: es =>
      let s1 := s.putQueue { t with entries := es }
      match replyOf e.bytes with
      | none => if fail then s.absent else .next s1
      | some r =>
        if r.fail ≠ fail then s.absent
        else .next (s1.answer die ((d.merge.map (·.key)).filter fun k => r.covers die k) fail)

/-- FAULT_REPLY_RETRY: a RETRY, or a reply that is discarded (R347). -/
def execFaultReplyRetry (die : Nat) (s : State) : Step := s.takeReply die false
/-- FAULT_REPLY_FAIL (R347). -/
def execFaultReplyFail (die : Nat) (s : State) : Step := s.takeReply die true

end Sys2Proof.Machine
end

