-- ==== Sys2Proof/Machine/Place.lean ====
section
/-!
DEFINITION. Where crews go: kernel headers (23 R420), descriptors (15 R307, R308), core maps (15 R310), room on a cluster
(01 R13, R14), and a crew as it is created (01 R16, R17).
-/
namespace Sys2Proof.Machine

open Sys2Proof

/-! ### Kernel headers (R420) -/

/-- A kernel header's fields (R420). -/
structure Header where
  det : Bool
  zc : Bool
  entry : Nat
  gentry : Nat
  budget : Nat
  groups : Nat
  gangs : Nat
  gaffers : Nat
  scratch : Nat
  deriving DecidableEq, Repr

/-- A kernel header read; none where a reserved field is not zero or a field is out of range (R420). -/
def headerOf (bs : List Byte) : Option Header :=
  let kf := fieldAt bs 4 4
  let b := fieldAt bs 0x18 2
  let g := fieldAt bs 0x1A 1
  let n := fieldAt bs 0x1B 1
  let t := fieldAt bs 0x1C 1
  let z := fieldAt bs 0x20 4
  if fieldAt bs 0 4 ≠ 1 ∨ 4 ≤ kf ∨ b < 8 ∨ 256 < b ∨ b % 8 ≠ 0 ∨ g = 0 ∨ 32 < g ∨ n = 0 ∨ 4 < n ∨ 4 < t ∨
      !zeroAt bs 0x1D 3 ∨ z % 1024 ≠ 0 ∨ 524288 < z ∨ !zeroAt bs 0x30 16 then none
  else some ⟨kf.testBit 0, kf.testBit 1, fieldAt bs 8 8, fieldAt bs 0x10 8, b, g, n, t, z⟩

/-- The header of a launch's kernel, read in the context (R353, R420). -/
def State.header (s : State) (c : Context) (kernel : Nat) : State × Option Header :=
  if c.loaded.any fun l => l.addr == kernel then
    let r := s.virtRead c kernel 64
    (r.1, r.2.bind headerOf)
  else (s, none)

/-- A crew of this shape fits a cluster with nothing else resident (R14). -/
def Header.fitsEmpty (h : Header) : Bool := decide (h.groups * h.budget ≤ 4096)

/-! ### Descriptors (R307) -/

/-- A descriptor as it lies in memory is refused (R307). -/
def State.badDescriptorWord (s : State) (bs : List Byte) : Bool :=
  let fl := fieldAt bs 4 4
  let part := fl / 16 % 8
  fl % 4 == 3 || fl / 128 % 512 != 0 || fl / 65536 == 0 || decide (88 < fl / 65536) ||
  decide (2 ^ 20 ≤ fieldAt bs 0 4) || !(s.partmap.toArray.getD part 0).getLsbD 8

/-- The fields of a descriptor taken over by a context; the name and the KILL bit stay (R308). -/
def Context.load (c : Context) (bs : List Byte) : Context :=
  let fl := fieldAt bs 4 4
  { c with
    pl := fl % 4
    det := fl.testBit 2
    part := fl / 16 % 8
    nlc := fl / 65536
    ptroot := fieldAt bs 8 8
    tvec1 := BitVec.ofNat 64 (fieldAt bs 0x10 8)
    tvec2 := BitVec.ofNat 64 (fieldAt bs 0x18 8)
    feat := BitVec.ofNat 128 (fieldAt bs 0x20 16)
    savebase := fieldAt bs 0x30 8
    cmap := fieldAt bs 0x38 8 }

/-- The descriptor of a context read at a placement or restore; none where it is refused or names another context
(R307, R308). -/
def State.readDescriptor (s : State) (c : CtxId) : Option (List Byte) :=
  let bs := s.physBytes (s.ctbase + 64 * c.tag) 64
  if s.badDescriptorWord bs || fieldAt bs 0 4 != c.word.toNat then none else some bs

/-- A context with the values of its descriptor as it lies in memory; as it is where that is refused. -/
def State.ctxNow (s : State) (x : Context) : Context :=
  match s.readDescriptor x.id with
  | none => x
  | some bs => x.load bs

/-- A context takes over the values of its descriptor, which its crew in front does not (R308). -/
def State.reload (s : State) (c : CtxId) : State := if s.crew.key.ctx = c then s else s.mapCtxAt c s.ctxNow

/-! ### Core maps (R310) -/

/-- A usable entry of a core map: socket, physical cluster, and its healthy cores (R310). -/
structure MapEntry where
  socket : Nat
  cluster : Nat
  cores : List Nat
  deriving DecidableEq, Repr

/-- Word `l` of a context's core map. -/
def State.mapWord (s : State) (c : Context) (l : Nat) : Nat := s.physNum (c.cmap + 4 * l) 4

/-- Entry `l` of a context's core map; none where it is unusable (R310). -/
def State.mapEntry (s : State) (c : Context) (l : Nat) : Option MapEntry :=
  let w := s.mapWord c l
  let place (x : Nat) : Nat := x / 2 ^ 24 % 128
  let pm := s.partmap.toArray.getD c.part 0
  let socket := w / 2 ^ 28 % 8
  let twice := (List.range c.nlc).any fun j =>
    j != l && (s.mapWord c j).testBit 31 && place (s.mapWord c j) == place w
  if c.nlc ≤ l ∨ !w.testBit 31 ∨ w % 2 ^ 20 ≠ 0 ∨ 12 ≤ w / 2 ^ 24 % 16 ∨ !pm.getLsbD 8 ∨ !pm.getLsbD socket ∨ twice then
    none
  else some ⟨socket, w / 2 ^ 24 % 16, (List.range 4).filter fun j => w.testBit (20 + j)⟩

/-! ### Room (R13, R14) -/

/-- What a crew asks of a cluster: gangs, groups, rows and scratchpad bytes per gang, Gaffer threads. -/
structure Shape where
  gangs : Nat
  groups : Nat
  rows : Nat
  scratch : Nat
  gaffers : Nat
  deriving DecidableEq, Repr

/-- The shape of a kernel's crews. -/
def Header.shape (h : Header) : Shape := ⟨h.gangs, h.groups, h.groups * h.budget, h.scratch, h.gaffers⟩

/-- The groups, rows and scratchpad bytes in use on a core of a cluster, over the resident crews: each gang holds what it was
declared with until its crew retires (R13, R18). -/
def State.coreLoad (s : State) (socket cluster core : Nat) : Nat × Nat × Nat :=
  ((s.allCrews.filter fun c => c.socket == socket && c.cluster == cluster).flatMap fun c =>
    ((List.range c.gangs.length).filter fun g => ((c.gangs[g]?).map fun x => x.core == core).getD false).map fun g =>
      (c.groups, c.groups * c.budget, ((c.gangs[g]?).map (·.size)).getD 0)).foldl
    (fun a x => (a.1 + x.1, a.2.1 + x.2.1, a.2.2 + x.2.2)) (0, 0, 0)

/-- A crew's shape fits beside the crews resident on a cluster (R13, R14, R310). -/
def State.fits (s : State) (e : MapEntry) (h : Shape) : Bool :=
  decide (h.gangs ≤ e.cores.length) &&
  ((e.cores.take h.gangs).all fun k =>
    let u := s.coreLoad e.socket e.cluster k
    decide (u.1 + h.groups ≤ 32) && decide (u.2.1 + h.rows ≤ 4096) && decide (u.2.2 + h.scratch ≤ 524288)) &&
  (h.gaffers == 0 ||
    !s.allCrews.any fun c => c.socket == e.socket && c.cluster == e.cluster && c.gaffers != 0)

/-! ### A crew created (R16, R17) -/

/-- FPC at creation: ZC of the kernel, DET of the context (R17, R49). -/
def initialFpc (h : Header) (c : Context) : Word := BitVec.ofNat 32 (h.zc.toNat * 512 + c.det.toNat * 1024)

/-- A group at creation. -/
def newGroup (h : Header) (c : Context) (l : Launch) (sheet gang ix tick : Nat) : Agent :=
  Agent.initial ⟨false, gang, ix⟩ Mask.all (BitVec.ofNat 64 h.entry)
    (Regs.initial h.budget (BitVec.ofNat 64 l.argva) (BitVec.ofNat 64 (sheet + gang * 2 ^ 40))
      (BitVec.ofNat 64 (l.crews + l.sheets * 2 ^ 32)) (initialFpc h c)) tick

/-- A Gaffer thread at creation. -/
def newGaffer (h : Header) (c : Context) (l : Launch) (sheet ix tick : Nat) : Agent :=
  Agent.initial ⟨true, 0, ix⟩ 1 (BitVec.ofNat 64 h.gentry)
    (Regs.initial 0 (BitVec.ofNat 64 l.argva) (BitVec.ofNat 64 (sheet + ix * 2 ^ 42))
      (BitVec.ofNat 64 (l.crews + l.sheets * 2 ^ 32)) (initialFpc h c)) tick

/-- The units of a crew at creation. -/
def newUnits (h : Header) (c : Context) (l : Launch) (sheet tick : Nat) : List Agent :=
  ((List.range h.gangs).flatMap fun g => (List.range h.groups).map fun i => newGroup h c l sheet g i tick) ++
  (List.range h.gaffers).map fun t => newGaffer h c l sheet t tick

/-- The gangs of a crew on the cores of its cluster (R310). -/
def newGangs (gangs scratch : Nat) (cores : List Nat) : List Gang :=
  (List.range gangs).map fun g => ⟨scratch, [], [], cores.getD g 0⟩

/-- The features of the variant that holds a kernel (R10). -/
def Context.variant (c : Context) (kernel : Nat) : BitVec 128 :=
  ((c.loaded.find? fun l => l.addr == kernel).map (·.feat)).getD 0

/-- A crew at creation, holding the values of its context's descriptor (R17, R308). -/
def newCrew (h : Header) (c : Context) (l : Launch) (key : CrewKey) (e : MapEntry) (lcl slot dseq time tick : Nat) :
    Crew :=
  { Crew.empty with
    key := key
    lcl := lcl
    socket := e.socket
    cluster := e.cluster
    slot := slot
    prio := l.prio
    persist := l.persist
    quantum := l.quantum
    dseq := dseq
    since := time
    groups := h.groups
    budget := h.budget
    gaffers := h.gaffers
    held := c.held
    gangs := newGangs h.gangs h.scratch e.cores
    agents := newUnits h c l key.sheet tick
    featUse := c.variant l.kernel }

/-- One more resident crew. -/
def State.addCrew (s : State) (c : Crew) : State := { s with crews := s.crews ++ [c] }

/-- A crew leaves the part. -/
def State.dropCrew (s : State) (k : CrewKey) : State :=
  if s.crew.key = k then { s with crew := Crew.empty, self := Agent.empty }
  else { s with crews := s.crews.filter fun c => c.key != k }

/-! ### Bind slots (R354) -/

/-- The bind record in a slot of a cluster (R354). -/
def State.slotAt (s : State) (die cluster slot : Nat) : Option (List Byte) :=
  ((s.dieAt die).slots.find? fun e => e.1 == 16 * cluster + slot).map (·.2)

/-- V of a bind record (R354). -/
def recValid (r : List Byte) : Bool := fieldAt r 0x13 1 % 2 == 1
/-- The crew that a bind record names (R354). -/
def recKey (r : List Byte) : CrewKey := ⟨CtxId.ofNat (fieldAt r 0x0C 4), fieldAt r 0 4, fieldAt r 4 4, fieldAt r 8 4⟩
/-- LCLUSTER (R354). -/
def recLcl (r : List Byte) : Nat := fieldAt r 0x10 2
/-- PRIO (R354). -/
def recPrio (r : List Byte) : Nat := fieldAt r 0x12 1 % 8
/-- DSEQ (R354). -/
def recDseq (r : List Byte) : Nat := fieldAt r 0x18 8

/-- The record with V cleared. -/
def recClear (r : List Byte) : List Byte := r.take 0x13 ++ leBytes 1 (fieldAt r 0x13 1 / 2 * 2) ++ r.drop 0x14

/-- A slot's record replaced. -/
def State.putSlot (s : State) (die cluster slot : Nat) (r : List Byte) : State :=
  s.mapDie die fun d => { d with slots :=
    (16 * cluster + slot, r) :: d.slots.filter fun e => e.1 != 16 * cluster + slot }

/-- A slot whose valid record names a crew of a set loses V. -/
def freeIf (f : CrewKey → Bool) (e : Nat × List Byte) : Nat × List Byte :=
  if recValid e.2 && f (recKey e.2) then (e.1, recClear e.2) else e

/-- The slots of every die that name crews of a set lose V. -/
def State.freeSlotsOf (s : State) (f : CrewKey → Bool) : State :=
  { s with dies := s.dies.map fun d => { d with slots := d.slots.map (freeIf f) } }

/-- The slots that name a crew lose V. -/
def State.unbind (s : State) (k : CrewKey) : State := s.freeSlotsOf fun x => x == k

end Sys2Proof.Machine
end

