-- ==== Sys2Proof/Machine/Area.lean ====
section
/-!
DEFINITION. The save area (19 R373 to R377): a crew written as bytes, and read back. Where the spec fixes no place for a
part of the crew's state, the bytes it leaves to the part hold it (log entry 27).
-/
namespace Sys2Proof.Machine

open Sys2Proof

/-! ### Bytes -/

/-- Zero bytes. -/
def zeros (n : Nat) : List Byte := List.replicate n 0
/-- A record brought to `n` bytes with zeros behind it. -/
def padTo (n : Nat) (bs : List Byte) : List Byte := (bs ++ zeros (n - bs.length)).take n
/-- A length rounded up to a multiple. -/
def roundUp (n k : Nat) : Nat := (n + k - 1) / k * k

/-- Bytes written over a canonical range at once. -/
def Overlay.writeRange (o : Overlay) (a : Nat) (bs : List Byte) : Overlay :=
  let stop := a + bs.length
  o.filter (fun c => decide (c.1 < a)) ++ (placed a bs).map (fun c => (c.1, some c.2)) ++
  o.filter (fun c => decide (stop ≤ c.1))

/-- Bytes written from a 4 KiB-aligned physical address upward, one granule after another; `n` bounds the granules. A
sector written whole loses its poison (R380). -/
def State.putArea : Nat → State → Nat → List Byte → State
  | 0, s, _, _ => s
  | n + 1, s, pa, bs =>
    if bs.isEmpty then s
    else
      let here := bs.take 4096
      let s1 := match canonical pa with
        | none => s
        | some ca => { s with
            dirty := s.dirty.writeRange ca here
            unpushed := s.unpushed.filter fun u => decide (u.ca < ca) || decide (ca + here.length ≤ u.ca)
            pois := s.pois.filter fun k => !(decide (ca ≤ 256 * k) && decide (256 * k + 256 ≤ ca + here.length)) }
      State.putArea n s1 (pa + 4096) (bs.drop 4096)

/-! ### Units as records (R375, R376) -/

/-- WAIT of a path (R375): every path that issues a waiting instruction again has 3. -/
def Path.waitCode (p : Path) : Nat :=
  match p.wait with
  | .none => 0
  | .parked _ => 1
  | .stuck _ => 1
  | .fetch _ => 2
  | .copy _ _ => 4
  | .tokens _ => 5
  | .trap _ => 6
  | _ => 3

/-- ARG of a path: the index of the copy that it yielded on (R375). -/
def Path.argCode (p : Path) (copies : List Copy) : Nat :=
  match p.wait with
  | .copy id _ => copies.findIdx fun c => c.id == id
  | _ => 0

/-- The 64 bytes of a return stack. -/
def stackBytesOf (st : List DWord) : List Byte := padTo 64 (st.flatMap fun d => leBytes 8 d.toNat)

/-- The PC at which a path goes on: the first prefix word of its instruction (R173). -/
def Path.savedPc (p : Path) : DWord :=
  match p.wait with
  | .copy _ cont => cont
  | _ => p.first

/-- A split or park entry (R375). -/
def Path.bytes (p : Path) (copies : List Copy) : List Byte :=
  leBytes 8 p.savedPc.toNat ++ leBytes 4 p.mask.toNat ++ leBytes 4 (p.only.getD 0).toNat ++
  leBytes 1 p.stack.length ++ leBytes 1 p.waitCode ++ leBytes 1 p.slot ++ leBytes 1 (p.argCode copies) ++ zeros 12 ++
  stackBytesOf p.stack

/-- A trap level, 48 bytes (R375). -/
def TrapRegs.bytes (r : TrapRegs) : List Byte :=
  padTo 48 (leBytes 8 r.epc.toNat ++ leBytes 4 r.cause.toNat ++ leBytes 4 r.mask.toNat ++ leBytes 8 r.val.toNat ++
    leBytes 8 r.split.toNat ++ leBytes 8 r.scr.toNat)

/-- ATTR and VALID of a translation register in 32 bits. -/
def Attr.word (a : Attr) (valid : Bool) : Nat :=
  valid.toNat + a.r.toNat * 2 + a.w.toNat * 4 + a.x.toNat * 8 + a.ver.toNat * 16 + a.mig.toNat * 32 +
  a.fmt % 64 * 64 + a.geom % 8 * 2 ^ 12 + a.ilv % 4 * 2 ^ 15 +
  (if a.size = 2 ^ 30 then 2 else if a.size = 2 ^ 21 then 1 else 0) * 2 ^ 17

/-- A translation register, 32 bytes; LIMIT has four of them (R375). -/
def TransReg.bytes (t : TransReg) : List Byte :=
  leBytes 8 t.base ++ leBytes 8 t.frame ++ leBytes 8 t.hbound ++ leBytes 4 (min t.limit (2 ^ 32 - 1)) ++
  leBytes 4 (t.attr.word t.valid)

/-- A queue register, 48 bytes: its descriptor, the next entry, attached (R121, R375). -/
def QueueReg.bytes (q : QueueReg) : List Byte :=
  leBytes 8 q.base ++ leBytes 4 q.count ++ leBytes 4 (BitVec.ofInt 32 q.stride).toNat ++ leBytes 1 q.store.toNat ++
  leBytes 1 (if q.wide then 3 else 0) ++ leBytes 1 q.areg ++ zeros 13 ++ leBytes 4 q.next ++
  leBytes 1 q.attached.toNat ++ zeros 11

/-- The 128 bytes of a register row, lane by lane. -/
def laneBytes (l : Lanes) : List Byte := l.toList.flatMap fun w => leBytes 4 w.toNat

/-- The flags of a prefix in one byte. -/
def Pfx.flagBits (p : Pfx) : Nat :=
  p.himm.toNat + p.hmod.isSome.toNat * 2 + p.hsched.toNat * 4 + p.hcache.toNat * 8 + p.twice.toNat * 16

/-- An HMOD word's payload. -/
def Hmod.bits (h : Hmod) : Nat :=
  h.scope.toNat + h.order.toNat * 2 ^ 4 + h.rnd.toNat * 2 ^ 6 + h.sat.toNat * 2 ^ 9 + h.uns.toNat * 2 ^ 10 +
  h.tv.toNat * 2 ^ 11 + h.zero.toNat * 2 ^ 14

/-- A replay entry, 1 KiB (R375): word and prefix, what the model needs of its shape, the lane mask, and 24 bytes for each
lane. -/
def Replay.bytes (r : Replay) : List Byte :=
  padTo 1024 (leBytes 4 r.word.toNat ++ leBytes 8 r.pfx.acc.toNat ++ leBytes 4 ((r.pfx.hmod.map Hmod.bits).getD 0) ++
    leBytes 1 (r.pfx.flagBits + r.wide.toNat * 32 + r.ver.toNat * 64) ++ leBytes 1 r.pfx.count ++ zeros 2 ++
    leBytes 4 r.pfx.last.toNat ++ leBytes 1 ((r.lanes.head?.map fun l => l.data.length).getD 0) ++ leBytes 1 r.size ++
    zeros 2 ++ leBytes 4 (r.lanes.foldl (fun (m : Mask) l => m ||| Mask.one l.lane) 0).toNat ++
    r.lanes.flatMap fun l => leBytes 8 l.va ++ padTo 16 l.data)

/-- VOPEN: a version is open, and has committed at an overflow. -/
def Version.code (v : Version) : Nat := v.open_.toNat + v.part.toNat * 2

/-- The split in a slot, or an empty path. -/
def Agent.slotPath (a : Agent) (n : Nat) : Path := (a.pathAt n).getD { Path.empty with slot := n }

/-- The slots in use, one bit each. -/
def Agent.slotMask (a : Agent) : Nat :=
  (List.range 4).foldl (fun m n => if (a.pathAt n).isSome then m + 2 ^ n else m) 0

/-- The live park entries. -/
def Agent.parked (a : Agent) : List Path := a.park.filter fun p => p.mask != 0

/-- A group record (R375). -/
def Agent.groupBytes (a : Agent) (copies : List Copy) : List Byte :=
  leBytes 2 a.regs.v.length ++ leBytes 1 a.regs.ix ++ leBytes 1 a.regs.tile.toNat ++ leBytes 4 a.regs.fpc.toNat ++
  leBytes 1 a.urg.toNat ++ leBytes 1 a.tl ++ leBytes 1 a.slotMask ++ leBytes 1 a.parked.length ++
  leBytes 1 a.replay.length ++ leBytes 1 a.version.code ++ leBytes 1 0 ++ leBytes 1 a.pois.toNat ++
  leBytes 8 a.version.id.toNat ++ leBytes 1 a.rotLow ++ leBytes 1 a.imprecise.isSome.toNat ++
  leBytes 1 ((a.imprecise.map fun x => x.1.code).getD 0) ++ zeros 5 ++
  leBytes 8 ((a.imprecise.map fun x => x.2.toNat).getD 0) ++ zeros 24 ++
  ((List.range 4).flatMap fun n => (a.slotPath n).bytes copies) ++
  padTo 2688 (a.parked.flatMap fun p => p.bytes copies) ++
  a.t1.bytes ++ a.t2.bytes ++
  (a.regs.s.toList.flatMap fun d => leBytes 8 d.toNat) ++
  (a.regs.p.toList.flatMap fun m => leBytes 4 m.toNat) ++
  (a.regs.a.toList.flatMap TransReg.bytes) ++ (a.regs.q.toList.flatMap QueueReg.bytes) ++ zeros 128 ++
  (a.regs.o.toList.flatMap laneBytes) ++ (a.regs.v.flatMap laneBytes) ++ a.replay.flatMap Replay.bytes

/-- A Gaffer record, 1 KiB (R376); the byte at 0x01A holds PRT.TILE, and the rest of a split entry and IX lie at 0x020. -/
def Agent.gafferBytes (a : Agent) (copies : List Copy) : List Byte :=
  padTo 1024 (leBytes 8 a.cur.savedPc.toNat ++ leBytes 4 a.regs.fpc.toNat ++ leBytes 1 a.tl ++ leBytes 1 a.cur.waitCode ++
    leBytes 1 a.cur.stack.length ++
    leBytes 1 ((List.range 8).foldl (fun m n => if (a.regs.p.toArray.getD n 0).getLsbD 0 then m + 2 ^ n else m) 0) ++
    leBytes 8 a.version.id.toNat ++ leBytes 1 a.version.code ++ zeros 1 ++ leBytes 1 a.regs.tile.toNat ++
    zeros 5 ++ leBytes 4 (a.cur.only.getD 0).toNat ++ leBytes 1 (a.cur.argCode copies) ++ leBytes 1 a.regs.ix ++
    leBytes 1 a.pois.toNat ++ zeros 25 ++ stackBytesOf a.cur.stack ++ a.t1.bytes ++ a.t2.bytes ++ zeros 32 ++
    a.regs.s.toList.flatMap fun d => leBytes 8 d.toNat)

/-! ### Sections (R374, R376) -/

/-- SPOIS of a gang: one bit for each poisoned sector (R374). -/
def spoisBytes (pois : List Nat) : List Byte :=
  (List.range 256).map fun i => BitVec.ofNat 8 ((List.range 8).foldl
    (fun b j => if pois.contains (8 * i + j) then b + 2 ^ j else b) 0)

/-- The offsets of records laid one behind another. -/
def offsetsFrom (o : Nat) : List (List Byte) → List Nat
  | [] => []
  | r :: rs => o :: offsetsFrom (o + r.length) rs

/-- GREC: the offset of each group's record, 0 for an absent group (R374). -/
def grecBytes (base : Nat) (live : List (Nat × List Byte)) : List Byte :=
  let offs := (live.map (·.1)).zip (offsetsFrom base (live.map (·.2)))
  (List.range 32).flatMap fun i => leBytes 4 (laneVal 0 offs i)

/-- A gang section (R374): GROUPS as the kernel declares it. A group that has retired is absent. -/
def Crew.gangBytes (c : Crew) (g : Nat) : List Byte :=
  match c.gangs[g]? with
  | none => []
  | some x =>
    let live := (c.agents.filter fun a => !a.unit.gaffer && a.unit.gang == g && !a.gone).map fun a =>
      (a.unit.ix, a.groupBytes c.copies)
    leBytes 1 c.groups ++ zeros 3 ++ leBytes 4 x.size ++ grecBytes (1024 + x.size) live ++ spoisBytes x.pois ++ zeros 632 ++
    x.mem.readBytes 0 x.size ++ live.flatMap (·.2)

/-- The Gaffer threads that are still live, in the order of their indices. -/
def Crew.liveGaffers (c : Crew) : List Agent :=
  (List.range 4).filterMap fun t => c.agents.find? fun a => a.unit.gaffer && a.unit.ix == t && !a.gone

/-- GAFFERS: one bit for each Gaffer thread still live (R373; log entry 27). -/
def Crew.gafferMask (c : Crew) : Nat := (c.liveGaffers.map fun a => 2 ^ a.unit.ix).sum

/-- The Gaffer section: a record for each live thread (R376). -/
def Crew.gafferSection (c : Crew) : List Byte := c.liveGaffers.flatMap fun a => a.gafferBytes c.copies

/-- The planes of the Marver as bytes: four 40-bit sub-positions per cell, cells row-major (R376). -/
def planeBytes (l : List (Nat × BitVec 40)) : List Byte :=
  (List.range 65536).flatMap fun i => leBytes 5 (laneVal 0 l i).toNat

/-- A record of MSTAT in 8 bytes: K, N, mode, class and whether there is one. -/
def PlaneRec.bytes (p : PlaneRec) : List Byte :=
  leBytes 2 p.k ++ leBytes 2 p.n ++ leBytes 1 p.mode ++ leBytes 1 (p.cls.getD 0) ++ leBytes 1 p.cls.isSome.toNat ++ leBytes 1 0

/-- A queued operation, 512 bytes (R376): its step index is that of MST (R100); beside it stand the step that it computes next and
the one from which it writes. -/
def MOp.bytes (o : MOp) : List Byte :=
  padTo 512 (leBytes 1 o.eop ++ leBytes 1 o.thread ++ leBytes 1 o.barrier.isSome.toNat ++ leBytes 1 o.scope ++
    leBytes 1 ((o.barrier.map (·.gang)).getD 0) ++ leBytes 1 o.zc.toNat ++ leBytes 2 o.block.length ++
    leBytes 4 ((o.barrier.map (·.off)).getD 0) ++ leBytes 4 o.arg ++ leBytes 4 (max o.step o.skip) ++ leBytes 1 1 ++ zeros 3 ++
    leBytes 4 o.step ++ leBytes 4 o.skip ++ o.block)

/-- The operations in the order of the area: a stopped one first, then the running ones, then the rest (R376). -/
def Marver.ordered (m : Marver) : List MOp :=
  (m.queue.filter fun o => o.state == .stopped) ++ (m.queue.filter fun o => o.state == .running) ++
  m.queue.filter fun o => o.state == .queued

/-- The rule slots, 16 of 64 bytes, with one bit each in the slot map. -/
def slotBytes (l : List (Nat × List Byte)) : List Byte := (List.range 16).flatMap fun i => padTo 64 (laneVal [] l i)

/-- The Marver section (R376): MST, MCF, the two records, and the map of the rule slots that hold a rule. -/
def Marver.bytes (m : Marver) : List Byte :=
  ((List.range 16384).flatMap fun i => leBytes 4 (laneVal 0 m.acc i).toNat) ++ planeBytes m.sta ++ planeBytes m.shd ++
  slotBytes m.slots ++
  padTo 64 (leBytes 4 m.mst.toNat ++ leBytes 4 m.mcf.toNat ++ m.staRec.bytes ++ m.shdRec.bytes ++
    leBytes 2 ((List.range 16).foldl (fun b i => if m.slots.any fun e => e.1 == i then b + 2 ^ i else b) 0)) ++
  padTo 9152 (m.ordered.flatMap MOp.bytes) ++ padTo (131072) ((List.range 32768).flatMap fun i =>
    leBytes 4 (laneVal 0 m.edges i).toNat)

/-- A copy, 128 bytes (R376). -/
def Copy.areaBytes (c : Copy) : List Byte :=
  padTo 128 (padTo 64 c.block ++ leBytes 8 c.done ++ leBytes 1 c.status ++
    leBytes 1 (if c.issuer.gaffer then 0xFF else c.issuer.gang) ++ leBytes 1 c.issuer.ix ++ leBytes 1 c.cont.isSome.toNat ++
    zeros 4 ++ leBytes 8 (c.cont.getD 0).toNat ++ leBytes 1 c.kind ++ leBytes 1 c.scope ++ leBytes 1 c.rnd ++
    leBytes 1 c.sat.toNat ++ leBytes 1 c.place.gang ++ zeros 3 ++ leBytes 4 c.place.off ++ leBytes 4 c.id)

/-- The merge entries that a crew's groups, streams, copies and Marver operations wait on (R349). -/
def Crew.keys (c : Crew) : List MergeKey :=
  ((c.agents.flatMap fun a => (a.paths.flatMap fun p => p.wait.keys) ++ a.replay.flatMap (·.keys) ++
      a.streams.flatMap (·.keys)) ++ c.copies.flatMap (·.keys) ++
    c.marver.queue.flatMap (·.keys)).eraseDups

/-- The fault-list section: up to 4096 pages with the kind class in bit 0 (R349, R376). -/
def faultListBytes (ks : List MergeKey) : List Byte :=
  let l := ks.take 4096
  if l.isEmpty then [] else leBytes 8 l.length ++ l.flatMap fun k => leBytes 8 (k.page + k.write.toNat)

/-- The bytes of a sector as a version holds it over memory. -/
def State.versionSector (s : State) (v : Version) (sector : Nat) : List Byte :=
  (List.range 256).map fun i => (v.bytes.read (256 * sector + i)).getD (s.byteAt (256 * sector + i))

/-- The versions section: each open version's owner, its count of sectors, and the sectors (R376). -/
def State.versionBytes (s : State) (c : Crew) : List Byte :=
  (c.agents.filter fun a => a.version.active && !a.gone).flatMap fun a =>
    leBytes 8 ((if a.unit.gaffer then 0xFF else a.unit.gang) + 256 * a.unit.ix) ++ leBytes 8 a.version.sectors.length ++
    a.version.sectors.flatMap fun x => leBytes 8 x.2 ++ s.versionSector a.version x.1

/-! ### The whole area (R373) -/

/-- The nine sections of a crew's save. -/
def State.areaSections (s : State) (c : Crew) : List (List Byte) :=
  ((List.range 4).map fun g => c.gangBytes g) ++
  [c.gafferSection, if c.gaffers = 0 then [] else c.marver.bytes, c.copies.flatMap Copy.areaBytes, faultListBytes c.keys,
   s.versionBytes c]

/-- The offset of each section: 1 KiB multiples in index order (R373). -/
def sectionOffsets (o : Nat) : List (List Byte) → List (Nat × Nat)
  | [] => []
  | x :: xs => (o, x.length) :: sectionOffsets (o + roundUp x.length 1024) xs

/-- The SECT table of 12 entries; an empty section has offset and length 0. -/
def sectBytes (l : List (Nat × Nat)) : List Byte :=
  padTo 192 (l.flatMap fun e => if e.2 = 0 then zeros 16 else leBytes 8 e.1 ++ leBytes 8 e.2)

/-- The bytes of a crew's save, header first (R373). -/
def State.areaBytes (s : State) (c : Crew) (xr : Nat) : List Byte :=
  let secs := s.areaSections c
  let body := secs.flatMap fun x => padTo (roundUp x.length 1024) x
  let head := leBytes 4 1 ++ leBytes 4 c.key.ctx.word.toNat ++ leBytes 4 c.key.launch ++ leBytes 4 c.key.sheet ++
    leBytes 4 c.key.crew ++ leBytes 2 c.lcl ++ leBytes 1 c.gangs.length ++
    leBytes 1 c.gafferMask ++ leBytes 4 xr ++
    leBytes 4 (c.persist.toNat + 4 * 256) ++ leBytes 16 c.featUse.toNat ++ leBytes 8 (s.dieAt c.socket).ptime ++
    leBytes 8 (1024 + body.length) ++ sectBytes (sectionOffsets 1024 secs)
  padTo 1024 head ++ body

/-! ### Reading an area (R378) -/

/-- A trap level read back. -/
def TrapRegs.ofBytes (bs : List Byte) : TrapRegs where
  epc := BitVec.ofNat 64 (fieldAt bs 0 8)
  cause := BitVec.ofNat 32 (fieldAt bs 8 4)
  mask := BitVec.ofNat 32 (fieldAt bs 12 4)
  val := BitVec.ofNat 64 (fieldAt bs 16 8)
  split := BitVec.ofNat 64 (fieldAt bs 24 8)
  scr := BitVec.ofNat 64 (fieldAt bs 32 8)

/-- A return stack read back. -/
def stackOf (bs : List Byte) (depth : Nat) : List DWord :=
  (List.range depth).map fun i => BitVec.ofNat 64 (fieldAt bs (8 * i) 8)

/-- PMASK read back: 0 stands for every lane. -/
def pmaskOf (n : Nat) : Option (BitVec 32) := if n = 0 then none else some (BitVec.ofNat 32 n)

/-- The wait of a path read back: parked, held on a fetch, or on a copy of its crew; else it executes its instruction afresh
(R378). -/
def waitOf (code arg : Nat) (copies : List Copy) (pc : DWord) : Wait :=
  match code with
  | 1 => .parked []
  | 2 => .fetch []
  | 4 => ((copies[arg]?).map fun c => Wait.copy c.id pc).getD .none
  | _ => .none

/-- A path read back (R375, R378). -/
def pathOf (bs : List Byte) (copies : List Copy) (tick : Nat) : Path :=
  let pc := BitVec.ofNat 64 (fieldAt bs 0 8)
  { Path.empty with
    slot := fieldAt bs 0x12 1
    pc := pc
    mask := BitVec.ofNat 32 (fieldAt bs 8 4)
    only := pmaskOf (fieldAt bs 12 4)
    stack := stackOf (bs.drop 0x20) (fieldAt bs 0x10 1)
    wait := waitOf (fieldAt bs 0x11 1) (fieldAt bs 0x13 1) copies pc
    since := tick }

/-- ATTR read back. -/
def attrOf (n : Nat) : Attr where
  r := n.testBit 1
  w := n.testBit 2
  x := n.testBit 3
  ver := n.testBit 4
  mig := n.testBit 5
  fmt := n / 64 % 64
  geom := n / 2 ^ 12 % 8
  ilv := n / 2 ^ 15 % 4
  size := match n / 2 ^ 17 % 4 with
    | 2 => 2 ^ 30
    | 1 => 2 ^ 21
    | _ => 2 ^ 16

/-- A translation register read back; `clear` drops its LIMIT (R326). -/
def transOf (bs : List Byte) (clear : Bool) : TransReg where
  base := fieldAt bs 0 8
  frame := fieldAt bs 8 8
  hbound := fieldAt bs 16 8
  limit := if clear then 0 else fieldAt bs 24 4
  attr := attrOf (fieldAt bs 28 4)
  valid := (fieldAt bs 28 4).testBit 0

/-- A queue register read back: its load stream fetches again from the next entry (R379). -/
def queueOf (bs : List Byte) : QueueReg :=
  { QueueReg.ofBytes (bs.take 32) with next := fieldAt bs 32 4, attached := fieldAt bs 36 1 == 1 }

/-- A register row read back. -/
def lanesOf (bs : List Byte) : Lanes := Lanes.tab fun n => BitVec.ofNat 32 (fieldAt bs (4 * n) 4)

/-- An HMOD payload read back. -/
def hmodOf (n : Nat) : Hmod where
  scope := BitVec.ofNat 4 n
  order := BitVec.ofNat 2 (n / 2 ^ 4)
  rnd := BitVec.ofNat 3 (n / 2 ^ 6)
  sat := BitVec.ofNat 1 (n / 2 ^ 9)
  uns := BitVec.ofNat 1 (n / 2 ^ 10)
  tv := BitVec.ofNat 3 (n / 2 ^ 11)
  zero := BitVec.ofNat 7 (n / 2 ^ 14)

/-- A replay entry read back (R371): it waits on nothing. -/
def replayOf (bs : List Byte) : Replay :=
  let fl := fieldAt bs 0x10 1
  let len := fieldAt bs 0x18 1
  let m : Mask := BitVec.ofNat 32 (fieldAt bs 0x1C 4)
  { word := BitVec.ofNat 32 (fieldAt bs 0 4)
    pfx := {
      acc := BitVec.ofNat 64 (fieldAt bs 4 8), himm := fl.testBit 0, count := fieldAt bs 0x11 1
      hmod := if fl.testBit 1 then some (hmodOf (fieldAt bs 0x0C 4)) else none
      hsched := fl.testBit 2, hcache := fl.testBit 3, twice := fl.testBit 4, last := BitVec.ofNat 32 (fieldAt bs 0x14 4) }
    wide := fl.testBit 5
    ver := fl.testBit 6
    size := fieldAt bs 0x19 1
    lanes := (m.lanes.zip (List.range 32)).map fun e =>
      ⟨e.1.val, fieldAt bs (0x20 + 24 * e.2) 8, slice bs (0x28 + 24 * e.2) len⟩
    keys := [] }

/-- The cause of a code (R314). -/
def Cause.ofCode (n : Nat) : Cause :=
  ([.illegalInsn, .illegalOperand, .illegalIssuer, .regBounds, .regBudget, .callDepth, .intDiv0, .misaligned, .xlate,
    .format, .barrierPoison, .queueMisuse, .progress, .detViolation, .swTrap, .brk, .version, .watermarkStall, .eccUe,
    .engineFault, .ctxIncompat, .physErr].find? fun c => c.code == n).getD .xlate

/-- The handling split of a restored unit at TL 1 or above: the first in order of lanes among those of TSPLIT (R312). -/
def Agent.markHandler (a : Agent) : Agent :=
  if a.tl = 0 then a
  else
    let m : Mask := a.level.split.extractLsb' 32 32
    let low := (a.paths.filter fun p => p.mask &&& m != 0).foldl (fun n p => min n p.mask.lowest) 32
    a.mapPaths fun p => if p.mask != 0 && p.mask.lowest == low then { p with handler := true } else p

/-- The version that a record opens again; its sectors come from their own section. -/
def versionOf (id code : Nat) : Version := ⟨BitVec.ofNat 64 id, code.testBit 0, code.testBit 1, [], []⟩

/-- FPC with DET of the context that the crew holds (R49, R308). -/
def detFpc (det : Bool) (v : Word) : Word := (v &&& 0xFFFFFBFF#32) ||| (if det then 0x400#32 else 0)

/-- A group read back (R375, R378): urgency and count start at 0 (R379), no token is pending. -/
def groupOf (bs : List Byte) (gang ix : Nat) (copies : List Copy) (det clear : Bool) (tick : Nat) : Agent :=
  let allot := fieldAt bs 0 2
  let slots := ((List.range 4).map fun n => pathOf (slice bs (0x40 + 96 * n) 96) copies tick).filter fun p => p.mask != 0
  let a : Agent := {
    unit := ⟨false, gang, ix⟩
    cur := slots.headD Path.empty
    splits := slots.drop 1
    park := (List.range (fieldAt bs 11 1)).map fun n => pathOf (slice bs (0x1C0 + 96 * n) 96) copies tick
    regs := {
      v := (List.range allot).map fun r => lanesOf (slice bs (0x1800 + 128 * r) 128)
      o := Vector.ofFn fun i => lanesOf (slice bs (0x1000 + 128 * i.val) 128)
      s := Vector.ofFn fun i => BitVec.ofNat 64 (fieldAt bs (0xCA0 + 8 * i.val) 8)
      p := Vector.ofFn fun i => BitVec.ofNat 32 (fieldAt bs (0xDA0 + 4 * i.val) 4)
      a := Vector.ofFn fun i => transOf (slice bs (0xDC0 + 32 * i.val) 32) clear
      q := Vector.ofFn fun i => queueOf (slice bs (0xEC0 + 48 * i.val) 48)
      ix := fieldAt bs 2 1
      tile := BitVec.ofNat 3 (fieldAt bs 3 1)
      fpc := detFpc det (BitVec.ofNat 32 (fieldAt bs 4 4)) }
    tokens := 0
    urg := 0
    tl := fieldAt bs 9 1
    t1 := TrapRegs.ofBytes (slice bs 0xC40 48)
    t2 := TrapRegs.ofBytes (slice bs 0xC70 48)
    run := none
    streams := []
    replay := (List.range (fieldAt bs 12 1)).map fun n => replayOf (slice bs (0x1800 + 128 * allot + 1024 * n) 1024)
    imprecise := if fieldAt bs 0x19 1 % 2 = 1 then
        some (Cause.ofCode (fieldAt bs 0x1A 1), BitVec.ofNat 64 (fieldAt bs 0x20 8)) else none
    version := versionOf (fieldAt bs 0x10 8) (fieldAt bs 13 1)
    rotLow := fieldAt bs 0x18 1
    pois := fieldAt bs 15 1 == 1
    retired := 0 }
  a.markHandler

/-- A Gaffer thread read back (R376). -/
def gafferOf (bs : List Byte) (ix : Nat) (copies : List Copy) (det : Bool) (tick : Nat) : Agent :=
  let pc := BitVec.ofNat 64 (fieldAt bs 0 8)
  let preds := fieldAt bs 0x0F 1
  let r0 := Regs.initial 0 0 0 0 (detFpc det (BitVec.ofNat 32 (fieldAt bs 8 4)))
  let a0 := Agent.initial ⟨true, 0, ix⟩ 1 pc r0 tick
  let a : Agent := { a0 with
    cur := { a0.cur with
      only := pmaskOf (fieldAt bs 0x20 4)
      stack := stackOf (bs.drop 0x40) (fieldAt bs 0x0E 1)
      wait := waitOf (fieldAt bs 0x0D 1) (fieldAt bs 0x24 1) copies pc }
    regs := { r0 with
      s := Vector.ofFn fun i => BitVec.ofNat 64 (fieldAt bs (0x100 + 8 * i.val) 8)
      p := Vector.ofFn fun i => if preds.testBit i.val then 1 else 0
      ix := fieldAt bs 0x25 1
      tile := BitVec.ofNat 3 (fieldAt bs 0x1A 1) }
    tl := fieldAt bs 0x0C 1
    t1 := TrapRegs.ofBytes (slice bs 0x80 48)
    t2 := TrapRegs.ofBytes (slice bs 0xB0 48)
    version := versionOf (fieldAt bs 0x10 8) (fieldAt bs 0x18 1)
    pois := fieldAt bs 0x26 1 == 1 }
  a.markHandler

/-- A copy read back: it resumes (R126). -/
def copyOf (bs : List Byte) : Copy where
  id := fieldAt bs 0x64 4
  kind := fieldAt bs 0x58 1
  block := bs.take 64
  place := ⟨fieldAt bs 0x5C 1, fieldAt bs 0x60 4⟩
  done := fieldAt bs 0x40 8
  status := fieldAt bs 0x48 1
  issuer := if fieldAt bs 0x49 1 = 0xFF then ⟨true, 0, fieldAt bs 0x4A 1⟩ else ⟨false, fieldAt bs 0x49 1, fieldAt bs 0x4A 1⟩
  cont := if fieldAt bs 0x4B 1 = 1 then some (BitVec.ofNat 64 (fieldAt bs 0x50 8)) else none
  scope := fieldAt bs 0x59 1
  rnd := fieldAt bs 0x5A 1
  sat := fieldAt bs 0x5B 1 == 1
  keys := []

/-- The listed values of a table of `n` words of `k` bytes, numbered from `i`: zeros are not listed. -/
def listedFrom {w : Nat} (k : Nat) : Nat → Nat → List Byte → List (Nat × BitVec w)
  | 0, _, _ => []
  | n + 1, i, bs =>
    let v := BitVec.ofNat w (leNat (bs.take k))
    let rest := listedFrom k n (i + 1) (bs.drop k)
    if v = 0 then rest else (i, v) :: rest

/-- The listed values of a table of words. -/
def listed {w : Nat} (n k : Nat) (bs : List Byte) : List (Nat × BitVec w) := listedFrom k n 0 bs

/-- A record of MSTAT read back. -/
def planeRecOf (bs : List Byte) : PlaneRec :=
  ⟨fieldAt bs 0 2, fieldAt bs 2 2, fieldAt bs 4 1, if fieldAt bs 6 1 = 1 then some (fieldAt bs 5 1) else none⟩

/-- A queued operation read back; `i` is its number. -/
def mopOf (bs : List Byte) (i : Nat) : MOp where
  id := i
  eop := fieldAt bs 0 1
  thread := fieldAt bs 1 1
  barrier := if fieldAt bs 2 1 = 1 then some ⟨fieldAt bs 4 1, fieldAt bs 8 4⟩ else none
  scope := fieldAt bs 3 1
  zc := fieldAt bs 5 1 == 1
  block := slice bs 0x20 (fieldAt bs 6 2)
  arg := fieldAt bs 0x0C 4
  step := fieldAt bs 0x18 4
  skip := fieldAt bs 0x1C 4
  state := .queued
  failed := false
  keys := []

/-- The Marver read back: the first operation is the stopped one while MST.STOP is 1, the rest are queued (R99). -/
def marverOf (bs : List Byte) : Marver :=
  let mst : BitVec 32 := BitVec.ofNat 32 (fieldAt bs 0xB0400 4)
  let map := fieldAt bs 0xB0418 2
  let ops := ((List.range 16).map fun i => slice bs (0xB0440 + 512 * i) 512).filter fun o => fieldAt o 0x14 1 == 1
  let q := (ops.zip (List.range 16)).map fun e => mopOf e.1 e.2
  { acc := listed 16384 4 (bs.take 0x10000)
    sta := listed 65536 5 (slice bs 0x10000 0x50000)
    shd := listed 65536 5 (slice bs 0x60000 0x50000)
    staRec := planeRecOf (slice bs 0xB0408 8)
    shdRec := planeRecOf (slice bs 0xB0410 8)
    slots := (List.range 16).filterMap fun i => if map.testBit i then some (i, slice bs (0xB0000 + 64 * i) 64) else none
    edges := listed 32768 4 (slice bs 0xB2800 0x20000)
    queue := match q with
      | [] => []
      | o :: os => (if mst.getLsbD 14 then { o with state := .stopped } else o) :: os
    mst := mst
    mcf := BitVec.ofNat 32 (fieldAt bs 0xB0404 4)
    nextId := 16 }

/-- A gang read back on a core, with its poisoned sectors (R378). -/
def gangOf (bs : List Byte) (core : Nat) : Gang where
  size := fieldAt bs 4 4
  mem := ((List.range (fieldAt bs 4 4)).foldl (fun (m : List Host.Cell) i =>
    match bs[1024 + i]? with
    | some b => if b = Memory.unlisted then m else (i, b) :: m
    | none => m) []).reverse
  pois := (List.range 2048).filter fun k => (fieldAt bs (0x88 + k / 8) 1).testBit (k % 8)
  core := core

/-- The groups of a gang section; an absent one has retired. -/
def groupsOf (bs : List Byte) (gang : Nat) (copies : List Copy) (det clear : Bool) (tick : Nat) : List Agent :=
  (List.range 32).filterMap fun i =>
    let o := fieldAt bs (8 + 4 * i) 4
    if o = 0 then none else some (groupOf (bs.drop o) gang i copies det clear tick)

/-- A section of an area. -/
def sectionOf (bs : List Byte) (i : Nat) : List Byte := slice bs (fieldAt bs (0x40 + 16 * i) 8) (fieldAt bs (0x48 + 16 * i) 8)

/-- Records of a fixed size in a section. -/
def chunks (size : Nat) (bs : List Byte) : List (List Byte) :=
  (List.range (bs.length / size)).map fun i => slice bs (size * i) size

/-- The versions of a section: owner and sectors (virtual address and data). -/
def versionsOf : Nat → List Byte → List (UnitKey × List (Nat × List Byte))
  | 0, _ => []
  | n + 1, bs =>
    if bs.length < 16 then []
    else
      let g := fieldAt bs 0 1
      let count := fieldAt bs 8 8
      let u : UnitKey := if g = 0xFF then ⟨true, 0, fieldAt bs 1 1⟩ else ⟨false, g, fieldAt bs 1 1⟩
      (u, (List.range count).map fun i => (fieldAt bs (16 + 264 * i) 8, slice bs (24 + 264 * i) 256)) ::
        versionsOf n (bs.drop (16 + 264 * count))

/-- The pages of a fault list with their class. -/
def faultListOf (bs : List Byte) : List (Nat × Bool) :=
  (List.range (fieldAt bs 0 8)).map fun i =>
    let v := fieldAt bs (8 + 8 * i) 8
    (v / 65536 * 65536, v % 2 == 1)

/-- The Gaffer threads whose records an area holds (R373). -/
def gafferSet (bs : List Byte) : List Nat := (List.range 4).filter (fieldAt bs 0x17 1).testBit

/-- Groups per gang, allotment and Gaffer threads of a saved crew: as its kernel's header says (R420), or, where that cannot be
read, as its area shows them. -/
structure Declared where
  groups : Nat
  budget : Nat
  gaffers : Nat
  deriving DecidableEq, Repr

/-- What an area shows of its crew's declaration. -/
def declaredIn (bs : List Byte) : Declared where
  groups := (List.range 4).foldl (fun n g => max n (fieldAt (sectionOf bs g) 0 1)) 0
  budget := (List.range 4).foldl (fun n g =>
    (groupsOf (sectionOf bs g) g [] false false 0).foldl (fun b a => max b a.regs.v.length) n) 0
  gaffers := if (sectionOf bs 5).isEmpty then 0 else max 1 ((sectionOf bs 4).length / 1024)

/-- The declaration of a saved crew. -/
def declaredOf (bs : List Byte) : Option Header → Declared
  | some h => ⟨h.groups, h.budget, h.gaffers⟩
  | none => declaredIn bs

/-- What a saved crew asks of a cluster. -/
def areaShape (bs : List Byte) (h : Option Header) : Shape :=
  let d := declaredOf bs h
  ⟨fieldAt bs 0x16 1, d.groups, d.groups * d.budget,
    (List.range 4).foldl (fun n g => max n (fieldAt (sectionOf bs g) 4 4)) 0, d.gaffers⟩

/-- A crew read back from the bytes of its area, on the cores of an entry of the core map, with its declaration and the values of
its descriptor that it holds (R308, R378, R379, R420). -/
def crewOf (bs : List Byte) (key : CrewKey) (e : MapEntry) (d : Declared) (held : Held) (clear : Bool) (time tick : Nat) :
    Crew :=
  let copies := (chunks 128 (sectionOf bs 6)).map copyOf
  let gangs := (List.range (fieldAt bs 0x16 1)).map fun g => gangOf (sectionOf bs g) (e.cores.getD g 0)
  let groups := (List.range (fieldAt bs 0x16 1)).flatMap fun g => groupsOf (sectionOf bs g) g copies held.det clear tick
  { Crew.empty with
    key := key
    lcl := fieldAt bs 0x14 2
    socket := e.socket
    cluster := e.cluster
    persist := fieldAt bs 0x1C 1 % 2 == 1
    since := time
    groups := d.groups
    budget := d.budget
    gaffers := d.gaffers
    held := held
    gangs := gangs
    agents := groups ++ ((gafferSet bs).zip (chunks 1024 (sectionOf bs 4))).map fun r =>
      gafferOf r.2 r.1 copies held.det tick
    marver := if (sectionOf bs 5).isEmpty then Marver.initial else marverOf (sectionOf bs 5)
    copies := copies
    nextCopy := copies.foldl (fun n c => max n (c.id + 1)) 0
    featUse := BitVec.ofNat 128 (fieldAt bs 0x20 16) }

end Sys2Proof.Machine
end

