-- ==== Sys2Proof/Machine/System.lean ====
section
/-!
DEFINITION. The system instructions but for the save and restore of crews (16 R318 to R327, R330 to R332): ERET, RDSR, WRSR,
TLBI, XRINV, ENGRST, CFENCE, IDLE.
-/
namespace Sys2Proof.Machine

open Sys2Proof

/-- The needs of a system instruction (R318, R319). -/
def fsNeeds (pl : Nat) (tlOk : Nat → Bool) : Needs where
  pl := pl
  tlOk := tlOk
  issuer := .both
  run := .never

/-- Any trap level (R319). -/
abbrev anyTl : Nat → Bool := fun _ => true

/-- ERET: straight to TL = 0 (R323). -/
def execEret (s : State) : Step :=
  s.fx (encode .eret) (fsNeeds 1 fun tl => tl != 0) [] fun s1 => .moved (s1.mapSelf fun a => (a.return 0).retire1)

/-! ### System registers (R305, R311, R324) -/

/-- What the map gives a register number: width, lowest privilege and trap level to read, and the privilege to write;
`none` for one that no privilege writes (R311). The level 3 stands for no condition. -/
structure SysReg where
  width : Nat
  level : Nat
  read : Nat
  write : Option Nat

/-- A register of a trap level by its offset (R311). -/
def trapReg (level off : Nat) : Option SysReg :=
  match off with
  | 0 => some ⟨64, level, 0, some 0⟩
  | 1 => some ⟨32, level, 0, none⟩
  | 2 => some ⟨64, level, 0, none⟩
  | 3 => some ⟨32, level, 0, some 0⟩
  | 4 => some ⟨64, level, 0, none⟩
  | 5 => some ⟨64, level, 0, some 0⟩
  | _ => none

/-- The system register map (R311). -/
def sysReg (n : Nat) : Option SysReg :=
  if n = 0 then some ⟨32, 0, 0, none⟩
  else if 0x10 ≤ n ∧ n < 0x20 then trapReg 1 (n - 0x10)
  else if 0x20 ≤ n ∧ n < 0x30 then trapReg 2 (n - 0x20)
  else if n = 0x40 ∨ n = 0x41 then some ⟨32, 0, 0, none⟩
  else if n = 0x42 ∨ n = 0x43 then some ⟨64, 0, 0, some 1⟩
  else if n = 0x44 ∨ n = 0x45 then some ⟨64, 0, 0, none⟩
  else if n = 0x46 ∨ n = 0x47 then some ⟨64, 0, 1, none⟩
  else if n = 0x80 ∨ n = 0x81 then some ⟨64, 0, 0, none⟩
  else if n = 0x90 then some ⟨64, 0, 2, some 2⟩
  else if 0x91 ≤ n ∧ n ≤ 0x98 then some ⟨32, 0, 1, some 2⟩
  else none

/-- An access lacks the privilege or the trap level that the map requires; a write to a register that nothing writes is
checked as a read (R305, R311). -/
def State.sysDenied (s : State) (r : SysReg) (write : Bool) : Bool :=
  decide (s.ctx.pl < (if write then r.write.getD r.read else r.read)) || decide (s.self.seenTl < r.level)

/-- TSTAT as the issuing split sees it (R312). -/
def State.tstat (s : State) : Nat := s.self.seenTl + 4 * s.ctx.pl

/-- FLAGS of a context's descriptor (R307). -/
def Context.flagsWord (c : Context) : Nat :=
  c.pl % 4 + c.det.toNat * 4 + c.kill.toNat * 8 + c.part % 8 * 16 + c.nlc % 65536 * 65536

/-- A trap register read; a Gaffer thread's TMASK and TSPLIT are fixed (R311, R315). -/
def TrapRegs.read (r : TrapRegs) (gaffer : Bool) (off : Nat) : Nat :=
  match off with
  | 0 => r.epc.toNat
  | 1 => r.cause.toNat
  | 2 => r.val.toNat
  | 3 => if gaffer then 1 else r.mask.toNat
  | 4 => if gaffer then 0x100000000 else r.split.toNat
  | _ => r.scr.toNat

/-- A part register read (R311, R317). -/
def State.partReg (s : State) (n : Nat) : Nat :=
  if n = 0x80 then s.boot.featoff.toNat % 2 ^ 64
  else if n = 0x81 then s.boot.featoff.toNat / 2 ^ 64
  else if n = 0x90 then s.ctbase
  else (s.partmap.toArray.getD (n - 0x91) 0).toNat

/-- A system register read (R311). -/
def State.readSys (s : State) (n : Nat) : Nat :=
  if n = 0 then s.tstat
  else if n < 0x20 then s.self.t1.read s.self.unit.gaffer (n - 0x10)
  else if n < 0x30 then s.self.t2.read s.self.unit.gaffer (n - 0x20)
  else if n = 0x40 then s.ctx.id.word.toNat
  else if n = 0x41 then s.ctx.flagsWord
  else if n = 0x42 then s.ctx.tvec1.toNat
  else if n = 0x43 then s.ctx.tvec2.toNat
  else if n = 0x44 then s.ctx.feat.toNat % 2 ^ 64
  else if n = 0x45 then s.ctx.feat.toNat / 2 ^ 64
  else if n = 0x46 then s.ctx.ptroot
  else if n = 0x47 then s.ctx.savebase
  else s.partReg n

/-- A trap register written: TEPC clears PFX and sets TMASK to the lanes of TSPLIT (R315). -/
def TrapRegs.write (r : TrapRegs) (gaffer : Bool) (off : Nat) (v : DWord) : TrapRegs :=
  match off with
  | 0 => { r with epc := v, cause := r.cause &&& 0xFFFFF8FF#32, mask := r.split.extractLsb' 32 32 }
  | 3 => if gaffer then r else { r with mask := v.setWidth 32 }
  | 5 => { r with scr := v }
  | _ => r

/-- The held values with a TVEC. -/
def Held.putTvec (h : Held) (lv : Nat) (v : DWord) : Held :=
  if lv = 1 then { h with tvec1 := v } else { h with tvec2 := v }

/-- TVEC of a context written in its descriptor and in every resident copy (R308, R324). -/
def State.putTvec (s : State) (lv : Nat) (v : DWord) : State :=
  let put (c : Crew) : Crew := if c.key.ctx = s.ctx.id then { c with held := c.held.putTvec lv v } else c
  let s1 : State := { s with
    ctx := if lv = 1 then { s.ctx with tvec1 := v } else { s.ctx with tvec2 := v }
    crew := put s.crew
    crews := s.crews.map put }
  s1.putPhys (s.ctbase + 64 * s.ctx.id.tag + (if lv = 1 then 0x10 else 0x18)) (leBytes 8 v.toNat)

/-- PARTMAP written: refused where a die would belong to two valid partitions, or V has no die (R309). -/
def State.putPartmap (s : State) (i : Nat) (v : Nat) : Option State :=
  let x : BitVec 32 := BitVec.ofNat 32 (v % 512)
  let clash := (List.range 8).any fun j =>
    let y := s.partmap.toArray.getD j 0
    j != i && y.getLsbD 8 && (y &&& x &&& 0xFF#32) != 0
  if x.getLsbD 8 ∧ (clash ∨ x &&& 0xFF#32 = 0) then none
  else some { s with partmap := Vector.ofFn fun j => if j.val = i then x else s.partmap[j] }

/-- A part register written; none where R309 refuses it (R311, R317). CTBASE keeps what is written. -/
def State.putPartReg (s : State) (n : Nat) (v : Nat) : Option State :=
  if n = 0x90 then some { s with ctbase := v }
  else if 0x91 ≤ n ∧ n ≤ 0x98 then s.putPartmap (n - 0x91) v
  else some s

/-- A value that the address registers refuse: [63:56] or [1:0] not zero (R315, R316). -/
def badVector (v : DWord) : Bool := decide (2 ^ 56 ≤ v.toNat) || v.toNat % 4 != 0

/-- A system register written; none where a field check refuses the value (R315, R316, R309). -/
def State.writeSys (s : State) (n : Nat) (v : DWord) : Option State :=
  let g := s.self.unit.gaffer
  if n = 0x10 ∨ n = 0x20 ∨ n = 0x42 ∨ n = 0x43 then
    if badVector v then none
    else if n = 0x10 then some (s.mapSelf fun a => { a with t1 := a.t1.write g 0 v })
    else if n = 0x20 then some (s.mapSelf fun a => { a with t2 := a.t2.write g 0 v })
    else some (s.putTvec (n - 0x41) v)
  else if n < 0x20 then some (s.mapSelf fun a => { a with t1 := a.t1.write g (n - 0x10) v })
  else if n < 0x30 then some (s.mapSelf fun a => { a with t2 := a.t2.write g (n - 0x20) v })
  else s.putPartReg n v.toNat

/-- The register that an operand names (R324). -/
def State.sysNumber (s : State) (a : BitVec 5) : Option SysReg :=
  if 4096 ≤ (s.sreg a).toNat then none else sysReg (s.sreg a).toNat

/-- The frame of RDSR and WRSR: the privilege check of the register named stands at step 1 of R178 (R305). -/
def State.sysFrame (s : State) (w : Word) (a : BitVec 5) (write : Bool) (k : State → SysReg → Exit) : Step :=
  let m := s.self.cur.lanes
  let r := s.sysNumber a
  let denied := m != 0 && (match r with | none => false | some x => s.sysDenied x write)
  s.frame w m [s.issueCheck (fsNeeds 0 anyTl) denied w m] [] fun s1 _ =>
    if m = 0 then .done s1
    else
      match r with
      | none => s1.stop .illegalOperand (operandVal w 1)
      | some x => k s1 x

/-- RDSR (R324). -/
def execRdsr (d a : BitVec 5) (s : State) : Step :=
  s.sysFrame (encode (.rdsr d a)) a false fun s1 _ =>
    .done (s1.putD d (BitVec.ofNat 64 (s1.readSys (s1.sreg a).toNat)))

/-- WRSR (R305, R324). -/
def execWrsr (a b : BitVec 5) (s : State) : Step :=
  let w := encode (.wrsr a b)
  s.sysFrame w a true fun s1 r =>
    let v := s1.sreg b
    if r.width = 32 ∧ 2 ^ 32 ≤ v.toNat then s1.stop .illegalOperand (operandVal w 2)
    else if r.write.isNone then .done s1
    else
      match s1.writeSys (s1.sreg a).toNat v with
      | none => s1.stop .illegalOperand (operandVal w 2)
      | some s2 => .done s2

/-! ### Targets (R320) -/

/-- What a target word names: a live context with a logical cluster, or a stale one. -/
inductive Target where
  | live (c : Context) (l : Nat)
  | stale

/-- A target word checked: its fields and the issuer's reach, then staleness (R320). `ll` says that the instruction takes
a logical cluster, `all` that 0xFFFF names every cluster. -/
def State.target (s : State) (v : DWord) (w : Word) (field : Nat) (ll all : Bool) : Except Trap Target :=
  let n := v.toNat
  let bad : Except Trap Target := .error (Trap.at .illegalOperand (operandVal w field) s.self.cur.lanes)
  let self := n / 2 ^ 36 % 2 == 1
  let l := n / 2 ^ 20 % 65536
  if 2 ^ 37 ≤ n ∨ (!ll && l != 0) ∨ (self && n % 2 ^ 20 != 0) then bad
  else
    match if self then some s.ctx else s.ctxAt (CtxId.ofNat n) with
    | none => .ok .stale
    | some c =>
      if (s.ctx.pl < 2 ∧ c.part ≠ s.ctx.part) ∨ (ll && decide (c.nlc ≤ l) && !(all && l == 0xFFFF)) then bad
      else .ok (.live c l)

/-- What follows a checked target; a stale one gives D status 1 (R320, R321). -/
def Exit.withTarget (s : State) (d : BitVec 5) (r : Except Trap Target) (k : Context → Nat → Exit) : Exit :=
  match r with
  | .error t => .trap s t
  | .ok .stale => .done (s.putD d 1)
  | .ok (.live c l) => k c l

/-- A run of another unit of the context holds stores whose pages are translated already: TLBI and XRINV wait for it
(R325, R326). -/
def State.runsOpen (s : State) (c : CtxId) : Bool :=
  (s.crew.agents.any fun a => s.crew.key.ctx == c && (a.run.map fun r => !r.stores.isEmpty).getD false) ||
  s.crews.any fun k => k.key.ctx == c && k.agents.any fun a => (a.run.map fun r => !r.stores.isEmpty).getD false

/-! ### TLBI, XRINV (R325, R326) -/

/-- The TLB entries that a removal leaves: of the whole context it spares global ones (R335). -/
def keptTlb (c : CtxId) (va : Option Nat) (t : TlbEntry) : Bool :=
  t.ctx != c || (match va with
    | none => t.leaf.getLsbD 5
    | some v => t.va != v - v % t.size)

/-- A release of a system instruction: it waits for the unit's replay queue (R142, R322). -/
def State.fsRelease (s : State) (w : Word) (k : State → Exit) : Exit :=
  if s.self.replay.isEmpty then k (s.publish 6) else .wait s (.sys (s.self.held w))

/-- TLBI from its checked target on. -/
def State.tlbi (s : State) (w : Word) (d : BitVec 5) (c : Context) (va : Option Nat) : Exit :=
  s.fsRelease w fun s1 =>
    if s1.runsOpen c.id then .wait s1 (.sys (s1.self.held w))
    else .done ({ s1 with tlb := s1.tlb.filter (keptTlb c.id va) }.putD d 0)

/-- TLBI.page (R325). -/
def execTlbiPage (d a b : BitVec 5) (s : State) : Step :=
  let w := encode (.tlbiPage d a b)
  s.fx w (fsNeeds 1 anyTl) [] fun s1 =>
    Exit.withTarget s1 d (s1.target (s1.sreg b) w 2 false false) fun c _ =>
      let va := (s1.sreg a).toNat
      if 2 ^ 56 ≤ va then s1.stop .illegalOperand (operandVal w 1) else s1.tlbi w d c (some va)

/-- TLBI.ctx (R325). -/
def execTlbiCtx (d b : BitVec 5) (s : State) : Step :=
  let w := encode (.tlbiCtx d b)
  s.fx w (fsNeeds 1 anyTl) [] fun s1 =>
    Exit.withTarget s1 d (s1.target (s1.sreg b) w 2 false false) fun c _ => s1.tlbi w d c none

/-- A translation register after XRINV of a range (R326). -/
def TransReg.xrinv (a n : Nat) (t : TransReg) : TransReg :=
  if t.valid && decide (t.base < a + n) && decide (a < t.base + t.limit) then { t with limit := 0 } else t

/-- Registers after XRINV of a range. -/
def Regs.xrinv (a n : Nat) (r : Regs) : Regs := { r with a := r.a.map (TransReg.xrinv a n) }

/-- A unit after XRINV of a range; what a run would restore is cleared with it. -/
def Agent.xrinv (a n : Nat) (u : Agent) : Agent :=
  { u with
    regs := u.regs.xrinv a n
    run := u.run.map fun r => { r with saved := r.saved.xrinv a n } }

/-- XRINV: D is the target (R326). -/
def execXrinv (d a b : BitVec 5) (s : State) : Step :=
  let w := encode (.xrinv d a b)
  s.fx w (fsNeeds 1 anyTl) [] fun s1 =>
    Exit.withTarget s1 0 (s1.target (s1.sreg d) w 0 false false) fun c _ =>
      let va := (s1.sreg a).toNat
      let n := (s1.sreg b).toNat
      if 2 ^ 56 ≤ va then s1.stop .illegalOperand (operandVal w 1)
      else if n = 0 ∨ 2 ^ 56 - va < n then s1.stop .illegalOperand (operandVal w 2)
      else if s1.runsOpen c.id then .wait s1 (.sys (s1.self.held w))
      else
        let s2 := s1.mapUnits fun k u => if k.ctx = c.id then u.xrinv va n else u
        .done (s2.mapCtxAt c.id fun x => { x with xr := (x.xr + 1) % 2 ^ 32 })

/-! ### ENGRST (R330) -/

/-- A unit stopped and retired at once: no path is left, no store is pending. -/
def Agent.stopNow (a : Agent) : Agent :=
  { a with
    cur := { Path.empty with slot := a.cur.slot }
    splits := []
    park := []
    run := none
    replay := []
    imprecise := none
    version := Version.none }

/-- Every operation of a crew's Marver discarded, its barriers poisoned, its state that of creation (R330 bit 1). -/
def State.resetMarver (s : State) (k : CrewKey) : State :=
  match s.crewAt k with
  | none => s
  | some c =>
    let s1 := c.marver.queue.foldl (fun t o => match o.barrier with
      | none => t
      | some r => t.poisonBar k r) s
    s1.mapMarver k fun m => { Marver.initial with nextId := m.nextId }

/-- Every copy of a crew failed with STATUS 4 (R330 bit 2). -/
def State.failCopies (s : State) (k : CrewKey) : State :=
  match s.crewAt k with
  | none => s
  | some c => c.copies.foldl (fun t y => t.endCopy k y 4) s

/-- The Gaffer threads of a crew retired (R330 bit 0). -/
def State.stopGaffers (s : State) (k : CrewKey) : State :=
  s.mapUnits fun q a => if q = k && a.unit.gaffer then a.stopNow else a

/-- A path whose RENQ waits, not yet injected, goes on without it (R330 bit 4; log entry 55). -/
def Path.dropSlot (p : Path) : Path :=
  match p.wait with
  | .slot h => p.pass h
  | _ => p

/-- The REDP, OSEND and RENQ work of a crew that is not yet injected dropped (R330 bit 4). -/
def State.dropUninjected (s : State) (k : CrewKey) : State :=
  { s with
    redps := s.redps.filter fun f => f.crew != k
    work := s.work.filter fun w => w.unit.crew != k }.mapUnits fun q a => if q = k then a.mapPaths Path.dropSlot else a

/-- The work of one crew removed from the engines of a mask (R330). A waiting QPOP or QPUSH holds no entry and only issues
again. -/
def State.resetCrew (s : State) (mask : Nat) (k : CrewKey) : State :=
  let s1 := if mask.testBit 0 then s.stopGaffers k else s
  let s2 := if mask.testBit 1 then s1.resetMarver k else s1
  let s3 := if mask.testBit 2 then s2.failCopies k else s2
  let s4 := if mask.testBit 3 then s3.mapCrewAt k fun c => { c with fetch := none } else s3
  if mask.testBit 4 then s4.dropUninjected k else s4

/-- The crews of a context on a logical cluster, or all of them. -/
def State.crewsOn (s : State) (c : CtxId) (l : Option Nat) : List Crew :=
  s.allCrews.filter fun x => x.key.ctx == c && (match l with | none => true | some n => x.lcl == n)

/-- ENGRST (R330). -/
def execEngrst (d a b : BitVec 5) (s : State) : Step :=
  let w := encode (.engrst d a b)
  s.fx w (fsNeeds 2 anyTl) [] fun s1 =>
    Exit.withTarget s1 d (s1.target (s1.sreg a) w 1 true true) fun c l =>
      let mask := (s1.sreg b).toNat
      if mask = 0 ∨ 32 ≤ mask then s1.stop .illegalOperand (operandVal w 2)
      else
        let ks := (s1.crewsOn c.id (if l = 0xFFFF then none else some l)).map (·.key)
        if l ≠ 0xFFFF ∧ ks.isEmpty then .done (s1.putD d 2)
        else .done ((ks.foldl (fun t k => t.resetCrew mask k) s1).putD d 0)

/-! ### CFENCE (R331) -/

/-- The first unpopulated address of a physical range (R110 to R113). -/
def firstHole (a n : Nat) : Option Nat :=
  if (canonical a).isNone then some a
  else
    let stop := if a < 2 ^ 51 then a / 2 ^ 36 * 2 ^ 36 + stackBytes else 2 ^ 51 + 8 * stackBytes
    if a + n ≤ stop then none else some stop

/-- The address of a canonical byte in the interleaved window (R111). -/
def windowAddr (ca : Nat) : Nat :=
  let row := ca % 2 ^ 36 / 2 ^ 12
  let x := (ca / 2 ^ 36) ^^^ (row % 8) ^^^ (row / 8 % 8)
  2 ^ 51 + (row * 8 + x) * 2 ^ 12 + ca % 2 ^ 12

/-- A canonical byte lies in a physical range of either window (R112). -/
def inRange (a n ca : Nat) : Bool :=
  (decide (a ≤ ca) && decide (ca < a + n)) || (decide (a ≤ windowAddr ca) && decide (windowAddr ca < a + n))

/-- The dirty bytes of a range written to DRAM: no copy of them is dirty afterwards. -/
def State.cleanRange (s : State) (a n : Nat) : State :=
  let l := s.dirty.filter fun c => inRange a n c.1
  { s with
    mem := l.foldl (fun m c => match c.2 with | none => m | some b => m.write c.1 b) s.mem
    dirty := s.dirty.filter fun c => !inRange a n c.1
    unpushed := s.unpushed.filter fun u => !inRange a n u.ca }

/-- The cached copies of a range dropped without write-back; the poison of its sectors is cleared (R331, R380). -/
def State.dropRange (s : State) (a n : Nat) : State :=
  { s with
    dirty := s.dirty.filter fun c => !inRange a n c.1
    unpushed := s.unpushed.filter fun u => !inRange a n u.ca
    pois := s.pois.filter fun k => !inRange a n (256 * k) }

/-- CFENCE with its effect on the range (R331). -/
def State.cfence (s : State) (w : Word) (pl : Nat) (a b : BitVec 5) (f : State → Nat → Nat → State) : Step :=
  s.fx w (fsNeeds pl anyTl) [] fun s1 =>
    let x := (s1.sreg a).toNat
    let n := (s1.sreg b).toNat
    if n < 256 ∨ 2 ^ 40 < n then s1.stop .illegalOperand (operandVal w 2)
    else if x % 256 ≠ 0 ∨ n % 256 ≠ 0 then s1.stop .misaligned 0
    else
      match firstHole x n with
      | some h => s1.stop .physErr h
      | none => s1.fsRelease w fun s2 => .done (f s2 x n)

/-- CFENCE.wb (R331). -/
def execCfenceWb (a b : BitVec 5) (s : State) : Step := s.cfence (encode (.cfenceWb a b)) 1 a b State.cleanRange
/-- CFENCE.inv (R331). -/
def execCfenceInv (a b : BitVec 5) (s : State) : Step := s.cfence (encode (.cfenceInv a b)) 1 a b State.cleanRange
/-- CFENCE.drop (R331). -/
def execCfenceDrop (a b : BitVec 5) (s : State) : Step := s.cfence (encode (.cfenceDrop a b)) 2 a b State.dropRange

/-! ### IDLE (R332) -/

/-- The bits of the events present of an IDLE: time in bit 0, a queue entry in bit 1. -/
def State.idleBits (s : State) (deadline queue : Option Nat) : Nat :=
  (match deadline with | none => 0 | some t => if t ≤ s.now then 1 else 0) +
  (match queue with
    | none => 0
    | some q => if ((s.queueAt q).map fun t => !t.entries.isEmpty).getD false then 2 else 0)

/-- The D field of a held IDLE. -/
def idleDest (w : Word) : BitVec 5 :=
  match decode w with
  | .ok (.idle d _ _ _ _) => d
  | _ => 0

/-- IDLE (R332). -/
def execIdle (d a b : BitVec 5) (q t : BitVec 1) (s : State) : Step :=
  let w := encode (.idle d a b q t)
  s.fx w (fsNeeds 1 fun tl => tl == 0) [operandIf (q == 0 && t == 0) w 5 s.self.cur.lanes] fun s1 =>
    let v := (s1.sreg b).toNat
    if q = 1 ∧ (4096 ≤ v ∨ (s1.ownedQueue s1.ctx.id v).isNone) then s1.stop .illegalOperand (operandVal w 2)
    else
      let dl := if t = 1 then some (s1.sreg a).toNat else none
      let qu := if q = 1 then some v else none
      let bits := s1.idleBits dl qu
      if bits ≠ 0 then .done (s1.putD d (BitVec.ofNat 64 bits))
      else .wait s1 (.idle (s1.self.held w) dl qu)

/-- IDLE_WAKE: an enabled event is present (R332). -/
def execIdleWake (u : AgentKey) (slot : Nat) (s : State) : Step :=
  match s.focus u slot with
  | none => s.absent
  | some s1 =>
    match s1.self.cur.wait with
    | .idle h dl q =>
      let bits := s1.idleBits dl q
      if bits = 0 ∨ !s1.mayEnd then s.absent
      else .next (s1.finishHeld h fun x => x.putD (idleDest h.word) (BitVec.ofNat 64 bits))
    | _ => s.absent

end Sys2Proof.Machine
end

