-- ==== Sys2Proof/Machine/Save.lean ====
section
/-!
DEFINITION. Saving and restoring crews (19 R370 to R372, R377 to R379, 17 R349): CTXSV, CTXLD (16 R328, R329), pre-emption
requests, quanta (18 R357), and the drain of the Marver (03 R98, R99).
-/
namespace Sys2Proof.Machine

open Sys2Proof

/-! ### Step 1 of a save (R370) -/

/-- The units of a crew may stop: no answer to a FETCHW or a RENQ is outstanding, and no system instruction waits (R322,
R370). -/
def Crew.quiet (c : Crew) : Bool :=
  c.fetch.isNone && c.agents.all fun a => a.paths.all fun p => p.mask == 0 || (match p.wait with
    | .renq _ _ => false
    | .sys _ => false
    | _ => true)

/-- A crew may stop: its units may, and every REDP that it has issued has read its words (R289, R370 step 2). -/
def State.quiet (s : State) (c : Crew) : Bool := c.quiet && s.redps.all fun f => f.crew != c.key

/-- A path that stops: a wait whose instruction issues again is abandoned, an IDLE completes, and so does an instruction whose
outcome has come; one between a prefix word and its instruction stands at the first of them (R173). Every other wait stands (R322,
R370 step 1). -/
def Path.halted (p : Path) : Path :=
  match p.wait with
  | .none => p.restart
  | .waitv _ _ => { p with wait := .poll }
  | .twait _ _ => { p with wait := .poll }
  | .redw _ _ _ => { p with wait := .poll }
  | .mfence _ _ => { p with wait := .poll }
  | .cbar _ => { p with wait := .poll }
  | .slot _ => { p with wait := .poll }
  | .bind _ _ => { p with wait := .poll }
  | .probe _ _ => { p with wait := .poll }
  | .idle h _ _ => p.pass h
  | .result h _ _ => p.pass h
  | _ => p

/-- What the paths of a unit that stops write: D = 4 of an IDLE (R332), and an outcome that has come. -/
def Agent.endings (a : Agent) : List (BitVec 5 × DWord) :=
  a.paths.filterMap fun p => match p.wait with
    | .idle h _ _ => some (idleDest h.word, 4)
    | .result _ d v => some (d, v)
    | _ => none

/-- An s register of a unit written; 0 discards (R318). -/
def Agent.putD (a : Agent) (f : BitVec 5) (v : DWord) : Agent :=
  if f = 0 then a else { a with regs := a.regs.putS f.toNat v }

/-- A unit stopped: a run in flight rolls back, and its waits end as R370 step 1 says (R34). -/
def Agent.halted (a : Agent) : Agent :=
  let b := a.rollback
  (b.endings.foldl (fun x e => x.putD e.1 e.2) b).mapPaths Path.halted

/-- A stopped unit as it is saved: its tokens are clear (R370 step 2). -/
def Agent.stopped (a : Agent) : Agent := { a.halted with tokens := 0 }

/-- The probes of a crew leave the hub (R396). -/
def State.withdrawProbes (s : State) (k : CrewKey) : State :=
  let keep (p : OrdPacket) : Bool := match p.body with
    | .probe u _ _ => u.crew != k
    | _ => true
  { s with
    hub := { s.hub with held := s.hub.held.filter keep }
    dies := s.dies.map fun d => { d with unpassed := d.unpassed.filter keep } }

/-- A crew stopped: every unit, with its probes and its arrivals at CBAR (R370 step 1). -/
def State.halt (s : State) (k : CrewKey) : State :=
  ((s.withdrawProbes k).mapUnits fun q a => if q = k then a.halted else a).mapCrewAt k fun c => { c with cbar := [] }

/-- The operations of a crew's Marver that have taken their last step complete, arrival included (R99). -/
def State.finishOps (s : State) (k : CrewKey) : State :=
  match s.crewAt k with
  | none => s
  | some c =>
    (c.marver.queue.filter fun o => o.state == .running && decide (o.total ≤ o.step)).foldl (fun t o =>
      match execMarverOpComplete k o.id t with
      | .next u => u
      | _ => t) s

/-- The running operations of a Marver at their drain points: MST records the compute operation's step (R78, R99). -/
def Marver.drained (m : Marver) : Marver :=
  let run := m.queue.filter fun o => o.state == .running
  let mst := match run.find? MOp.compute with
    | none => m.mst
    | some o => if m.stopped then m.mst else mstStep m.mst o false
  { m with
    mst := mst
    queue := m.queue.map fun o => if o.state = .running then { o with state := .queued } else o }

/-! ### Merge entries at a save (R349) -/

/-- The merge keys that anything of the part waits on. -/
def State.allKeys (s : State) : List MergeKey := s.allCrews.flatMap Crew.keys

/-- A die's entries that are not in `ks` or on which something still waits. -/
def Die.keepKeys (ks left : List MergeKey) (d : Die) : Die :=
  { d with merge := d.merge.filter fun e => left.contains e.key || !ks.contains e.key }

/-- The entries that a crew that has gone alone waited on are freed (R349). -/
def State.freeKeys (s : State) (ks : List MergeKey) : State := { s with dies := s.dies.map (Die.keepKeys ks s.allKeys) }

/-! ### The save (R370 to R373) -/

/-- The pages of merge keys with their class. -/
def keyPages (ks : List MergeKey) : List (Nat × Bool) := ks.map fun k => (k.page, k.write)

/-- A path as a waiter on pages: at its fetch, or at its instruction. -/
def Path.waiter (u : UnitKey) (p : Path) : Waiter :=
  match p.wait with
  | .fetch _ => .fetch u p.mask.lowest
  | _ => .path u p.mask.lowest

/-- What of a crew waits on which pages (R349). -/
def Crew.waiters (c : Crew) : List (Waiter × List (Nat × Bool)) :=
  (c.agents.flatMap fun a =>
    ((a.paths.filter fun p => p.mask != 0).map fun p => (p.waiter a.unit, keyPages p.wait.keys)) ++
    ((a.replay.zip (List.range a.replay.length)).map fun e =>
      (Waiter.store a.unit e.2 e.1.shape.src, keyPages e.1.keys)) ++
    a.streams.map fun x => (Waiter.stream a.unit x.q x.entry x.va, keyPages x.keys)) ++
  (c.copies.map fun y => (Waiter.copy y.id, keyPages y.keys)) ++
  (c.marver.drained.ordered.zip (List.range c.marver.queue.length)).map fun e => (Waiter.op e.2, keyPages e.1.keys)

/-- The virtual addresses of the bytes that the open versions of a crew hold, by unit (R147). -/
def Crew.written (c : Crew) : List (UnitKey × Nat) :=
  c.agents.flatMap fun a => a.version.bytes.filterMap fun b =>
    (a.version.sectors.find? fun x => x.1 == b.1 / 256).map fun x => (a.unit, x.2 + b.1 % 256)

/-- The record of a crew's save. -/
def Crew.savedAs (c : Crew) (area : Nat) (rebind : Bool) : SavedCrew where
  key := c.key
  area := area
  rebind := rebind
  dseq := c.dseq
  waits := c.waiters.filter fun w => !w.2.isEmpty
  written := c.written

/-- A crew written to an area and taken off the part: its cluster and its bind slot are free, and its save is recorded
with its context. The granules of an area are bounded by its largest size (R377). -/
def State.saveCrew (s : State) (k : CrewKey) (area : Nat) (rebind : Bool) : State :=
  let s1 := (s.withdrawProbes k).finishOps k
  let s2 := s1.mapUnits fun q a => if q = k then a.stopped else a
  match s2.allCrews.find? (fun c => c.key == k), s2.ctxAt k.ctx with
  | some c, some x =>
    let bs := s2.areaBytes { c with marver := c.marver.drained, cbar := [] } x.xr
    let s3 := State.putArea 65536 s2 area bs
    let s4 := ((s3.dropCrew k).freeKeys c.keys).unbind k
    (s4.exposeCrew k).mapCtxAt k.ctx fun y => { y with saved := c.savedAs area rebind :: y.saved.filter fun e => e.key != k }
  | _, _ => s2

/-- The bytes of the extent that a save of a crew is given (R377). -/
def Crew.extent (c : Crew) : Nat := 8 * 2 ^ 20 + 1056 * 1024 * (c.groups * c.gangs.length + c.gaffers)

/-- The checks on a save area (R328): its alignment, then the first address of its extent that nothing populates. -/
def State.areaCheck (s : State) (b n : Nat) (k : State → Exit) : Exit :=
  if b % 65536 ≠ 0 then s.stop .misaligned 0
  else
    match firstHole b n with
    | some h => s.stop .physErr h
    | none => k s

/-- A crew that has stopped may be saved now: steps 2 to 4 of R370 are done. -/
def State.ready (s : State) (c : Crew) : Bool := s.quiet c && ({ c with area := some (0, false) }).runnable.isNone

/-- The crew that a save names among those of a context on a logical cluster: the one whose save is under way in the area, else
any of them where several are resident (log entry 3). -/
def State.crewOn (s : State) (c : CtxId) (l area : Nat) : Option Crew :=
  let ks := s.crewsOn c (some l)
  match ks.find? fun k => k.area == some (area, false) with
  | some k => some k
  | none => ks[Config.choice s.tick % max 1 ks.length]?

/-- A save begun: the crew stops, and its area is set (R370). -/
def State.beginSave (s : State) (k : CrewKey) (area : Nat) (rebind : Bool) : State :=
  (s.halt k).mapCrewAt k fun c => { c with area := some (area, rebind) }

/-- A save waits for the crew's engines, or for another save of it (R328, R370; log entry 73). -/
def State.saveWaits (s : State) (w : Word) (k : Crew) (area : Nat) : Exit :=
  .wait (if k.area.isSome then s else s.beginSave k.key area false) (.sys (s.self.held w))

/-- CTXSV (R328): the crew stops, and is saved once it can be. -/
def execCtxsv (d a b : BitVec 5) (s : State) : Step :=
  let w := encode (.ctxsv d a b)
  s.fx w (fsNeeds 2 anyTl) [] fun s1 =>
    Exit.withTarget s1 d (s1.target (s1.sreg a) w 1 true false) fun c l =>
      let area := (s1.sreg b).toNat
      match s1.crewOn c.id l area with
      | none => s1.areaCheck area (8 * 2 ^ 20) fun s2 => .done (s2.putD d 2)
      | some k =>
        if k.key = s1.crew.key then s1.stop .illegalOperand (operandVal w 1)
        else
        s1.areaCheck area k.extent fun s2 =>
          if !s2.ready k || (k.area.map fun a => a != (area, false)).getD false then s2.saveWaits w k area
          else .done ((s2.saveCrew k.key area false).putD d 0)

/-! ### Restore (R329, R378) -/

/-- The SRC bit of a waiter (R345). -/
def Waiter.src : Waiter → Nat
  | .path _ _ => srcGroup
  | .fetch _ _ => srcGroup
  | .store _ _ n => n
  | .stream _ _ _ _ => srcStream
  | .copy _ => srcCopy
  | .op _ => srcMarver

/-- What of a saved crew waited on a page. -/
def SavedCrew.waitersOf (r : SavedCrew) (e : Nat × Bool) : List Waiter :=
  (r.waits.filter fun w => w.2.contains e).map (·.1)

/-- The SRC bits of what waited on a page (R345); a group's where no record of the save is there. -/
def srcOf (r : Option SavedCrew) (e : Nat × Bool) : Nat :=
  match r with
  | none => srcGroup
  | some x => (x.waitersOf e).foldl (fun n w => n ||| w.src) 0

/-- The access with which a listed page is walked: a write or a read as its class says, a fetch where only fetches waited on it
(R345, R349). -/
def kindOf (r : Option SavedCrew) (e : Nat × Bool) : AccKind :=
  if e.2 then .write
  else
    let ws := (r.map fun x => x.waitersOf e).getD []
    if ws.isEmpty then .read
    else if ws.all fun w => match w with
      | .fetch _ _ => true
      | _ => false then .fetch
    else .read

/-- The pages of a fault list walked: those that translate fill the TLB; the others open entries, with the keys given (R349). -/
def State.walkFaultList (s : State) (die : Nat) (c : Context) (r : Option SavedCrew) (l : List (Nat × Bool)) :
    State × List MergeKey :=
  l.foldl (fun t e =>
    let k := kindOf r e
    let x := t.1.translate c k e.1
    let join : State × List MergeKey :=
      let j := x.1.joinMerge die c.id e.1 k (missKind k x.2) (srcOf r e)
      (j.1, t.2 ++ j.2)
    match x.2 with
    | .absent => join
    | .migrating => join
    | _ => (x.1, t.2)) (s, [])

/-- The entries that a restored waiter waits on: those of its pages, or all where no record of the save is there (R349). -/
def restoredKeys (r : Option SavedCrew) (opened : List MergeKey) (w : Waiter) : List MergeKey :=
  match r with
  | none => opened
  | some x => opened.filter fun k => x.waits.any fun e => e.1 == w && e.2.contains (k.page, k.write)

/-- A restored path waits on its entries, or is ready where none is open (R378 step 6). -/
def Path.restored (ks : List MergeKey) (p : Path) : Path :=
  match p.wait with
  | .parked _ => { p with wait := if ks.isEmpty then .none else .parked ks }
  | .fetch _ => { p with wait := if ks.isEmpty then .none else .fetch ks }
  | _ => p

/-- A restored parked copy waits on its entries, or resumes (R126, R349). -/
def Copy.restored (ks : List MergeKey) (c : Copy) : Copy :=
  if c.status = 2 then { c with keys := ks, status := if ks.isEmpty then 1 else 2 } else c

/-- The queued stores of a restored unit on the entries of their lanes' pages (R142, R349). -/
def Agent.restoredStores (opened : List MergeKey) (a : Agent) : Agent :=
  { a with replay := a.replay.map fun r => { r with
      keys := opened.filter fun k => k.write && r.lanes.any fun l => k.page == l.va / 65536 * 65536 } }

/-- The streams of a restored unit that waited on a page whose entry is open again (R342, R349). -/
def Agent.restoredStreams (r : Option SavedCrew) (opened : List MergeKey) (a : Agent) : Agent :=
  { a with streams := ((r.map (·.waits)).getD []).filterMap fun e => match e.1 with
    | .stream u q n va =>
      let ks := restoredKeys r opened e.1
      if u = a.unit ∧ !ks.isEmpty then some ⟨q, n, va, ks⟩ else none
    | _ => none }

/-- The restored waiters of a crew put on the entries that its fault list has opened; a queued store with none there replays
(R349, R371, R378). -/
def State.restoreWaits (s : State) (k : CrewKey) (r : Option SavedCrew) (opened : List MergeKey) : State :=
  let s0 := s.mapUnits fun q a => if q = k then a.restoredStores opened else a
  let us := ((s0.crewAt k).map fun c => (c.agents.map fun a => (⟨k, a.unit⟩ : AgentKey))).getD []
  let s1 := (us.foldl (fun t u => t.replayUnit u) s0).mapUnits fun q a =>
    if q = k then (a.mapPaths fun p => p.restored (restoredKeys r opened (p.waiter a.unit))).restoredStreams r opened else a
  s1.mapCrewAt k fun c => { c with
    copies := c.copies.map fun y => y.restored (restoredKeys r opened (.copy y.id))
    marver := { c.marver with queue := c.marver.queue.map fun o =>
      if r.isNone then o else { o with keys := restoredKeys r opened (.op o.id) } } }

/-- The sectors of a version read back: it holds the bytes that it had written; all bytes of its sectors where no record of the
save is there (R147; log entry 26). -/
def State.restoreVersion (s : State) (c : Context) (u : AgentKey) (r : Option SavedCrew) (l : List (Nat × List Byte)) : State :=
  let own (va : Nat) : Bool := (r.map fun x => x.written.contains (u.unit, va)).getD true
  l.foldl (fun t e =>
    let x := t.translate c .write e.1
    match x.2 with
    | .ok pa _ =>
      match canonical pa with
      | none => x.1
      | some ca => x.1.mapUnit u fun a =>
          let bs := (placed ca e.2).foldl (fun (o : Overlay) b =>
            if own (e.1 + (b.1 - ca)) then o.write b.1 b.2 else o) a.version.bytes
          { a with version := { a.version with bytes := bs, sectors := a.version.sectors ++ [(ca / 256, e.1)] } }
    | _ => x.1) s

/-- A crew restored from the bytes of its area in a context with the values of its descriptor (R308, R378): loaded, its LIMITs
cleared if an XRINV came between, its fault list walked, its queued stores replayed, its waiters on their entries. -/
def State.restoreCrew (s : State) (c : Context) (k : CrewKey) (bs : List Byte) (e : MapEntry) (d : Declared) (slot : Nat) :
    State :=
  let time := (s.dieAt e.socket).ptime
  let crew := crewOf bs k e d c.held (fieldAt bs 0x18 4 != c.xr) time s.tick
  let l := c.launch k.launch
  let r := c.saved.find? fun x => x.key == k
  let crew1 := { crew with
    slot := slot
    prio := (l.map (·.prio)).getD 0
    quantum := (l.map (·.quantum)).getD 0
    dseq := (r.map (·.dseq)).getD ((l.map fun x => k.sheet * x.crews + k.crew).getD 0) }
  let s1 := (s.addCrew crew1).mapCtxAt k.ctx fun y => { y with saved := y.saved.filter fun x => x.key != k }
  let s2 := (versionsOf 132 (sectionOf bs 8)).foldl (fun t v => t.restoreVersion c ⟨k, v.1⟩ r v.2) s1
  let w := s2.walkFaultList e.socket c r (faultListOf (sectionOf bs 7))
  w.1.restoreWaits k r w.2

/-- The crew that the header of an area names, for a context (R373). -/
def areaKey (bs : List Byte) (c : CtxId) : CrewKey := ⟨c, fieldAt bs 8 4, fieldAt bs 0x0C 4, fieldAt bs 0x10 4⟩

/-- The header of the kernel of a crew's launch, read as dispatch reads it at each placement and restore (R420). -/
def State.headerOfCrew (s : State) (c : Context) (k : CrewKey) : State × Option Header :=
  match c.launch k.launch with
  | none => (s, none)
  | some l => s.header c l.kernel

/-- The lowest bit of a mask that another lacks. -/
def lowestMissing (use ack : BitVec 128) : Option Nat := (List.range 128).find? fun i => use.getLsbD i && !ack.getLsbD i

/-- CTXLD from its checked target and area on (R329). A descriptor that R307 refuses names no usable cluster. -/
def State.ctxld (s : State) (d : BitVec 5) (c : Context) (l : Nat) (bs : List Byte) : Exit :=
  let gener := fieldAt bs 0x1D 1
  if fieldAt bs 0 4 ≠ 1 ∨ fieldAt bs 4 4 ≠ c.id.word.toNat ∨ fieldAt bs 0x14 2 ≠ l then .done (s.putD d 3)
  else
    match (if (s.readDescriptor c.id).isNone then none else s.mapEntry c l) with
    | none => .done (s.putD d 4)
    | some e =>
      if e.cores.length < fieldAt bs 0x16 1 then .done (s.putD d 4)
      else if gener ≠ 4 then s.stop .ctxIncompat (0x100 + gener)
      else
        match lowestMissing (BitVec.ofNat 128 (fieldAt bs 0x20 16)) c.feat with
        | some i => s.stop .ctxIncompat i
        | none =>
          let k := areaKey bs c.id
          let h := s.headerOfCrew c k
          if !h.1.fits e (areaShape bs h.2) then .wait h.1 .poll
          else .done (((h.1.restoreCrew c k bs e (declaredOf bs h.2) 16).acquireHorizon 6).putD d 0)

/-- CTXLD (R329; of a descriptor that is refused log entry 71). -/
def execCtxld (d a b : BitVec 5) (s : State) : Step :=
  let w := encode (.ctxld d a b)
  s.fx w (fsNeeds 2 anyTl) [] fun s1 =>
    Exit.withTarget s1 d (s1.target (s1.sreg a) w 1 true false) fun c l =>
      let area := (s1.sreg b).toNat
      s1.areaCheck area 256 fun s2 =>
        let total := s2.physNum (area + 0x38) 8
        s2.areaCheck area (max 1 total) fun s3 =>
          s3.ctxld d (s3.ctxNow c) l (s3.physBytes area total)

/-! ### Requests from outside (R42, R99, R357) -/

/-- A pre-emption request for a crew: its units stop at once, and it is saved, or waits for what step 2 and the Marver's
drain point ask (R99, R370). An area that is not aligned or not populated is no area. -/
def State.preempt (s : State) (k : CrewKey) (area : Nat) : Step :=
  match s.allCrews.find? fun c => c.key == k with
  | none => s.absent
  | some c =>
    if c.area.isSome ∨ area % 65536 ≠ 0 ∨ (firstHole area c.extent).isSome then s.absent
    else if s.ready c then .next (s.saveCrew k area true)
    else .next (s.beginSave k area true)

/-- PREEMPTION_REQUEST (R370). -/
def execPreemptionRequest (k : CrewKey) (area : Nat) (s : State) : Step := s.preempt k area

/-- A slot of equal or higher priority waits for a cluster (R357). -/
def State.slotWaits (s : State) (die cluster prio : Nat) : Bool :=
  (s.dieAt die).slots.any fun e =>
    e.1 / 16 == cluster && recValid e.2 && decide (prio ≤ recPrio e.2) && (s.crewAt (recKey e.2)).isNone

/-- QUANTUM_EXPIRY: the Headstock is told; the standard policy saves the crew when a slot of equal or higher priority
waits, and lets it run on otherwise; it never saves a persistent crew (R357). -/
def execQuantumExpiry (k : CrewKey) (area : Nat) (s : State) : Step :=
  match s.crewAt k with
  | none => s.absent
  | some c =>
    let now := (s.dieAt c.socket).ptime
    if c.quantum = 0 ∨ now < c.since + 16000 * c.quantum then s.absent
    else
      let s1 := (s.mapCrewAt k fun x => { x with since := now }).send (.headstock (.quantum k))
      if c.persist || !s1.slotWaits c.socket c.cluster c.prio then .next s1
      else
        match s1.preempt k area with
        | .next t => .next t
        | _ => .next s1

/-- MARVER_DRAIN_POINT: a running operation has drained its segment, and takes the next one. Under a pre-emption request the
engine goes only to the drain point, and then the save goes on; that of a CTXSV goes on as the CTXSV does (R98, R99, R370). -/
def execMarverDrainPoint (k : CrewKey) (s : State) : Step :=
  match s.allCrews.find? fun c => c.key == k with
  | none => s.absent
  | some c =>
    match c.runnable, c.area with
    | some o, _ => .next (s.opRun k o.id 16)
    | none, some (area, true) => if s.quiet c then .next (s.saveCrew k area true) else s.absent
    | none, _ => s.absent

end Sys2Proof.Machine
end

