-- ==== Sys2Proof/Machine/Removal.lean ====
section
/-!
DEFINITION. The removal of a context (19 R369, R382), by a kill condition, a fatal error or the host's REMOVE.
-/
namespace Sys2Proof.Machine

open Sys2Proof

/-! ### The steps of a removal (R382) -/

/-- KILL set in a context and in its descriptor (R307, R308, R382; log entry 72). -/
def State.setKill (s : State) (c : CtxId) : State :=
  let a := s.ctbase + 64 * c.tag + 4
  (s.putPhys a (leBytes 1 (s.physNum a 1 % 256 ||| 8))).mapCtxAt c fun x => { x with kill := true }

/-- A save of a crew that is in progress completes (R372, R382 step 1). -/
def State.completeSave (s : State) (k : CrewKey) : State :=
  match (s.allCrews.find? fun c => c.key == k).bind (·.area) with
  | none => s
  | some a => s.saveCrew k a.1 a.2

/-- Steps 1 to 5 for one crew: a save in progress completes, its engines are reset, and it leaves the part. -/
def State.removeCrew (s : State) (k : CrewKey) : State :=
  let s1 := s.completeSave k
  if (s1.crewAt k).isNone then s1 else (s1.resetCrew 31 k).dropCrew k

/-- A completion with STATUS 7 for each live launch (R364, R382). -/
def State.failLaunches (s : State) (c : Context) : State := c.launches.foldl (fun t l => t.complete c l 7) s

/-- The crews of a context. -/
def State.crewKeysOf (s : State) (c : CtxId) : List CrewKey := (s.crewsOn c none).map (·.key)

/-- A queue without the RENQ entries that a context holds in it (R382 step 5). -/
def TaskQueue.without (t : TaskQueue) (c : CtxId) : TaskQueue :=
  if t.owner = c then { t with entries := t.entries.filter fun e => e.src.isNone } else t

/-- An injected packet of a context that goes, which is delivered or dropped as it stands: no unit counts it any more. -/
def disownPacket (c : CtxId) (p : OrdPacket) : OrdPacket :=
  if (p.agent.map fun u => u.crew.ctx == c).getD false then { p with agent := none } else p

/-- The hub without the counted work of a context (R382 step 6, R398). -/
def Hub.without (c : CtxId) (h : Hub) : Hub :=
  { h with
    out := h.out.map fun e => (e.1, disownPacket c e.2)
    enq := h.enq.filter fun e => e.1.crew.ctx != c
    waiting := h.waiting.filterMap fun i => match i with
      | .packet p => some (.packet (disownPacket c p))
      | .entry u e => if u.crew.ctx = c then none else some (.entry u e)
    markers := h.markers.filter fun m => m.1.crew.ctx != c }

/-- The second batch of a die takes the place of an empty one whose flush has not started. -/
def Die.promoteSpare (d : Die) : Die :=
  if d.flushing.isEmpty && d.batch.isEmpty then { d with batch := d.spare, batchAt := d.spareAt, spare := [] } else d

/-- A die without the merge entries and unflushed records of a context (R382 step 8); unreported entries of other contexts emit
their records where that makes room (R344). -/
def Die.without (c : CtxId) (d : Die) : Die :=
  (Die.promoteSpare { d with
    merge := d.merge.filter fun e => e.key.ctx != c
    batch := d.batch.filter fun r => r.ctx != c
    flushing := d.flushing.filter fun b => fieldAt b 0x0C 4 != c.word.toNat
    unpassed := d.unpassed.map (disownPacket c)
    spare := d.spare.filter fun r => r.ctx != c }).reportAll

/-- The directory without the references, names and objects of a context; no record is sent (R382 step 9, R429). -/
def Punty.without (p : Punty) (c : CtxId) : Punty :=
  let p1 : Punty := { p with
    names := p.names.filter fun n => n.owner != c
    objs := p.objs.map fun o => o.setOpen c 0 }
  (p1.objs.filter fun o => o.owner == c).foldl Punty.free p1

/-- Steps 5 to 9 for the part's shared units. -/
def State.dropShared (s : State) (c : CtxId) : State :=
  { s with
    queues := s.queues.map fun t => t.without c
    renqs := s.renqs.filter fun f => f.from_.crew.ctx != c
    redps := s.redps.filter fun f => f.crew.ctx != c
    rounds := s.rounds.filter fun r => r.ctx != c
    work := s.work.filter fun w => w.ctx != c
    hub := s.hub.without c
    fences := s.fences.filter fun f => f.unit.crew.ctx != c
    tlb := s.tlb.filter fun t => t.ctx != c
    dies := s.dies.map (Die.without c)
    punty := s.punty.without c }

/-- GEN of a descriptor advanced (R306, R382). -/
def State.advanceGen (s : State) (c : CtxId) : State :=
  s.putPhys (s.ctbase + 64 * c.tag) (leBytes 4 (CtxId.word ⟨c.tag, (c.gen + 1) % 256⟩).toNat)

/-- A context is no longer live. -/
def State.dropCtx (s : State) (c : CtxId) : State :=
  if s.ctx.id = c then { s with ctx := Context.empty } else { s with ctxs := s.ctxs.filter fun x => x.id != c }

/-- A unit of the part waits in a CTXSV. -/
def State.saverLeft (s : State) : Bool :=
  s.allCrews.any fun c => c.agents.any fun a => a.paths.any fun p => match p.wait with
    | .sys h => (match decode h.word with
      | .ok (.ctxsv _ _ _) => true
      | _ => false)
    | _ => false

/-- A save that a CTXSV began goes on without it when its unit has gone (R382 step 1). -/
def Crew.orphan (c : Crew) : Crew := { c with area := c.area.map fun a => (a.1, true) }

/-- The saves that no CTXSV is left to complete go on (R382 step 1; DEDUCED, log entry 73). -/
def State.adoptSaves (s : State) : State :=
  if s.saverLeft then s else { s with crew := s.crew.orphan, crews := s.crews.map Crew.orphan }

/-- The removal of a context, as one step of the part (R382). -/
def State.removeCtx (s : State) (c : CtxId) : State :=
  match s.ctxAt c with
  | none => s
  | some x =>
    let s1 := (s.crewKeysOf c).foldl State.removeCrew (s.setKill c)
    let s2 := (s1.failLaunches x).dropShared c
    (((s2.freeSlotsOf fun k => k.ctx == c).advanceGen c).dropCtx c).adoptSaves

/-- The removals that kill conditions have started (R366, R382). -/
def State.reapKilled (s : State) : State :=
  ((s.allCtxs.filter (·.kill)).map (·.id)).foldl State.removeCtx s

/-! ### Other sources (R369) -/

/-- The kill report of a removal that no trap started (R369). -/
def plainKillReport (c : CtxId) (source : Nat) : List Byte := killReport c 0 0 source 0xFFFF 0xFF 0xFF 0 0

/-- The kill report and the removal of a context; the first condition reports. -/
def State.kill (s : State) (x : Context) (source : Nat) : State :=
  (if x.kill then s else s.send (.kill (plainKillReport x.id source))).removeCtx x.id

/-- FATAL_ERROR: it starts the removal of the context (R369, R381). -/
def execFatalError (c : CtxId) (s : State) : Step :=
  match s.ctxAt c with
  | none => s.absent
  | some x => .next (s.kill x 2)

end Sys2Proof.Machine
end

