-- ==== Sys2Proof/Machine/Sched.lean ====
section
/-!
DEFINITION. Scheduling (18 R354 to R363): bind records, the standard policy, placement, retirement, dispatch traces and the
distributor; and the rotation and merging of paths (01 R24, R25).
-/
namespace Sys2Proof.Machine

open Sys2Proof

/-! ### Launches and their crews -/

/-- Crew number `n` of a launch in sheet and crew order. -/
def Launch.nth (l : Launch) (n : Nat) : Nat × Nat := (n / l.crews, n % l.crews)
/-- The number of a crew of a launch in sheet and crew order: its DSEQ under ordered dispatch (R355). -/
def Launch.index (l : Launch) (k : Nat × Nat) : Nat := k.1 * l.crews + k.2
/-- The name of a crew of a launch. -/
def Launch.key (l : Launch) (c : CtxId) (k : Nat × Nat) : CrewKey := ⟨c, l.num, k.1, k.2⟩
/-- A launch has a crew of this name that has not been withdrawn and has not retired. -/
def Launch.holds (l : Launch) (k : Nat × Nat) : Bool :=
  decide (k.1 < l.sheets) && decide (k.2 < l.crews) && !l.withdrawn.contains k && !l.retired.contains k
/-- The crew of a launch that was placed once, withdrawn or has retired is no longer to be placed for the first time. -/
def Launch.started (l : Launch) (k : Nat × Nat) : Bool :=
  l.placed.contains k || l.withdrawn.contains k || l.retired.contains k

/-- The first crew of a launch in order that is in none of the lists. -/
def Launch.firstOutside (l : Launch) (used : List (Nat × Nat)) : Option (Nat × Nat) :=
  ((List.range (min (l.sheets * l.crews) (used.length + 1))).find? fun n => !used.contains (l.nth n)).map l.nth

/-- The launch of a crew. -/
def State.launchOf (s : State) (k : CrewKey) : Option Launch := (s.ctxAt k.ctx).bind fun c => c.launch k.launch

/-! ### Dispatch traces (R360 to R362) -/

/-- A trace entry (R360). -/
structure TraceEntry where
  kind : Nat
  lcl : Nat
  sheet : Nat
  crew : Nat
  req : Nat
  deriving DecidableEq, Repr

/-- The bytes of an entry (R360). -/
def TraceEntry.bytes (e : TraceEntry) : List Byte :=
  leBytes 1 e.kind ++ leBytes 1 0 ++ leBytes 2 e.lcl ++ leBytes 4 e.sheet ++ leBytes 4 e.crew ++ leBytes 4 e.req

/-- The entry that 16 bytes spell. -/
def traceEntryOf (bs : List Byte) : TraceEntry :=
  ⟨fieldAt bs 0 1, fieldAt bs 2 2, fieldAt bs 4 4, fieldAt bs 8 4, fieldAt bs 12 4⟩

/-- Entry `i` of the trace of a launch; none past its end or where it cannot be read. -/
def State.traceAt (s : State) (c : Context) (l : Launch) (i : Nat) : Option TraceEntry :=
  if l.traceMax ≤ i then none else (s.virtRead c (l.trace + 16 * i) 16).2.map traceEntryOf

/-- One entry appended to the trace of a launch that records one, until TRACEMAX are written (R360). -/
def State.record (s : State) (c : CtxId) (num : Nat) (e : TraceEntry) : State :=
  match s.ctxAt c with
  | none => s
  | some x =>
    match x.launch num with
    | none => s
    | some l =>
      if !l.trec || decide (l.traceMax ≤ l.traced) then s
      else
        let w := s.virtWrite x (l.trace + 16 * l.traced) e.bytes
        if w.2 then w.1.mapLaunch c num fun y => { y with traced := y.traced + 1 } else w.1

/-- One more trace entry carried out. -/
def State.carried (s : State) (c : CtxId) (num : Nat) : State :=
  s.mapLaunch c num fun l => { l with traced := l.traced + 1 }

/-- The trace of a launch from the first entry that has not been carried out. -/
def State.traceRest (s : State) (c : Context) (l : Launch) : List (Nat × TraceEntry) :=
  if !l.trep then []
  else (List.range (l.traceMax - l.traced)).filterMap fun j =>
    (s.traceAt c l (l.traced + j)).map fun e => (l.traced + j, e)

/-! ### Bind records (R354) -/

/-- A record with a reserved bit set (R354). -/
def recReserved (r : List Byte) : Bool :=
  decide (8 ≤ fieldAt r 0x12 1) || decide (4 ≤ fieldAt r 0x13 1) || decide (2 ^ 20 ≤ fieldAt r 0x0C 4)

/-- A valid record is rejected (R354): a reserved bit, a context that is not live, an LCLUSTER whose entry, in the core map that
the descriptor names now, does not name the cluster; a crew that no live launch holds is rejected with them. -/
def State.recRejected (s : State) (die cluster : Nat) (r : List Byte) : Bool :=
  recReserved r ||
  (match (s.ctxAt (recKey r).ctx).map s.ctxNow with
    | none => true
    | some c =>
      (match s.mapEntry c (recLcl r) with
        | none => true
        | some e => e.socket != die || e.cluster != cluster) ||
      (match c.launch (recKey r).launch with
        | none => true
        | some l => !l.holds ((recKey r).sheet, (recKey r).crew)))

/-- The bind record of a crew (R354). -/
def bindRecord (k : CrewKey) (lcl prio : Nat) (persist : Bool) (quantum dseq : Nat) : List Byte :=
  leBytes 4 k.launch ++ leBytes 4 k.sheet ++ leBytes 4 k.crew ++ leBytes 4 k.ctx.word.toNat ++ leBytes 2 lcl ++
  leBytes 1 prio ++ leBytes 1 (1 + 2 * persist.toNat) ++ leBytes 4 quantum ++ leBytes 8 dseq

/-- A binding counted in its launch, recorded in its trace, or carried out from it (R360, R361). -/
def State.countBind (s : State) (r : List Byte) : State :=
  let k := recKey r
  let key := (k.sheet, k.crew)
  match s.ctxAt k.ctx with
  | none => s
  | some c =>
    match c.launch k.launch with
    | none => s
    | some l =>
      if l.bound.contains key then s
      else
        let s1 := s.mapLaunch k.ctx k.launch fun y => { y with bound := key :: y.bound }
        let s2 := s1.record k.ctx k.launch ⟨0, recLcl r, k.sheet, k.crew, 0⟩
        match (if l.trep then s2.traceAt c l l.traced else none) with
        | some e => if e.kind = 0 ∧ (e.sheet, e.crew) = key then s2.carried k.ctx k.launch else s2
        | none => s2

/-- A slot's record rejected: V cleared, the bit of SLOTREJ set, the Headstock told (R317, R354). -/
def State.rejectSlot (s : State) (die cluster slot : Nat) (r : List Byte) : State :=
  ((s.putSlot die cluster slot (recClear r)).mapDie die fun d =>
    { d with rejected := if d.rejected.contains (cluster, slot) then d.rejected else (cluster, slot) :: d.rejected }).send
    (.headstock (.rejected die cluster slot))

/-- A record in a slot. -/
def State.bindSlot (s : State) (die cluster slot : Nat) (r : List Byte) : State :=
  if !recValid r then s.putSlot die cluster slot r
  else if s.recRejected die cluster r then s.rejectSlot die cluster slot r
  else (s.putSlot die cluster slot r).countBind r

/-- BIND_RECORD_WRITE (R354). -/
def execBindRecordWrite (die cluster slot : Nat) (record : List Byte) (s : State) : Step :=
  if 8 ≤ die ∨ 12 ≤ cluster ∨ 16 ≤ slot ∨ record.length ≠ 32 then s.absent
  else .next (s.bindSlot die cluster slot record)

/-! ### The standard policy (R355 to R357, R361) -/

/-- The valid slots of a cluster: slot index and record. -/
def State.validSlots (s : State) (die cluster : Nat) : List (Nat × List Byte) :=
  (List.range 16).filterMap fun i =>
    match s.slotAt die cluster i with
    | some r => if recValid r then some (i, r) else none
    | none => none

/-- The lowest slot of a cluster that holds no valid record. -/
def State.freeSlotOn (s : State) (die cluster : Nat) : Option Nat :=
  (List.range 16).find? fun i => !((s.validSlots die cluster).map (·.1)).contains i

/-- The slots of a die whose crews are not resident. -/
def State.waitingOn (s : State) (die : Nat) : Nat :=
  ((List.range 12).map fun c => ((s.validSlots die c).filter fun e => (s.crewAt (recKey e.2)).isNone).length).sum

/-- Where a crew of a context may be bound on a die: logical cluster, physical cluster, slot. -/
def State.bindPlaces (s : State) (c : Context) (die : Nat) : List (Nat × Nat × Nat) :=
  (List.range c.nlc).filterMap fun l =>
    match s.mapEntry c l with
    | none => none
    | some e => if e.socket = die then (s.freeSlotOn die e.cluster).map fun i => (l, e.cluster, i) else none

/-- The die that the value at argument offset 0 prefers: the one that HOME of its page's leaf names (R356; DEDUCED, log entry
57). -/
def State.preferredDie (s : State) (c : Context) (l : Launch) : Option Nat :=
  if l.argLen = 0 then none
  else
    match (s.virtRead c l.argva 8).2 with
    | none => none
    | some bs =>
      let va := leNat bs
      if 2 ^ 56 ≤ va then none
      else
        match s.walk c va with
        | .leaf e _ _ => (leafDie e).filter fun d => (s.partmap.toArray.getD c.part 0).getLsbD d
        | _ => none

/-- The die with the fewest waiting slots, the lowest socket among equals (R356). -/
def State.emptiest (s : State) (ds : List Nat) : Option Nat :=
  ds.foldl (fun b d => match b with
    | none => some d
    | some x => if s.waitingOn d < s.waitingOn x then some d else some x) none

/-- The place of a crew without a place of its own: the preferred die or the next with a free slot, else the emptiest;
the cluster on it is the firmware's choice (R356; log entry 3). -/
def State.choosePlace (s : State) (c : Context) (l : Launch) : Option (Nat × Nat × Nat × Nat) :=
  let able (d : Nat) : Bool := !(s.bindPlaces c d).isEmpty
  let die := match s.preferredDie c l with
    | some p => ((List.range 8).map fun i => (p + i) % 8).find? able
    | none => s.emptiest ((List.range 8).filter able)
  die.bind fun d =>
    let ps := s.bindPlaces c d
    (ps[Config.choice s.tick % ps.length]?).map fun x => (d, x)

/-- The place of a crew on a given logical cluster. -/
def State.placeOn (s : State) (c : Context) (lcl : Nat) : Option (Nat × Nat × Nat × Nat) :=
  match s.mapEntry c lcl with
  | none => none
  | some e => (s.freeSlotOn e.socket e.cluster).map fun i => (e.socket, lcl, e.cluster, i)

/-- The record of a crew of a launch written at a place. -/
def Launch.bindAt (l : Launch) (c : CtxId) (k : Nat × Nat) (dseq : Nat) (p : Nat × Nat × Nat × Nat) : Instr :=
  .bindRecordWrite p.1 p.2.2.1 p.2.2.2 (bindRecord (l.key c k) p.2.1 l.prio l.persist l.quantum dseq)

/-- The crews of a launch that have neither a record nor an end. -/
def Launch.unbound (l : Launch) : List (Nat × Nat) :=
  ((List.range (l.sheets * l.crews)).map l.nth).filter fun k => !(l.bound ++ l.withdrawn ++ l.retired).contains k

/-- The crews before another in the order of a launch have been placed once: an ordered launch binds no crew earlier (R355). -/
def Launch.mayBind (l : Launch) (k : Nat × Nat) : Bool :=
  l.quantumDisc || (List.range (l.index k)).all fun n => l.started (l.nth n)

/-- The next binding of a launch under the standard policy (R297, R355, R361): the next trace entry of a replayed launch; else
the next crew, or under PIN the first whose logical cluster has a place. An ordered launch waits until every crew before it has
been placed once. -/
def State.nextBind (s : State) (c : Context) (l : Launch) : Option Instr :=
  if l.trep && decide (l.traced < l.traceMax) then
    match s.traceAt c l l.traced with
    | some e =>
      if e.kind = 0 && (l.pin || l.mayBind (e.sheet, e.crew)) then
        (s.placeOn c e.lcl).map (l.bindAt c.id (e.sheet, e.crew) l.traced)
      else none
    | none => none
  else
    let dseq (k : Nat × Nat) : Nat := l.index k + (if l.trep then l.traceMax else 0)
    if l.pin then l.unbound.findSome? fun k => (s.placeOn c k.2).map (l.bindAt c.id k (dseq k))
    else
      match l.firstOutside (l.bound ++ l.withdrawn ++ l.retired) with
      | none => none
      | some k => if l.mayBind k then (s.choosePlace c l).map (l.bindAt c.id k (dseq k)) else none

/-- The bindings of the crews that the policy saved, which return to the slot table with their DSEQ and their logical cluster
(R296, R357). -/
def State.rebinds (s : State) (c : Context) : List Instr :=
  (c.saved.filter (·.rebind)).filterMap fun e =>
    match c.launch e.key.launch with
    | none => none
    | some l =>
      let k := (e.key.sheet, e.key.crew)
      let held := s.dies.toList.any fun d => d.slots.any fun x => recValid x.2 && recKey x.2 == e.key
      if held || (s.crewAt e.key).isSome then none
      else (s.placeOn c (s.physNum (e.area + 0x14) 2)).map (l.bindAt c.id k e.dseq)

/-- The bindings that the standard policy has to make. -/
def State.policyBinds (s : State) : List Instr :=
  (s.allCtxs.map s.ctxNow).flatMap fun c => c.launches.filterMap (s.nextBind c) ++ s.rebinds c

/-! ### Placement (R308, R355) -/

/-- A slot in the order of dispatch, earlier than another: higher PRIO, lower DSEQ, lower index (R355). -/
def slotBefore (a b : Nat × List Byte) : Bool :=
  decide (recPrio b.2 < recPrio a.2) ||
  (recPrio a.2 == recPrio b.2 && (decide (recDseq a.2 < recDseq b.2) ||
    (recDseq a.2 == recDseq b.2 && decide (a.1 ≤ b.1))))

/-- The first slot in the order of dispatch. -/
def firstSlot : List (Nat × List Byte) → Option (Nat × List Byte)
  | [] => none
  | x :: xs =>
    match firstSlot xs with
    | none => some x
    | some y => if slotBefore x y then some x else some y

/-- A crew in its slot has been placed (R355). -/
def State.placedIn (s : State) (k : CrewKey) (die cluster : Nat) : State :=
  (s.mapLaunch k.ctx k.launch fun l =>
    { l with placed := if l.placed.contains (k.sheet, k.crew) then l.placed else (k.sheet, k.crew) :: l.placed }).send
    (.headstock (.placed k die cluster))

/-- A trace entry that is not carried out yet grants a crew to a requester, so that it is not placed for the first time before
(R361). -/
def State.grantLater (s : State) (c : Context) (l : Launch) (k : Nat × Nat) : Bool :=
  (s.traceRest c l).any fun e => e.2.kind == 1 && (e.2.sheet, e.2.crew) == k

/-- A new crew placed from its slot, where it fits (R17, R355). -/
def State.placeNew (s : State) (die cluster slot : Nat) (r : List Byte) (c : Context) (l : Launch) (e : MapEntry) :
    Step :=
  match s.header c l.kernel with
  | (s1, some h) =>
    if !s1.fits e h.shape then s.absent
    else
      let crew := newCrew h c l (recKey r) e (recLcl r) slot (recDseq r) (s1.dieAt die).ptime s1.tick
      .next ((s1.addCrew { crew with
        prio := recPrio r
        persist := (fieldAt r 0x13 1).testBit 1
        quantum := fieldAt r 0x14 4 }).placedIn (recKey r) die cluster)
  | (_, none) => s.absent

/-- A saved crew restored from its slot, where it fits (R357, R378). -/
def State.placeSaved (s : State) (die cluster slot : Nat) (r : List Byte) (c : Context) (area : Nat) (e : MapEntry) :
    Step :=
  let bs := s.physBytes area (s.physNum (area + 0x38) 8)
  let h := s.headerOfCrew c (recKey r)
  if !h.1.fits e (areaShape bs h.2) || fieldAt bs 0x1D 1 != 4 ||
      (lowestMissing (BitVec.ofNat 128 (fieldAt bs 0x20 16)) c.feat).isSome then s.absent
  else .next ((h.1.restoreCrew c (recKey r) bs e (declaredOf bs h.2) slot).placedIn (recKey r) die cluster)

/-- A launch whose context's descriptor is refused fails with STATUS 3 before any crew of it has run (R307, R353). -/
def State.failDescriptor (s : State) (c : Context) (l : Launch) : Step :=
  if !l.placed.isEmpty then s.absent
  else
    let s1 := (s.complete c l 3).freeSlotsOf fun k => k.ctx == c.id && k.launch == l.num
    .next (s1.mapCtxAt c.id fun x => { x with launches := x.launches.filter fun y => y.num != l.num })

/-- CREW_PLACEMENT: the first slot in the order of dispatch whose crew is not resident, where it fits; one that does not
fit holds back every slot after it (R355). A record that has become stale is rejected (R354). The descriptor is read first: what
it says now decides (R307, R308). -/
def execCrewPlacement (die cluster : Nat) (s : State) : Step :=
  match firstSlot ((s.validSlots die cluster).filter fun e => (s.crewAt (recKey e.2)).isNone) with
  | none => s.absent
  | some (slot, r) =>
    if 8 ≤ die ∨ 12 ≤ cluster then s.absent
    else
      let k := recKey r
      let s1 := s.reload k.ctx
      match (s1.ctxAt k.ctx).map s1.ctxNow, s1.launchOf k with
      | some c, some l =>
        if (s.readDescriptor k.ctx).isNone && !recReserved r then s.failDescriptor c l
        else if s.recRejected die cluster r then .next (s.rejectSlot die cluster slot r)
        else
          match s1.mapEntry c (recLcl r) with
          | none => s.absent
          | some e =>
            match c.saved.find? fun x => x.key == k with
            | some x => s1.placeSaved die cluster slot r c x.area e
            | none =>
              if l.started (k.sheet, k.crew) || s1.grantLater c l (k.sheet, k.crew) then s.absent
              else s1.placeNew die cluster slot r c l e
      | _, _ => .next (s.rejectSlot die cluster slot r)

/-! ### Retirement (R18, R358) -/

/-- Every unit of a crew has retired and has no queued store; its copies have ended and its REDPs have read their words
(R18, R298, R358). -/
def State.crewDone (s : State) (c : Crew) : Bool :=
  c.agents.all (fun a => a.gone && a.replay.isEmpty) && c.copies.isEmpty && s.redps.all fun f => f.crew != c.key

/-- A crew leaves with its slot, and counts for its sheet (R18, R354, R358). -/
def State.retireCrew (s : State) (c : Crew) : State :=
  let k := c.key
  ((((s.dropCrew k).freeKeys c.keys).unbind k).exposeCrew k).countRetired k.ctx k.launch k.sheet k.crew

/-- CREW_RETIRE: at first the stopped operation of a crew without units is discarded, as by MSTEP.dis (R358). -/
def execCrewRetire (k : CrewKey) (s : State) : Step :=
  match s.allCrews.find? fun c => c.key == k with
  | none => s.absent
  | some c =>
    if !s.crewDone c then s.absent
    else if c.marver.queue.isEmpty then .next (s.retireCrew c)
    else
      match (if c.marver.stopped then c.marver.queue.find? fun o => o.state == .stopped else none) with
      | none => s.absent
      | some o =>
        let s1 := (s.discardOp k o).mapMarver k fun m => { m with mst := m.mst &&& 0xFFFFBFFF#32 }
        .next s1

/-! ### The distributor (R40, R41, R363) -/

/-- A crew that a FETCHW may withdraw, with its launch. -/
structure Cand where
  launch : Launch
  key : Nat × Nat
  deriving DecidableEq, Repr

/-- The shape of a resident crew as it was declared (R40). -/
def Crew.shape (c : Crew) : Nat × Nat × Nat × Nat :=
  (c.gangs.length, c.groups, c.budget, ((c.gangs.head?).map (·.size)).getD 0)

/-- A kernel's crews fit a requester's shape: gangs, groups per gang, allotment, scratchpad (R40). -/
def Header.within (h : Header) (x : Nat × Nat × Nat × Nat) : Bool :=
  decide (h.gangs ≤ x.1) && decide (h.groups ≤ x.2.1) && decide (h.budget ≤ x.2.2.1) && decide (h.scratch ≤ x.2.2.2)

/-- Candidates of two launches in order: higher priority, then lower number (R40). -/
def candBefore (a b : Cand) : Bool :=
  decide (b.launch.prio < a.launch.prio) || (a.launch.prio == b.launch.prio && decide (a.launch.num ≤ b.launch.num))

/-- The first candidate of several. -/
def firstCand : List Cand → Option Cand
  | [] => none
  | x :: xs =>
    match firstCand xs with
    | none => some x
    | some y => if candBefore x y then some x else some y

/-- The crew that a launch offers a requester: its first that is not placed, outside those that its trace names (R40,
R361). -/
def State.offer (s : State) (c : Context) (x : Nat × Nat × Nat × Nat) (l : Launch) : Option Cand :=
  if l.persist || !(((s.header c l.kernel).2).map fun h => h.within x).getD false then none
  else
    (l.firstOutside (l.placed ++ l.withdrawn ++ l.retired ++
      ((s.traceRest c l).filter fun e => e.2.kind != 2).map fun e => (e.2.sheet, e.2.crew))).map fun k => ⟨l, k⟩

/-- The first candidate for a requester (R40). -/
def State.firstFor (s : State) (c : Context) (r : Crew) : Option Cand :=
  firstCand (c.launches.filterMap (s.offer c r.shape))

/-- The die whose slot table holds a crew. -/
def State.dieOfSlot (s : State) (k : CrewKey) : Option Nat :=
  (List.range 8).find? fun d => (s.dieAt d).slots.any fun e => recValid e.2 && recKey e.2 == k

/-- The mailbox of a request written, by offset, and the request ended (R40, R41). -/
def State.answerFetch (s : State) (k : CrewKey) (q : FetchReq) (bs : List (Nat × Byte)) : State :=
  s.mapCrewAt k fun c => { c with fetch := none }.putScr q.box.gang (bs.map fun (b : Nat × Byte) => (q.box.off + b.1, b.2))

/-- A grant: the crew is withdrawn, its slot is free, the mailbox names it (R40, R360). -/
def State.grantFetch (s : State) (r : Crew) (q : FetchReq) (l : Launch) (k : Nat × Nat) : State :=
  let c := r.key.ctx
  let s1 := (s.mapLaunch c l.num fun y => { y with withdrawn := k :: y.withdrawn }).unbind (l.key c k)
  let s2 := s1.record c l.num ⟨1, r.lcl, k.1, k.2, r.key.crew⟩
  s2.answerFetch r.key q (placed 0 (leBytes 4 1 ++ leBytes 4 0 ++ leBytes 4 l.num ++ leBytes 4 k.1 ++ leBytes 4 k.2 ++
    leBytes 4 0 ++ leBytes 8 l.argva))

/-- An EMPTY answer: READY and the reserved words are written, the fields of a grant are not; it is recorded with every launch of
the context that records (R40, R360). -/
def State.emptyFetch (s : State) (r : Crew) (q : FetchReq) : State :=
  let ls := ((s.ctxAt r.key.ctx).map (·.launches)).getD []
  (ls.foldl (fun t l => t.record r.key.ctx l.num ⟨2, r.lcl, 0, 0, r.key.crew⟩) s).answerFetch r.key q
    (placed 0 (leBytes 4 2 ++ leBytes 4 0) ++ placed 0x14 (leBytes 4 0))

/-- What the traces say to a request (R361): nothing, wait, a due EMPTY of launches, or a due grant of a launch. -/
inductive TraceSays where
  | nothing
  | empty (ls : List Launch)
  | wait
  | grant (l : Launch) (e : TraceEntry)

/-- What the trace of a replayed launch says to a request: its next entry for that requester (R361). -/
def State.traceFor (s : State) (c : Context) (r : Crew) (l : Launch) : TraceSays :=
  match (s.traceRest c l).find? fun e => e.2.kind != 0 && e.2.lcl == r.lcl && e.2.req == r.key.crew with
  | none => .nothing
  | some (i, e) => if i ≠ l.traced then .wait else if e.kind = 2 then .empty [l] else .grant l e

/-- The traces of several launches: a due grant first, then a wait; one EMPTY answer is the due EMPTY of every trace that says so,
since one was recorded in each (R360, R361). -/
def TraceSays.join : TraceSays → TraceSays → TraceSays
  | .grant l e, _ => .grant l e
  | _, .grant l e => .grant l e
  | .wait, _ => .wait
  | _, .wait => .wait
  | .empty a, .empty b => .empty (a ++ b)
  | .empty a, .nothing => .empty a
  | .nothing, y => y

/-- The answer to one request; it waits where a trace says so (R276, R361, R363). -/
def State.serveFetch (s : State) (k : CrewKey) : State :=
  match s.allCrews.find? (fun c => c.key == k), s.ctxAt k.ctx, s.launchOf k with
  | some r, some c, some own =>
    match r.fetch with
    | none => s
    | some q =>
      match (c.launches.map (s.traceFor c r)).foldl TraceSays.join .nothing with
        | .wait => s
        | .empty ls => (ls.foldl (fun t l => t.carried c.id l.num) s).emptyFetch r q
        | .grant l e =>
          if !own.persist then s.emptyFetch r q
          else if l.started (e.sheet, e.crew) then s
          else (s.carried c.id l.num).grantFetch r q l (e.sheet, e.crew)
        | .nothing =>
          if !own.persist then s.emptyFetch r q
          else
          match s.firstFor c r with
          | some x => s.grantFetch r q x.launch x.key
          | none => s.emptyFetch r q
  | _, _, _ => s

/-- The die that a request reaches: that of its first candidate's slot, else the requester's (R363). -/
def State.fetchDie (s : State) (r : Crew) : Nat :=
  ((((s.ctxAt r.key.ctx).bind fun c => s.firstFor c r).bind fun x => s.dieOfSlot (x.launch.key r.key.ctx x.key))).getD
    r.socket

/-- The rank of a request: stamp, socket, logical core (R363). -/
def fetchRank (r : Crew) (q : FetchReq) : Nat := (q.stamp * 16 + r.socket) * 2 ^ 20 + q.core

/-- A request put in its place among those already ranked. -/
def insertFetch (x : Nat × CrewKey) : List (Nat × CrewKey) → List (Nat × CrewKey)
  | [] => [x]
  | y :: ys => if x.1 ≤ y.1 then x :: y :: ys else y :: insertFetch x ys

/-- The requests that a die's distributor ranks, in order (R363). -/
def State.fetchesOn (s : State) (die : Nat) : List CrewKey :=
  ((s.allCrews.filterMap fun r => match r.fetch with
    | none => none
    | some q => if s.fetchDie r = die then some (fetchRank r q, r.key) else none).foldl
    (fun l x => insertFetch x l) []).map (·.2)

/-- DISTRIBUTOR_CYCLE (R363). -/
def execDistributorCycle (die : Nat) (s : State) : Step :=
  match s.fetchesOn die with
  | [] => s.absent
  | ks => .next (ks.foldl State.serveFetch s)

/-! ### Paths (R24, R25) -/

/-- A split has held its slot longer than another, or as long with a lower lowest lane (R24). -/
def Path.longer (p q : Path) : Bool :=
  decide (p.since < q.since) || (p.since == q.since && decide (p.mask.lowest ≤ q.mask.lowest))

/-- The split that has held its slot longest. -/
def longestPath : List Path → Option Path
  | [] => none
  | p :: ps =>
    match longestPath ps with
    | none => some p
    | some q => if p.longer q then some p else some q

/-- The splits of a unit with lanes. -/
def Agent.active (a : Agent) : List Path := (a.cur :: a.splits).filter fun p => p.mask != 0

/-- A unit with these splits. -/
def Agent.withActive (a : Agent) : List Path → Agent
  | [] => { a with cur := { Path.empty with slot := a.cur.slot }, splits := [] }
  | p :: ps => { a with cur := p, splits := ps }

/-- A unit rotated: the split that held its slot longest is parked, and the next parked entry in lane order takes the
slot (R24; of the first rotation log entry 63). A split that stands between a prefix word and its instruction holds the rotation
back (R173). -/
def Agent.rotate (a : Agent) (tick : Nat) : Option Agent :=
  match longestPath a.active, a.park with
  | some out, p0 :: _ =>
    if out.pfx.count ≠ 0 then none
    else
    let into := (a.park.find? fun p => decide (a.rotLow < p.mask.lowest)).getD p0
    let rest := a.active.filter fun q => q.slot != out.slot
    some { a.withActive ({ into with slot := out.slot, since := tick } :: rest) with
      park := insertPath out (a.park.filter fun q => q.mask != into.mask)
      rotLow := into.mask.lowest }
  | _, _ => none

/-- A unit stands still as a whole: yielded, on a copy or on tokens (R36). -/
def Agent.yielded (a : Agent) : Bool :=
  a.paths.any fun p => p.mask != 0 && (match p.wait with
    | .copy _ _ => true
    | .tokens _ => true
    | _ => false)

/-- A path waits in a system instruction that is tried again (R322). -/
def Path.inSystem (p : Path) : Bool :=
  p.mask != 0 && (match p.wait with
    | .sys _ => true
    | _ => false)

/-- A unit rotates when no run of it is in flight and it has not yielded; in a crew that is being saved, only to give a slot to a
parked path in a system instruction, for which the save waits (R24, R322, R370). -/
def Agent.mayRotate (a : Agent) (saving : Bool) : Bool :=
  if saving then a.park.any Path.inSystem else !a.inRun && !a.yielded

/-- PARK_ROTATION (R24). -/
def execParkRotation (u : AgentKey) (s : State) : Step :=
  match s.unitAt u with
  | none => s.absent
  | some a =>
    if !a.mayRotate (((s.crewAt u.crew).map fun c => c.area.isSome).getD false) then s.absent
    else
      match a.rotate s.tick with
      | none => s.absent
      | some b => .next (s.mapUnit u fun _ => b)

/-- A path at an instruction boundary (R25, R173): no prefix issued, nothing awaited, no FAIL that it has still to meet. -/
def Path.settled (p : Path) : Bool :=
  p.mask != 0 && p.pfx.count == 0 && (p.wait == .none || p.wait == .poll) && p.failed.isEmpty

/-- Two paths merge: equal PCs and return stacks (R25). -/
def Path.merges (p q : Path) : Bool := p.settled && q.settled && p.pc == q.pc && p.stack == q.stack

/-- A path with the lanes of another that merges with it; it is the handling split when either is (R25, R312). The lanes that
alone execute the next instruction are those of both (R218, R228). -/
def Path.join (p q : Path) : Path :=
  { p with
    mask := p.mask ||| q.mask
    only := if p.only.isNone && q.only.isNone then none else some (p.lanes ||| q.lanes)
    handler := p.handler || q.handler }

/-- A path of a unit by its key. -/
def Agent.keyedPath (a : Agent) : PathKey → Option Path
  | .slot n => a.active.find? fun p => p.slot == n
  | .parked l => a.park.find? fun p => p.mask.lowest == l

/-- Two splits merged in the lower slot; the other slot goes to the parked entry with the lowest lane (R24, R25). -/
def Agent.mergeSplits (a : Agent) (p q : Path) (tick : Nat) : Agent :=
  let keep := if p.slot < q.slot then p else q
  let gone := if p.slot < q.slot then q else p
  let rest := a.active.filter fun x => x.slot != p.slot && x.slot != q.slot
  let b := a.withActive (keep.join gone :: rest)
  match b.park with
  | [] => b
  | x :: xs => { b with splits := b.splits ++ [{ x with slot := gone.slot, since := tick }], park := xs }

/-- A split merged with a park entry, in the split's slot (R25). -/
def Agent.mergeParked (a : Agent) (p q : Path) : Agent :=
  let rest := a.active.filter fun x => x.slot != p.slot
  { a.withActive (p.join q :: rest) with park := a.park.filter fun x => x.mask != q.mask }

/-- Two paths of a unit merged, where they may merge (R25). -/
def Agent.merge (a : Agent) (x y : PathKey) (tick : Nat) : Option Agent :=
  if a.inRun ∨ x = y then none
  else
    match a.keyedPath x, a.keyedPath y with
    | some p, some q =>
      if !p.merges q then none
      else
        match x, y with
        | .slot _, .slot _ => some (a.mergeSplits p q tick)
        | .slot _, .parked _ => some (a.mergeParked p q)
        | .parked _, .slot _ => some (a.mergeParked q p)
        | .parked _, .parked _ => none
    | _, _ => none

/-- PATH_MERGE (R25). -/
def execPathMerge (u : AgentKey) (p q : PathKey) (s : State) : Step :=
  match (s.unitAt u).bind fun a => a.merge p q s.tick with
  | none => s.absent
  | some b => .next (s.mapUnit u fun _ => b)

end Sys2Proof.Machine
end

