-- ==== Sys2Proof/Machine/Host.lean ====
section
/-!
DEFINITION. The host's commands (21 R401): WRITE, READ, LAUNCH (18 R351 to R353), REMOVE, REGCTX, REGOBJ, BIND (23 R429),
QCONF, FEATNEG (23 R416 to R418), PODCFG.
-/
namespace Sys2Proof.Machine

open Sys2Proof

/-! ### The frame of a command -/

/-- The operations of R401. -/
def knownOpcs : List Nat := [0x01, 0x02, 0x10, 0x11, 0x20, 0x21, 0x22, 0x23, 0x30, 0x40, 0x41]

/-- A command in its common checks, in order: DENIED before the firmware takes it (R411), BADOPC, BADLEN, and BADFIELD for
a reserved field of the header or an ADDR that the operation does not use. -/
def State.checked (s : State) (c : Cmd) (opc : Nat) (usesAddr : Bool) (k : State → Answer) : Answer :=
  if s.boot.fail ∨ s.boot.step < 6 ∨ (s.boot.step = 6 ∧ c.opc ≠ 0x40) then s.status 5
  else if c.opc ≠ opc then s.status 1
  else if !c.lenOk then s.status 2
  else if !c.headOk ∨ (!usesAddr ∧ c.addr ≠ 0) then s.status 6
  else k s

/-- A command at an endpoint. A packet with another operation's OPC is that operation's command. -/
def State.command (s : State) (c : Cmd) (opc : Nat) (usesAddr : Bool) (k : State → Answer) : Step :=
  if !s.reachable c ∨ (c.opc ≠ opc ∧ knownOpcs.contains c.opc) then s.absent
  else .next ((s.checked c opc usesAddr k).send c)

/-- A command of a context: BADCTX where it is not live. -/
def State.forCtx (s : State) (c : Cmd) (k : Context → Answer) : Answer :=
  match s.ctxAt c.ctx with
  | none => s.status 3
  | some x => k x

/-- A body of one size: BADLEN for another. -/
def State.sized (s : State) (c : Cmd) (n : Nat) (k : Answer) : Answer := if c.body.length ≠ n then s.status 2 else k

/-- A part-level operation names no context (R401). -/
def State.partLevel (s : State) (c : Cmd) (k : Answer) : Answer := if c.ctxWord ≠ 0 then s.status 3 else k

/-! ### WRITE, READ, REMOVE -/

/-- WRITE (R401); at step 3 of power-up, a write to the staging buffer (R411). -/
def execWrite (c : Cmd) (s : State) : Step :=
  if s.boot.staging_ ∧ s.reachable c ∧ c.opc = 1 then .next ((s.stage c).send c)
  else
    s.command c 0x01 true fun s1 =>
      s1.forCtx c fun x =>
        let w := s1.virtWrite x c.addr c.body
        w.1.status (if w.2 then 0 else 4)

/-- READ (R145, R401). -/
def execRead (c : Cmd) (s : State) : Step :=
  s.command c 0x02 true fun s1 =>
    s1.forCtx c fun x =>
      s1.sized c 8 (
        let n := fieldAt c.body 0 8
        if n = 0 ∨ 4064 < n then s1.status 6
        else
          match s1.hostRead x c.addr n with
          | (s2, some bs) => ⟨s2, 0, 0, bs⟩
          | (s2, none) => s2.status 4)

/-- REMOVE (R369, R382). -/
def execRemove (c : Cmd) (s : State) : Step :=
  s.command c 0x11 false fun s1 =>
    s1.forCtx c fun x => s1.sized c 0 ((s1.kill x 1).status 0)

/-! ### LAUNCH (R352, R353, R362) -/

/-- The launch that a body spells (R352). -/
def launchOf (b : List Byte) (die : Nat) : Launch where
  num := fieldAt b 4 4
  kernel := fieldAt b 8 8
  sheets := fieldAt b 0x10 4
  crews := fieldAt b 0x14 4
  prio := fieldAt b 0x18 1
  quantumDisc := (fieldAt b 0x19 1).testBit 0
  persist := (fieldAt b 0x19 1).testBit 1
  pin := (fieldAt b 0x19 1).testBit 2
  trec := (fieldAt b 0x19 1).testBit 3
  trep := (fieldAt b 0x19 1).testBit 4
  quantum := fieldAt b 0x1A 2
  argva := fieldAt b 0x20 8
  argLen := fieldAt b 0x1C 4
  compl := if fieldAt b 0x28 8 % 32 = 0 then fieldAt b 0x28 8 else 2 ^ 56
  trace := fieldAt b 0x30 8
  traceMax := fieldAt b 0x38 4
  die := die
  bound := []
  placed := []
  withdrawn := []
  retired := []
  traced := 0

/-- A field of a launch body is out of range or reserved and not zero (R352, R353). -/
def badLaunch (b : List Byte) (c : CtxId) : Bool :=
  let f := fieldAt b 0x19 1
  let q := fieldAt b 0x1A 2
  let n := fieldAt b 0x1C 4
  fieldAt b 0 4 != c.word.toNat || decide (32 ≤ f) || (f.testBit 3 && f.testBit 4) || !zeroAt b 0x3C 4 ||
  fieldAt b 0x10 4 == 0 || decide (65536 < fieldAt b 0x10 4) || fieldAt b 0x14 4 == 0 ||
  decide (2 ^ 20 < fieldAt b 0x14 4) || decide (8 ≤ fieldAt b 0x18 1) || (f.testBit 0 == (q == 0)) ||
  decide (3968 < n) || n % 8 != 0 || n + 0x40 != b.length || fieldAt b 0x20 8 % 8 != 0 ||
  fieldAt b 0x28 8 % 32 != 0 || (!f.testBit 3 && !f.testBit 4 && fieldAt b 0x30 8 != 0)

/-- A replay trace passes the checks of R362: every entry is valid, and no crew is bound twice or withdrawn twice. That a
trace of a pinned launch binds each crew on its own logical cluster (R297) is DEDUCED, log entry 59. -/
def goodTrace (l : Launch) (nlc : Nat) (es : List TraceEntry) : Bool :=
  let crews (kind : Nat) : List (Nat × Nat) := (es.filter fun e => e.kind == kind).map fun e => (e.sheet, e.crew)
  (es.all fun e => decide (e.kind ≤ 2) && decide (e.sheet < l.sheets) && decide (e.crew < l.crews) &&
    decide (e.lcl < nlc) && (!l.pin || e.kind != 0 || e.lcl == e.crew)) &&
  decide ((crews 0).eraseDups.length = (crews 0).length) && decide ((crews 1).eraseDups.length = (crews 1).length)

/-- The trace of a launch can be read and passes its checks (R362). -/
def State.traceOk (s : State) (c : Context) (l : Launch) : Bool :=
  match (s.virtRead c l.trace (16 * l.traceMax)).2 with
  | none => false
  | some bs => goodTrace l c.nlc ((List.range l.traceMax).map fun i => traceEntryOf (slice bs (16 * i) 16))

/-- The checks of R353 in the order of its rows, after which the arguments are written: the status, 0 for a launch that is
taken. `c` holds the context as its descriptor stands. -/
def State.checkLaunch (s : State) (c : Context) (l : Launch) (b : List Byte) : State × Nat :=
  if badLaunch b c.id then (s, 8)
  else
    match s.header c l.kernel with
    | (s1, none) => (s1, 8)
    | (s1, some h) =>
      if (s1.readDescriptor c.id).isNone then (s1, 3)
      else if !h.fitsEmpty then (s1, 1)
      else if h.det && !c.det then (s1, 2)
      else if l.pin && (l.sheets != 1 || decide (c.nlc < l.crews)) then (s1, 4)
      else
        let w := s1.virtWrite c l.argva (slice b 0x40 l.argLen)
        if !w.2 then (w.1, 5)
        else if l.trep && !w.1.traceOk c l then (w.1, 6)
        else (w.1, 0)

/-- A launch taken over, or refused with its completion (R352, R353). -/
def State.takeLaunch (s : State) (x : Context) (l : Launch) (b : List Byte) : State :=
  let r := s.checkLaunch (s.ctxNow x) l b
  if r.2 ≠ 0 then r.1.complete x l r.2
  else r.1.mapCtxAt x.id fun y => { y with launches := y.launches ++ [l] }

/-- LAUNCH (R352, R353). -/
def execLaunch (c : Cmd) (s : State) : Step :=
  s.command c 0x10 false fun s1 =>
    s1.forCtx c fun x =>
      if c.body.length < 0x40 then s1.status 2
      else
        let l := launchOf c.body c.die
        if (x.launch l.num).isSome then s1.status 6
        else (s1.takeLaunch x l c.body).status 0

/-! ### REGCTX (R306, R307) -/

/-- A set of features is contained in another. -/
def featSubset (a b : BitVec 128) : Bool := a &&& ~~~b == 0

/-- A context as its descriptor registers it. -/
def contextOf (id : CtxId) (bs : List Byte) : Context := { Context.empty with id := id }.load bs

/-- REGCTX (R401, R416). -/
def execRegctx (c : Cmd) (s : State) : Step :=
  s.command c 0x20 false fun s1 =>
    s1.sized c 64 (
      let id := CtxId.ofNat (fieldAt c.body 0 4)
      if c.ctxWord ≠ 0 ∧ c.ctxWord ≠ fieldAt c.body 0 4 then s1.status 3
      else if id.tag = 0 ∨ (s1.allCtxs.any fun x => x.id.tag == id.tag) then s1.status 3
      else if 2 ^ 20 ≤ fieldAt c.body 0 4 ∨
          !featSubset (BitVec.ofNat 128 (fieldAt c.body 0x20 16)) (s1.boot.ack.getD 0) then s1.status 6
      else if 1024 ≤ s1.allCtxs.length then s1.status 9
      else
        let s2 := s1.putPhys (s1.ctbase + 64 * id.tag) c.body
        { s2 with ctxs := s2.ctxs ++ [contextOf id c.body] }.status 0)

/-! ### REGOBJ, BIND -/

/-- A free slot of the directory; slot 0 is never one (R118). Of several the lowest (DESIGN CHOICE, log entry 79). -/
def Punty.freeSlot (p : Punty) : Option Nat :=
  if 262143 ≤ p.objs.length then none
  else ((List.range (p.objs.length + 1)).map (· + 1)).find? fun n => !p.objs.any fun o => o.slot == n

/-- An object registered in a slot, with the slot's generation (R118). -/
def Punty.register (p : Punty) (slot : Nat) (c : CtxId) (oid base size : Nat) : Punty :=
  let g := ((p.gens.find? fun x => x.1 == slot).map (·.2)).getD 0
  { p with
    objs := p.objs ++ [⟨slot, g, c, oid, base, size, []⟩]
    gens := p.gens.filter fun x => x.1 != slot }

/-- REGOBJ (R118, R401). -/
def execRegobj (c : Cmd) (s : State) : Step :=
  s.command c 0x21 false fun s1 =>
    s1.forCtx c fun x =>
      s1.sized c 24 (
        let oid := fieldAt c.body 0 4
        let base := fieldAt c.body 8 8
        let size := fieldAt c.body 0x10 8
        if !zeroAt c.body 4 4 ∨ oid = 0 ∨ (s1.punty.object x.id oid).isSome ∨ size = 0 ∨ 2 ^ 56 ≤ base ∨
            2 ^ 56 < base + size then s1.status 6
        else
          match s1.punty.freeSlot with
          | none => s1.status 9
          | some n => (s1.mapPunty fun p => p.register n x.id oid base size).status 0)

/-- BIND (R283, R401, R429). -/
def execBind (c : Cmd) (s : State) : Step :=
  s.command c 0x22 false fun s1 =>
    s1.forCtx c fun x =>
      if c.body.length < 32 then s1.status 2
      else if 1 ≤ fieldAt c.body 0 4 ∧ fieldAt c.body 0 4 ≤ 16 ∧ c.body.length ≠ listBytes (fieldAt c.body 0 4) then
        s1.status 2
      else
        match bindList c.body with
        | none => s1.status 6
        | some l =>
          match s1.punty.checkList x.id true [] 0 0 l with
          | some f => ⟨s1, 8, f.1 + f.2.1 * 256, []⟩
          | none => (s1.applyBinds x.id l).status 0

/-! ### QCONF -/

/-- QCONF: a queue keeps its entries; its drops count from here (R274, R275, R401). -/
def execQconf (c : Cmd) (s : State) : Step :=
  s.command c 0x30 false fun s1 =>
    s1.forCtx c fun x =>
      s1.sized c 16 (
        let q := fieldAt c.body 0 4
        let cap := fieldAt c.body 4 4
        let resv := fieldAt c.body 8 4
        let flags := fieldAt c.body 12 4
        let old := s1.queueAt q
        if 4096 ≤ q ∨ 2 ≤ flags ∨ 2 ^ 24 ≤ cap ∨ cap < resv * s1.pod.members.length then s1.status 6
        else if (old.map fun t => t.owner != x.id && (s1.ctxAt t.owner).isSome).getD false then s1.status 5
        else
          (s1.putQueue ⟨q, x.id, cap, resv, flags.testBit 0,
            ((old.filter fun t => t.owner == x.id).map (·.entries)).getD [], 0⟩).status 0)

/-! ### FEATNEG (R415 to R418) -/

/-- The part of the attestation report that is signed (R417). -/
def reportHead (b : Boot) (nonce : List Byte) (idx : Nat) : List Byte :=
  leBytes 4 1 ++ leBytes 4 b.svn ++ leBytes 16 b.featoff.toNat ++ leBytes 16 (b.ack.getD 0).toNat ++ nonce ++
  leBytes 48 (Config.sha384 Config.deviceKey).toNat ++ leBytes 48 Config.romMeasure.toNat ++ leBytes 48 b.phash.toNat ++
  leBytes 48 (Config.sha384 (b.selfTest ++ Config.identityRecord)).toNat ++ leBytes 4 idx ++ leBytes 4 0

/-- The report, and the part with the leaf of its LMS signature used; after the last leaf no LMS signature is made (R415,
R417). -/
def Boot.report (b : Boot) (nonce : List Byte) : Boot × List Byte :=
  if b.mramLeaf < 2 ^ 20 then
    let h := reportHead b nonce b.mramLeaf
    ({ b with mramLeaf := b.mramLeaf + 1 },
      h ++ leBytes 96 (Config.deviceEcdsa h).toNat ++ leBytes 1772 (Config.deviceLms b.mramLeaf h).toNat)
  else
    let h := reportHead b nonce 0xFFFFFFFF
    (b, h ++ leBytes 96 (Config.deviceEcdsa h).toNat ++ leBytes 1772 0)

/-- FEATNEG from its checked body on: COMMIT fixes the acknowledged set once (R416). -/
def State.featneg (s : State) (b : List Byte) : Answer :=
  let commit := (fieldAt b 0 4).testBit 0
  let ack := BitVec.ofNat 128 (fieldAt b 8 16)
  if 2 ≤ fieldAt b 0 4 ∨ !zeroAt b 4 4 then s.status 6
  else if commit && s.boot.ack.isSome then s.status 5
  else if commit && (!ack.getLsbD 0 || !featSubset ack s.boot.featoff) then s.status 6
  else
    let b1 := if commit then { s.boot with ack := some ack, step := 7 } else s.boot
    let r := b1.report (slice b 0x18 48)
    ⟨{ s with boot := r.1 }, 0, 0, r.2⟩

/-- FEATNEG (R411, R416). -/
def execFeatneg (c : Cmd) (s : State) : Step :=
  s.command c 0x40 false fun s1 => s1.partLevel c (s1.sized c 72 (s1.featneg c.body))

/-! ### PODCFG (R388, R395, R401) -/

/-- The set bits of a number below a bound. -/
def setBits (n bound : Nat) : List Nat := (List.range bound).filter n.testBit

/-- The pod configuration that a body spells (R401). -/
def podOf (b : List Byte) (synced stepped : Bool) : PodCfg where
  part := fieldAt b 0 2
  parent := fieldAt b 2 1
  podPorts := fieldAt b 8 4
  ordPorts := fieldAt b 12 4
  llr := fieldAt b 16 4
  cbfc := fieldAt b 20 4
  domain := setBits (fieldAt b 24 512) 4096
  synced := synced
  stepped := stepped

/-- A pod port as it joins the ordered set: no watermark received, none sent (R392). -/
def PodPort.fresh (num now : Nat) : PodPort := ⟨num, List.replicate 32 0, false, now, List.replicate 32 0, 0⟩

/-- The ordered ports after a configuration: those that stay keep their vectors (R395). -/
def Hub.withPorts (h : Hub) (ports : List Nat) (now : Nat) : Hub :=
  { h with ports := ports.map fun n => (h.ports.find? fun p => p.num == n).getD (PodPort.fresh n now) }

/-- PODCFG (R401; who may send it: log entry 74). -/
def execPodcfg (c : Cmd) (s : State) : Step :=
  s.command c 0x41 false fun s1 =>
    s1.partLevel c (s1.sized c 536 (
      let p := podOf c.body s1.pod.synced s1.pod.stepped
      if 4096 ≤ p.part ∨ !zeroAt c.body 3 5 ∨ (p.ordPorts &&& p.podPorts) ≠ p.ordPorts ∨
          (p.parent ≠ 0xFF ∧ !p.podPorts.testBit p.parent) then s1.status 6
      else
        { s1 with
          pod := p
          hub := s1.hub.withPorts (setBits p.ordPorts 32) (s1.dieAt 8).ptime }.status 0))

end Sys2Proof.Machine
end

