-- ==== Sys2Proof/Machine/Fabric.lean ====
section
/-!
DEFINITION. Pod time (21 R387, R388), the ordered hub (21 R390 to R397), fence counters (21 R398), credits (21 R399) and the
bulk accesses of other parts (21 R389).
-/
namespace Sys2Proof.Machine

open Sys2Proof

/-! ### Pod time -/

/-- The bound on the estimated error of a healthy die (R388). -/
def PodCfg.errBound (p : PodCfg) : Nat := if p.synced then 400 else 24

/-- PODSYNC after an exchange (R388). -/
def PodCfg.reaches (p : PodCfg) (chain : Bool) : Bool := chain && (p.parent == 0xFF || p.podPorts.testBit p.parent)

/-- A die after an exchange: PTIME slews forward towards the reference by at most 100 ppm of the time since the last one,
and HEALTHY returns with the second exchange in a row within the bound (R387, R388). -/
def Die.exchange (d : Die) (x : TimeExchange) (bound : Nat) : Die :=
  let good := if x.err ≤ bound then d.good + 1 else 0
  { d with
    ptime := max d.ptime (min x.reference (d.ptime + (d.ptime - d.exchanged) / 10000))
    err := x.err
    exchanged := max d.ptime (min x.reference (d.ptime + (d.ptime - d.exchanged) / 10000))
    good := good
    healthy := if good = 0 then false else d.healthy || decide (2 ≤ good) }

/-- PTIME stepped forward to a reference. -/
def Die.stepTo (t : Nat) (d : Die) : Die := { d with ptime := max d.ptime t }

/-- HEALTHY is cleared where the estimated error exceeds the bound (R388). -/
def Die.recheck (bound : Nat) (d : Die) : Die := if bound < d.err then { d with healthy := false, good := 0 } else d

/-- PODSYNC as an exchange leaves it: the exchange with the time parent says whether the chain reaches the root; at the root
every exchange with its own reference does (R387, R388). -/
def PodCfg.follow (p : PodCfg) (x : TimeExchange) : PodCfg :=
  let disciplines := match x.port with
    | none => p.parent == 0xFF
    | some n => p.parent == n
  let synced := if disciplines then p.reaches x.chain else p.synced
  { p with synced := synced, stepped := p.stepped || synced }

/-- A die disciplined by an exchange. When PODSYNC is first set, PTIME steps forward on every die, once; when PODSYNC changes,
the bound of every die does (R387, R388). -/
def State.discipline (s : State) (die : Nat) (x : TimeExchange) : State :=
  let pod := s.pod.follow x
  let s1 := { s with pod := pod }
  let s2 := if pod.synced && !s.pod.stepped then { s1 with dies := s1.dies.map (Die.stepTo x.reference) } else s1
  let s3 := s2.mapDie die fun d => d.exchange x pod.errBound
  { s3 with dies := s3.dies.map (Die.recheck pod.errBound) }

/-- TIME_EXCHANGE: with the interposer's reference, or on a pod link, in control flits. A part follows the link of its time
parent and the interposer's reference, and no other link (R387, R388). -/
def execTimeExchange (die : Nat) (x : TimeExchange) (s : State) : Step :=
  if 10 ≤ die then s.absent
  else
    match x.port with
    | none => .next (s.discipline die x)
    | some n =>
      if 32 ≤ n ∨ !s.pod.podPorts.testBit n then s.absent
      else
        let s1 := (s.freeBuffer (.port n) 3).sendOn (.port n) 3 (.time n (s.dieAt die).ptime)
        .next (if s.pod.parent = n then s1.discipline die x else s1)

/-- TIME_HEALTH_TIMEOUT: no exchange for 1 ms (R388). -/
def execTimeHealthTimeout (die : Nat) (s : State) : Step :=
  let d := s.dieAt die
  if 10 ≤ die ∨ d.ptime < d.exchanged + 16000000 then s.absent
  else .next (s.mapDie die fun x => { x with healthy := false, good := 0 })

/-! ### Watermarks (R392, R393) -/

/-- The least entry of a port's vector. -/
def PodPort.least (p : PodPort) : Nat := p.vec.foldl min (p.vec.headD 0)

/-- The promises of the compute dies (R392). -/
def State.promises (s : State) : List Nat := (List.range 8).map fun d => (s.dieAt d).promise

/-- The least of a list of numbers; 0 for none. -/
def leastOf : List Nat → Nat
  | [] => 0
  | x :: xs => xs.foldl min x

/-- The packets that the hub has still to hold, queue or pass: those that wait for a counter, and those that I/O die 9 relays
(R391, R398). No promise passes one of them. -/
def Hub.behind (h : Hub) : List OrdPacket :=
  h.relays.map (·.2) ++ h.waiting.filterMap fun i => match i with
    | .packet p => some p
    | .entry _ _ => none

/-- The delivery watermark D (R393). -/
def State.watermark (s : State) : Nat :=
  leastOf (s.promises ++ s.hub.ports.flatMap (·.vec) ++ (s.hub.out.map (·.2) ++ s.hub.behind).map fun p => p.stamp - 1)

/-- The vector that a pod out-port may promise (R392): 32 entries. -/
def State.outVector (s : State) (port : Nat) : List Nat :=
  (List.range 32).map fun h =>
    let ps := (s.hub.out.filter fun e => e.1 == port).map (·.2) ++ s.hub.behind
    let queued := (ps.filter fun p => p.hops == h).map fun p => p.stamp - 1
    leastOf ((if h = 0 then s.promises else s.hub.ports.map fun p => p.vec.getD (h - 1) 0) ++ queued)

/-- PTIME at the hub: of I/O die 8. -/
def State.hubTime (s : State) : Nat := (s.dieAt 8).ptime

/-- A port of the hub changed. -/
def State.mapPort (s : State) (n : Nat) (f : PodPort → PodPort) : State :=
  { s with hub := { s.hub with ports := s.hub.ports.map fun p => if p.num = n then f p else p } }

/-- A packet dropped and counted in LATEDROP, which saturates (R391, R395). -/
def State.lateDrop (s : State) : State :=
  { s with hub := { s.hub with lateDrop := if s.hub.lateDrop < 0xFFFFFFFF then s.hub.lateDrop + 1 else 0xFFFFFFFF } }

/-! ### Delivery (R287, R284, R393, R396) -/

/-- The lowest socket of a partition. -/
def State.lowestSocket (s : State) (part : Nat) : Nat :=
  ((List.range 8).find? fun d => (s.partmap.toArray.getD part 0).getLsbD d).getD 0

/-- An OSEND word written at its destination, or dropped with a fault record (R287), also where the page's FMT or GEOM is reserved
(R60); the KIND of the record is a free value there (log entry 52). -/
def State.deliverWrite (s : State) (c : Context) (addr : DWord) (data : Word) : State :=
  let die := s.lowestSocket c.part
  let va := addr.toNat
  let r := s.translate c .write va
  match r.2 with
  | .ok pa at_ =>
    if !formatOk at_.fmt at_.geom then r.1.report die c.id va Config.formatKind.val srcOrdered
    else
    match canonical pa with
    | none => r.1.report die c.id va 6 srcOrdered
    | some ca => r.1.putPhys ca (leBytes 4 data.toNat)
  | .denied => r.1.report die c.id va 4 srcOrdered
  | .malformed => r.1.report die c.id va 5 srcOrdered
  | x => r.1.report die c.id va (missKind .write x) srcOrdered

/-- A bind list applied, or its failed check told to the host (R284). -/
def State.deliverBind (s : State) (c : CtxId) (l : List BindEntry) : State :=
  match s.punty.checkList c false [] 0 0 l with
  | none => s.applyBinds c l
  | some f => s.send (.event 8 2 (f.2.2 + f.1 * 2 ^ 32 + f.2.1 * 2 ^ 40))

/-- A path waits for a probe of a stamp. -/
def Path.probeOf (stamp : Nat) (p : Path) : Bool :=
  match p.wait with
  | .probe _ t => t == stamp
  | _ => false

/-- A probe performed: the DOPEN completes, or waits at the directory for a bind where .w asks for it (R119, R281, R396). -/
def State.deliverProbe (s : State) (u : AgentKey) (stamp name : Nat) : State :=
  match (s.unitAt u).bind fun a => a.paths.find? (Path.probeOf stamp) with
  | none => s
  | some p =>
    match p.wait.insn with
    | none => s
    | some h =>
      let f := dopenFields h.word
      let o := s.openName u.crew.ctx name
      if o.2.1 = 1 ∧ f.2 then
        s.mapUnit u fun a => a.mapPaths fun q => if q.probeOf stamp then { q with wait := .bind h name } else q
      else o.1.giveResult u (Path.probeOf stamp) f.1 (puntyWord o.2.1 o.2.2)

/-- The acknowledgement of an ordered packet of another part, delivered or dropped, for the fence counter of its sender (R398;
log entry 55). -/
def State.ackOrdered (s : State) (p : OrdPacket) : State :=
  if p.srcPart = s.pod.part then s else s.sendTo p.srcPart 0 (.orderedAck p.srcPart p.stamp p.source)

/-- One packet delivered: horizons rise on every compute die; a packet of no live context is dropped (R390, R393). -/
def State.deliverOne (s : State) (p : OrdPacket) : State :=
  let s1 := { s with dies := Vector.ofFn fun i =>
    if i.val < 8 then { s.dies[i] with horizon := max s.dies[i].horizon p.stamp } else s.dies[i] }
  let s1 := s1.ackOrdered p
  match s1.ctxAt p.ctx with
  | none => s1
  | some c =>
    match p.body with
    | .write a d => s1.deliverWrite c a d
    | .bind l => s1.deliverBind c.id l
    | .probe u _ name => s1.deliverProbe u p.stamp name

/-- A packet comes before another in the order of delivery (R393). -/
def packetBefore (p q : OrdPacket) : Bool :=
  decide (p.stamp < q.stamp) || (p.stamp == q.stamp && decide (p.source ≤ q.source))

/-- The first packet in the order of delivery. -/
def firstPacket : List OrdPacket → Option OrdPacket
  | [] => none
  | p :: ps =>
    match firstPacket ps with
    | none => some p
    | some q => if packetBefore p q then some p else some q

/-- Held packets up to a watermark delivered in order; `fuel` bounds their number. -/
def State.deliverTo (d : Nat) : Nat → State → State
  | 0, s => s
  | n + 1, s =>
    match firstPacket s.hub.held with
    | none => s
    | some p =>
      if d < p.stamp then s
      else State.deliverTo d n ({ s with hub := { s.hub with held := s.hub.held.erase p } }.deliverOne p)

/-- The hub delivers what D allows, while it is enabled and no port is stalled (R393, R395, R397). -/
def State.deliver (s : State) : State :=
  if !s.hub.enabled || s.hub.ports.any (·.stalled) then s
  else
    let d := s.watermark
    State.deliverTo d s.hub.held.length { s with hub := { s.hub with top := max s.hub.top d } }

/-! ### Stalls (R395, R396) -/

/-- The TVAL of WATERMARK_STALL: the lowest stalled port and its least entry (R396). -/
def State.stallVal (s : State) : Nat :=
  let ps := s.hub.ports.filter (·.stalled)
  let n := leastOf (ps.map (·.num))
  n * 2 ^ 56 + ((ps.find? fun p => p.num == n).map (·.least)).getD 0 % 2 ^ 56

/-- A split whose probe is withdrawn raises WATERMARK_STALL at its DOPEN when it next issues (R396). -/
def Path.withdrawn (v : Nat) (p : Path) : Path :=
  match p.wait.insn with
  | none => p
  | some h => { p with pc := h.addr, pfx := h.pfx, wait := .trap (Trap.at .watermarkStall v p.lanes) }

/-- A probe withdrawn unperformed (R396). -/
def State.withdrawProbe (s : State) (u : AgentKey) (stamp : Nat) : State :=
  let v := s.stallVal
  s.mapUnit u fun a => a.mapPaths fun p => if p.probeOf stamp then p.withdrawn v else p

/-- The probes that the hub holds withdrawn. -/
def State.withdrawHeld (s : State) : State :=
  let probes := s.hub.held.filterMap fun p => match p.body with
    | .probe u _ _ => some (u, p.stamp)
    | _ => none
  let s1 := { s with hub := { s.hub with held := s.hub.held.filter fun p => match p.body with
    | .probe _ _ _ => false
    | _ => true } }
  probes.foldl (fun t x => t.withdrawProbe x.1 x.2) s1

/-- The hub holds a packet whose stamp lies above a port's least entry (R395). -/
def Hub.blocks (h : Hub) (p : PodPort) : Bool := h.held.any fun x => decide (p.least < x.stamp)

/-- A packet held for this part. The stall time of a port counts from the first packet that it holds back; a probe is
withdrawn at once while a port is stalled (R395, R396). -/
def State.hold (s : State) (p : OrdPacket) : State :=
  let now := s.hubTime
  let h := s.hub
  let ports := h.ports.map fun x => if h.blocks x then x else { x with advanced := max x.advanced now }
  let s1 := { s with hub := { h with held := h.held ++ [p], ports := ports } }
  if h.ports.any (·.stalled) then s1.withdrawHeld else s1.deliver

/-! ### Packets leaving (R391, R394, R398) -/

/-- The accesses of a pair of unit and part that the hub holds (R398). -/
def Hub.pairHeld (h : Hub) (u : AgentKey) (part : Nat) : Nat :=
  (h.out.filter fun e => e.2.agent == some u && e.2.dest == part).length +
  (h.enq.filter fun e => e.1 == u && e.2.dest == part).length

/-- A release's own write may leave: everything that its unit sent to the part before it has been acknowledged, so that the
pair's counter counts what the hub holds alone, and none of that stands before it (R144, R398). -/
def State.fenceFree (s : State) (p : OrdPacket) : Bool :=
  match p.agent with
  | none => true
  | some u =>
    s.fenceCount u p.dest == s.hub.pairHeld u p.dest &&
    !(s.hub.out.any fun e => e.2.agent == some u && e.2.dest == p.dest && decide (e.2.stamp < p.stamp)) &&
    !s.hub.enq.any fun e => e.1 == u && e.2.dest == p.dest && decide (e.2.horizon < p.stamp)

/-- The same for a RENQ entry: it comes behind every ordered packet that its die had stamped (R398). -/
def State.enqFree (s : State) (e : AgentKey × RenqPacket) : Bool :=
  s.fenceCount e.1 e.2.dest == s.hub.pairHeld e.1 e.2.dest &&
  !(s.hub.out.any fun o => o.2.agent == some e.1 && o.2.dest == e.2.dest && decide (o.2.stamp ≤ e.2.horizon)) &&
  (s.hub.enq.find? fun x => x.1 == e.1 && x.2.dest == e.2.dest) == some e

/-- A packet sent out of a port, with the watermark flit behind it (R394); its hop count grows (R391). -/
def State.sendOrdered (s : State) (port : Nat) (p : OrdPacket) : State :=
  let v := s.outVector port
  let s1 := (((s.reachPort port 1).spend (.port port) 1).send (.ordered port { p with hops := p.hops + 1, agent := none })).sendOn
    (.port port) 3 (.watermark port v)
  s1.mapPort port fun x => { x with sent := v, sentAt := s.hubTime }

/-- The queued packets that may leave, in the order of each port; `blocked` holds the ports whose head may not. -/
def State.flushOut (blocked : List Nat) : List (Nat × OrdPacket) → State → State
  | [], s => s
  | e :: es, s =>
    if blocked.contains e.1 then State.flushOut blocked es s
    else if s.canSend (.port e.1) 1 && s.canReach e.1 1 && s.fenceFree e.2 then
      State.flushOut blocked es ({ s with hub := { s.hub with out := s.hub.out.erase e } }.sendOrdered e.1 e.2)
    else State.flushOut (e.1 :: blocked) es s

/-- An entry leaves for its part, where it may. -/
def State.sendEnq (s : State) (e : AgentKey × RenqPacket) : State :=
  let port := (s.pod.outPort e.2.dest).getD 0
  if s.enqFree e && s.canReach port 2 then
    ({ s with hub := { s.hub with enq := s.hub.enq.erase e } }.reachPort port 2).sendTo e.2.dest 2 (.enqueue e.2)
  else s

/-- A fence marker leaves once the counter of its pair is zero (R398). -/
def State.sendMarker (s : State) (m : AgentKey × Nat) : State :=
  if s.fenceCount m.1 m.2 = 0 then
    { s with hub := { s.hub with markers := s.hub.markers.erase m } }.sendTo m.2 3 (.fenceMarker m.2 m.1)
  else s

/-- A part that an ordered packet of this part reaches: a member of the pod domain behind a pod port (R287, R400). -/
def State.podReaches (s : State) (dest : Nat) : Bool := s.pod.members.contains dest && (s.pod.outPort dest).isSome

/-- The packet of a release (R284, R287, R398). -/
def isRelease (p : OrdPacket) : Bool :=
  match p.body with
  | .probe _ _ _ => false
  | _ => true

/-- An ordered packet of this part accepted by the hub: the markers of its release are entered; one for this part is held, one for
another queued for its port and counted for its unit; one that no pod port leads on is dropped (R287, R391, R398, R400). -/
def State.acceptPacket (s : State) (p : OrdPacket) : State :=
  let s1 := match p.agent with
    | some u => if isRelease p then s.enterMarkersOf u else s
    | none => s
  if p.dest = s.pod.part then s1.hold p
  else if !s.pod.members.contains p.dest then s1
  else
    match s.pod.outPort p.dest with
    | none => s1
    | some q =>
      let s2 := match p.agent with
        | none => s1
        | some u => s1.countFence u p.dest false
      { s2 with hub := { s2.hub with out := s2.hub.out ++ [(q, p)] } }

/-- What waits at the hub accepted. -/
def State.acceptItem (s : State) : HubItem → State
  | .packet p => s.acceptPacket p
  | .entry u e => s.acceptEntry u e

/-- The hub may accept an access: it needs no counter, or one counts its pair or is free (R398). -/
def State.counterFor (s : State) (i : HubItem) : Bool :=
  match i.unit with
  | none => true
  | some u => i.dest == s.pod.part || !s.podReaches i.dest || s.fenceRoom u i.dest

/-- An ordered packet of this part at the hub: behind an access of its unit that waits, or with no free counter, it waits there
(R398). -/
def State.offerPacket (s : State) (p : OrdPacket) : State :=
  if (p.agent.map s.hub.waitsFor).getD false || !s.counterFor (.packet p) then
    { s with hub := { s.hub with waiting := s.hub.waiting ++ [.packet p] } }
  else s.acceptPacket p

/-- A waiting access tried again: the first of its unit, once a counter is free (R398). -/
def State.admitItem (s : State) (i : HubItem) : State :=
  if (s.hub.waiting.find? fun j => j.unit == i.unit) == some i && s.counterFor i then
    State.acceptItem { s with hub := { s.hub with waiting := s.hub.waiting.erase i } } i
  else s

/-- An ordered packet of another part at the hub: one that comes too late is dropped, one for this part is held; any other goes on
to the port of its route. One whose hop count would pass 31 is dropped (R391, R393, R395), and so is one that no pod port leads on
(R400). -/
def State.arriveHub (s : State) (p : OrdPacket) : State :=
  if p.stamp ≤ s.hub.top then s.lateDrop.ackOrdered p
  else if p.dest = s.pod.part then s.hold p
  else
    match s.pod.outPort p.dest with
    | none => s.ackOrdered p
    | some q =>
      if 31 ≤ p.hops then s.lateDrop.ackOrdered p
      else { s with hub := { s.hub with out := s.hub.out ++ [(q, { p with agent := none })] } }

/-- The packets that I/O die 9 relays pass to the hub in order, as the link between them has credits (R391, R399). -/
def State.takeRelays : Nat → State → State
  | 0, s => s
  | n + 1, s =>
    match s.hub.relays with
    | [] => s
    | e :: es =>
      if s.canSend (.interposer 9 0) 1 then
        State.takeRelays n ((State.cross { s with hub := { s.hub with relays := es } } (.interposer 9 0) 1).arriveHub e.2)
      else s

/-- What may reach the hub, and what may leave it, does. -/
def State.flush (s : State) : State :=
  let s0 := s.hub.waiting.foldl State.admitItem (s.takeRelays s.hub.relays.length)
  let s1 := State.flushOut [] s0.hub.out s0
  let s2 := s1.hub.enq.foldl State.sendEnq s1
  (s2.hub.markers.foldl State.sendMarker s2).drainFlits

/-- PORT_STALL (R395, R396). -/
def execPortStall (port : Nat) (s : State) : Step :=
  match s.hub.ports.find? fun p => p.num == port with
  | none => s.absent
  | some p =>
    if p.stalled ∨ !s.hub.blocks p ∨ s.hubTime < p.advanced + 16000 * (s.hub.ordctl.toNat % 65536) then
      s.absent
    else .next (((s.mapPort port fun x => { x with stalled := true }).send (.event 8 1 port)).withdrawHeld)

/-! ### Arrivals -/

/-- The die on which a packet waits first to pass to the hub. -/
def State.passingDie (s : State) (p : OrdPacket) : Option Nat :=
  (List.range 8).find? fun d => (s.dieAt d).unpassed.head? == some p

/-- A frame with the extension header on a port that is no pod port is dropped and counted (R400). -/
def State.dropFrame (s : State) (port : Nat) : State :=
  let n := ((s.frameDrops.find? fun e => e.1 == port).map (·.2)).getD 0
  { s with frameDrops := (port, n + 1) :: s.frameDrops.filter fun e => e.1 != port }

/-- ORDERED_PACKET_ARRIVAL: from a compute die of this part, as the link to the hub has a credit, or on an in-port, which for a
port of I/O die 9 that die relays to the hub (R391, R393, R395, R399, R400; log entry 28). -/
def execOrderedPacketArrival (port : Option Nat) (p : OrdPacket) (s : State) : Step :=
  match port with
  | none =>
    match s.passingDie p with
    | none => s.absent
    | some d =>
      if !s.canSend (hubLink d) 1 then s.absent
      else .next (((s.mapDie d fun x => { x with unpassed := x.unpassed.drop 1 }).cross (hubLink d) 1).offerPacket p)
  | some n =>
    if 32 ≤ n then s.absent
    else if !s.pod.podPorts.testBit n then .next (s.dropFrame n)
    else
      let s1 := s.freeBuffer (.port n) 1
      if n < 16 then .next (s1.arriveHub p)
      else
        .next (State.takeRelays (s1.hub.relays.length + 1)
          { s1 with hub := { s1.hub with relays := s1.hub.relays ++ [(n, p)] } })

/-- A vector that lowers no entry of another (R394). -/
def vectorRises (old new : List Nat) : Bool :=
  old.length == new.length && (old.zipWith (fun a b => decide (a ≤ b)) new).all id

/-- WATERMARK_FLIT_RECEIVE: a flit out of order, or one that would lower an entry, is ignored (R394); a port whose least
entry advances is no longer stalled (R395). -/
def execWatermarkFlitReceive (port : Nat) (inOrder : Bool) (vec : List Nat) (s : State) : Step :=
  let s0 := s.freeBuffer (.port port) 3
  match s.hub.ports.find? fun p => p.num == port with
  | none => .next s0
  | some p =>
    if !inOrder ∨ !vectorRises p.vec vec then .next s0
    else
      let q := { p with vec := vec }
      let up := decide (p.least < q.least)
      .next ((s0.mapPort port fun _ =>
        if up then { q with advanced := s.hubTime, stalled := false } else q).deliver)

/-- WATERMARK_BEACON (R394). -/
def execWatermarkBeacon (port : Nat) (s : State) : Step :=
  match s.hub.ports.find? fun p => p.num == port with
  | none => s.absent
  | some p =>
    if s.hubTime < p.sentAt + 16000 ∨ s.linkWaits (.port port) 3 ∨ !s.canSend (.port port) 3 then s.absent
    else
      let v := s.outVector port
      .next (((s.spend (.port port) 3).send (.watermark port v)).mapPort port fun x =>
        { x with sent := v, sentAt := s.hubTime })

/-- COMPUTE_DIE_PROMISE: min(PTIME, least stamp not yet passed) - 1 (R392). -/
def execComputeDiePromise (die : Nat) (s : State) : Step :=
  if 8 ≤ die then s.absent
  else .next (s.mapDie die fun d =>
    { d with promise := max d.promise (leastOf (d.ptime :: d.unpassed.map (·.stamp)) - 1) }).deliver

/-! ### Fences, bulk accesses, credits -/

/-- The virtual channel on which the next acknowledgement of a pair comes: VC 2 for a RENQ entry, VC 0 for an ordered packet; a
free choice while some of both are on their way (R389; log entry 55). -/
def State.ackChannel (s : State) (u : AgentKey) (part : Nat) : State × Nat :=
  let c := s.fenceOf u part
  let entries := c.entries - (s.hub.enq.filter fun e => e.1 == u && e.2.dest == part).length
  let packets := c.count - c.entries - (s.hub.out.filter fun e => e.2.agent == some u && e.2.dest == part).length
  if entries = 0 then (s, 0)
  else if packets = 0 then (s, 2)
  else
    let d := s.draw
    (d.2, if Config.freeBit d.1 then 2 else 0)

/-- FABRIC_ACK: a counter falls, and what waited for it may leave (R389, R398). -/
def execFabricAck (u : AgentKey) (part : Nat) (s : State) : Step :=
  if s.fenceCount u part = 0 then s.absent
  else
    let v := s.ackChannel u part
    let c := s.fenceOf u part
    .next ((v.1.freeFrom part v.2).setFence
      { c with count := c.count - 1, entries := if v.2 = 2 then c.entries - 1 else c.entries }).flush

/-- FABRIC_ACCESS_ARRIVAL: the access is performed in its context, and acknowledged; one of no live context, or one that
cannot be translated, has no effect. A release carries its horizon (R389, R390). -/
def execFabricAccessArrival (p : FabricPacket) (s : State) : Step :=
  let s := s.freeFrom p.srcPart 0
  let ack (t : State) (bs : List Byte) : Step := .next (t.sendTo p.srcPart 0 (.fabricAck p.srcPart p.id bs))
  match s.ctxAt p.ctx with
  | none => ack s []
  | some c =>
    let s1 := { s with dies := Vector.ofFn fun i =>
      if i.val < 8 then { s.dies[i] with horizon := max s.dies[i].horizon p.horizon } else s.dies[i] }
    match p.access with
    | .store va bs => ack (s1.virtWrite c va.toNat bs).1 []
    | .load va n =>
      let r := s1.virtRead c va.toNat n
      ack r.1 (r.2.getD [])

/-- CREDIT_AUDIT_SEND: the receiver's FREED. Over an interposer link the part is its own sender: the audit comes back to it,
intact or corrupted (R399). -/
def execCreditAuditSend (l : LinkKey) (vc : Nat) (s : State) : Step :=
  if !s.pod.credited l ∨ 4 ≤ vc then s.absent
  else
    let freed := (s.creditOf l vc).freed
    match l with
    | .port _ => .next (s.send (.audit l vc freed))
    | .interposer _ _ =>
      let d := s.draw
      .next { d.2 with inputs := d.2.inputs ++ [.creditAuditReceive l vc freed (Config.freeBit d.1)] }

/-- CREDFIX of a link counted (R399). -/
def State.countFix (s : State) (l : LinkKey) : State :=
  let n := ((s.credfix.find? fun e => e.1 == l).map (·.2)).getD 0
  { s with credfix := (l, n + 1) :: s.credfix.filter fun e => e.1 != l }

/-- The retraining of a link, told to the host for a port (R399, R401). -/
def State.retrain (s : State) (l : LinkKey) : State :=
  let s1 := s.send (.retrain l)
  match l with
  | .port n => s1.send (.event 8 3 n)
  | .interposer _ _ => s1

/-- CRED from an audit: B - ((SENT - FREED) mod 2^16) (R399). -/
def Credit.audited (c : Credit) (freed : Nat) : Int :=
  c.buffers - (((c.sent + 65536 - freed % 65536) % 65536 : Nat) : Int)

/-- CREDIT_AUDIT_RECEIVE: a corrupted flit is dropped (R399). -/
def execCreditAuditReceive (l : LinkKey) (vc freed : Nat) (intact : Bool) (s : State) : Step :=
  if !s.pod.credited l ∨ 4 ≤ vc then s.absent
  else if !intact then .next s
  else
    let c := s.creditOf l vc
    let n := c.audited freed
    if n < 0 then .next (s.retrain l)
    else
      let s1 := s.putCredit { c with cred := n.toNat }
      .next (if n.toNat = c.cred then s1 else s1.countFix l).flush

end Sys2Proof.Machine
end

