-- ==== Sys2Proof/Machine/Window.lean ====
section
/-!
DEFINITION. The Headstock windows (15 R317), written and read: part registers, LEHRQ (17 R346), CREDFIX (21 R399), slot
tables and SLOTREJ (18 R354), URGCTL and RETIRED (18 R359), ORDCTL and ORDSTAT (21 R397), BOOTSTAT (23 R413).
-/
namespace Sys2Proof.Machine

open Sys2Proof

/-- An aligned write of `width` bytes at a register of that width. -/
def alignedAt (offset width w : Nat) : Bool := width == w && offset % w == 0

/-- LEHRQ as it is written: EN, REPLYQ, FAULTQ (R346). -/
def lehrqOf (v : Nat) : Word := BitVec.ofNat 32 v &&& 0x8FFF0FFF#32

/-- URGCTL as it is written: PW, L1PRI and SLOW; bit 0 reads 1 (R359). -/
def urgctlOf (v : Nat) : Word := (BitVec.ofNat 32 v &&& 0xF06#32) ||| 1#32

/-- URGCTL of a core. -/
def Die.urg (d : Die) (core : Nat) : Word := ((d.urgctl.find? fun e => e.1 == core).map (·.2)).getD urgctlReset

/-- ORDCTL written: EN, and LIMIT unless it is 0 (R397). -/
def ordctlOf (old : Word) (v : Nat) : Word :=
  BitVec.ofNat 32 ((if v % 65536 = 0 then old.toNat % 65536 else v % 65536) + v / 65536 % 2 * 65536)

/-- Bytes of a slot record replaced. -/
def patchRecord (r : List Byte) (off : Nat) (bs : List Byte) : List Byte := r.take off ++ bs ++ r.drop (off + bs.length)

/-- A word written in a slot table: a record that becomes valid is taken or rejected (R354). -/
def State.writeSlot (s : State) (die cluster off width v : Nat) : State :=
  let slot := off / 32
  let old := (s.slotAt die cluster slot).getD (List.replicate 32 0)
  let r := patchRecord old (off % 32) (leBytes width v)
  if recValid old then s.putSlot die cluster slot r else s.bindSlot die cluster slot r

/-- A part register written through a window; a value that R309 refuses changes nothing (R311, R317). -/
def State.writePart (s : State) (n v : Nat) : State := if 0x90 ≤ n ∧ n ≤ 0x98 then (s.putPartReg n v).getD s else s

/-- A write through the window of a compute die's Headstock; any other offset, width or alignment is ignored (R317). -/
def State.writeCompute (s : State) (die offset width v : Nat) : State :=
  let c := (offset - 0x100000) / 0x1000
  let o := (offset - 0x100000) % 0x1000
  let k := (offset - 0x200000) / 0x1000
  if offset < 0x10000 then (if alignedAt offset width 8 then s.writePart (offset / 8) v else s)
  else if offset = 0x10000 then
    (if width = 4 then s.mapDie die fun d => { d with lehrq := lehrqOf v } else s)
  else if 0x100000 ≤ offset ∧ c < 12 ∧ o < 512 then
    (if alignedAt offset width 4 || alignedAt offset width 8 then s.writeSlot die c o width v else s)
  else if 0x100000 ≤ offset ∧ c < 12 ∧ o = 0x200 ∧ width = 4 then
    s.mapDie die fun d => { d with rejected := d.rejected.filter fun e => !(e.1 == c && v.testBit e.2) }
  else if 0x200000 ≤ offset ∧ k < 48 ∧ (offset - 0x200000) % 0x1000 = 0 ∧ width = 4 then
    s.mapDie die fun d => { d with urgctl := (k, urgctlOf v) :: d.urgctl.filter fun e => e.1 != k }
  else s

/-- A write through the window of a package Headstock; the hub's registers lie on die 8 alone (R317, R397). -/
def State.writePackage (s : State) (die offset width v : Nat) : State :=
  if offset < 0x10000 then (if alignedAt offset width 8 then s.writePart (offset / 8) v else s)
  else if die = 8 ∧ offset = 0x10000 ∧ width = 4 then
    { s with hub := { s.hub with ordctl := ordctlOf s.hub.ordctl v } }.injectWork.deliver
  else if die = 8 ∧ offset = 0x10008 ∧ width = 8 then
    { s with hub := { s.hub with
      lateDrop := (BitVec.ofNat 32 s.hub.lateDrop &&& ~~~(BitVec.ofNat 32 v)).toNat } }
  else s

/-! ### Reads -/

/-- The units of a core by resident-group position: its crews by slot, their groups in order (R359; log entry 60). -/
def State.residents (s : State) (die core : Nat) : List Agent :=
  (List.range 17).flatMap fun i =>
    (s.allCrews.filter fun c => c.socket == die && c.cluster == core / 4 && c.slot == i).flatMap fun c =>
      c.agents.filter fun a => !a.unit.gaffer &&
        ((c.gangs[a.unit.gang]?).map fun g => g.core == core % 4).getD false

/-- A RETIRED register; 0 where no group holds the position (R359). -/
def State.retiredAt (s : State) (die core i : Nat) : Nat := ((s.residents die core)[i]?.map (·.retired)).getD 0

/-- SLOTREJ of a cluster (R354). -/
def Die.slotrej (d : Die) (cluster : Nat) : Nat :=
  (((d.rejected.filter fun e => e.1 == cluster && decide (e.2 < 16)).map (·.2)).eraseDups.map fun i => 2 ^ i).sum

/-- CREDFIX of a link (R399). -/
def State.credfixOf (s : State) (l : LinkKey) : Nat := ((s.credfix.find? fun e => e.1 == l).map (·.2)).getD 0

/-- ORDSTAT: the stalled ports and the late drops (R397). -/
def Hub.ordstat (h : Hub) : Nat :=
  (((h.ports.filter (·.stalled)).map (·.num)).eraseDups.map fun p => 2 ^ (32 + p)).sum + h.lateDrop % 2 ^ 32

/-- A part register read through a window (R311, R317). -/
def State.readPart (s : State) (n : Nat) : Nat :=
  if n = 0x80 ∨ n = 0x81 ∨ (0x90 ≤ n ∧ n ≤ 0x98) then s.partReg n else 0

/-- A read through the window of a compute die's Headstock; any other offset, width or alignment reads as 0 (R317). -/
def State.readCompute (s : State) (die offset width : Nat) : Nat :=
  let d := s.dieAt die
  let c := (offset - 0x100000) / 0x1000
  let o := (offset - 0x100000) % 0x1000
  let k := (offset - 0x200000) / 0x1000
  let g := (offset - 0x200000) % 0x1000
  if offset < 0x10000 then (if alignedAt offset width 8 then s.readPart (offset / 8) else 0)
  else if offset = 0x10000 then (if width = 4 then d.lehrq.toNat else 0)
  else if 0x10100 ≤ offset ∧ offset < 0x10140 then
    (if alignedAt offset width 8 then s.credfixOf (.interposer die ((offset - 0x10100) / 8)) else 0)
  else if 0x100000 ≤ offset ∧ c < 12 ∧ o < 512 then
    (if alignedAt offset width 4 || alignedAt offset width 8 then
      fieldAt ((s.slotAt die c (o / 32)).getD []) (o % 32) width else 0)
  else if 0x100000 ≤ offset ∧ c < 12 ∧ o = 0x200 ∧ width = 4 then d.slotrej c
  else if 0x200000 ≤ offset ∧ k < 48 ∧ g = 0 ∧ width = 4 then (d.urg k).toNat
  else if 0x200000 ≤ offset ∧ k < 48 ∧ 0x100 ≤ g ∧ g < 0x180 ∧ alignedAt g width 4 then
    s.retiredAt die k ((g - 0x100) / 4)
  else 0

/-- A read through the window of a package Headstock (R317). -/
def State.readPackage (s : State) (die offset width : Nat) : Nat :=
  if offset < 0x10000 then (if alignedAt offset width 8 then s.readPart (offset / 8) else 0)
  else if die = 8 ∧ offset = 0x10000 ∧ width = 4 then s.hub.ordctl.toNat
  else if die = 8 ∧ offset = 0x10008 ∧ width = 8 then s.hub.ordstat
  else if 0x10100 ≤ offset ∧ offset < 0x10200 then
    (if alignedAt offset width 8 then s.credfixOf (.port ((offset - 0x10100) / 8)) else 0)
  else if offset = 0x10400 ∧ width = 4 then s.boot.stat
  else 0

/-- What a Headstock reads at an offset of its die's window: no row of the table makes the access, and the state is as it
was (R317). -/
def State.readWindow (s : State) (die offset width : Nat) : Nat :=
  if die < 8 then s.readCompute die offset width else s.readPackage die offset width

/-- REGISTER_WRITE: `value` is `width` bytes (R317). -/
def execRegisterWrite (die offset width value : Nat) (s : State) : Step :=
  let v := value % 2 ^ (8 * width)
  if 10 ≤ die ∨ 2 ^ 26 ≤ offset then s.absent
  else .next (if die < 8 then s.writeCompute die offset width v else s.writePackage die offset width v)

end Sys2Proof.Machine
end

