-- ==== Sys2Proof/Machine/Errors.lean ====
section
/-!
DEFINITION. Hardware errors (19 R380, R381) and power limits (23 R426).
-/
namespace Sys2Proof.Machine

open Sys2Proof

/-- CORRECTED_ERROR: the Headstock is told (R380). -/
def execCorrectedError (die : Nat) (s : State) : Step :=
  if 10 ≤ die then s.absent else .next (s.send (.headstock (.corrected die)))

/-- A sector poisoned. -/
def State.poisonSector (s : State) (sector : Nat) : State :=
  if s.pois.contains sector then s else { s with pois := sector :: s.pois }

/-- UNCORRECTABLE_DATA_ERROR (R380). -/
def execUncorrectableDataError (pa : Nat) (s : State) : Step :=
  match canonical pa with
  | none => s.absent
  | some ca => .next (s.poisonSector (ca / 256))

/-! ### Errors in core state (R381) -/

/-- A crew has a gang on the failed core, or is on the failed cluster. -/
def errorHits (e : CoreError) (c : Crew) : Bool :=
  c.socket == e.die && c.cluster == e.cluster && (match e.core with
    | none => true
    | some j => c.gangs.any fun g => g.core == j)

/-- A gang with poisoned sectors added. -/
def Gang.poisonSectors (ks : List Nat) (g : Gang) : Gang := { g with pois := g.pois ++ ks }

/-- The scratchpad sectors that cannot be read, poisoned (R374, R381). -/
def Crew.poisonScr (bad : List (CrewKey × Nat × Nat)) (c : Crew) : Crew :=
  { c with gangs := c.gangs.mapIdx fun i g =>
      g.poisonSectors ((bad.filter fun b => b.1 == c.key && b.2.1 == i).map fun b => b.2.2) }

/-- The state that cannot be read is recorded as poisoned: POIS, SPOIS, a sector in L2 (R381 step 2). -/
def State.poisonCore (s : State) (e : CoreError) : State :=
  let s1 := e.badLines.foldl State.poisonSector s
  let s2 := s1.mapUnits fun k a => if e.badUnits.contains ⟨k, a.unit⟩ then { a with pois := true } else a
  { s2 with
    crew := s2.crew.poisonScr e.badSectors
    crews := s2.crews.map (Crew.poisonScr e.badSectors) }

/-- A core-map word without the failed core, or without V for a failed cluster (R381 step 3). -/
def fenceWord (e : CoreError) (w : Nat) : Nat :=
  if w / 2 ^ 24 % 128 = e.die * 16 + e.cluster then
    match e.core with
    | none => w % 2 ^ 31
    | some j => if w.testBit (20 + j) then w - 2 ^ (20 + j) else w
  else w

/-- The core map of a context edited. -/
def State.fenceMap (e : CoreError) (s : State) (c : Context) : State :=
  (List.range c.nlc).foldl (fun t l =>
    let w := t.mapWord c l
    if fenceWord e w = w then t else t.putPhys (c.cmap + 4 * l) (leBytes 4 (fenceWord e w))) s

/-- The cores of a cluster that no error has fenced. -/
def State.goodCores (s : State) (die cluster : Nat) : List Nat :=
  (List.range 4).filter fun j => !s.fenced.contains (die, 4 * cluster + j)

/-- A cluster of the partition that no entry of a core map names and that has enough good cores. -/
def State.spareCluster (s : State) (c : Context) (gangs : Nat) : Option (Nat × Nat) :=
  let pm := s.partmap.toArray.getD c.part 0
  (((List.range 8).filter fun d => pm.getLsbD d).flatMap fun d => (List.range 12).map fun k => (d, k)).find? fun x =>
    decide (gangs ≤ (s.goodCores x.1 x.2).length) && (List.range c.nlc).all fun l =>
      !(s.mapWord c l).testBit 31 || s.mapWord c l / 2 ^ 24 % 128 != x.1 * 16 + x.2

/-- The entry of a logical cluster that no longer fits a crew points at another cluster (R381 step 4). -/
def State.repoint (s : State) (c : Context) (l gangs : Nat) : State :=
  if ((s.mapEntry c l).map fun e => decide (gangs ≤ e.cores.length)).getD false then s
  else
    match s.spareCluster c gangs with
    | none => s
    | some x =>
      let cores := ((s.goodCores x.1 x.2).map fun j => 2 ^ (20 + j)).sum
      s.putPhys (c.cmap + 4 * l) (leBytes 4 (2 ^ 31 + x.1 * 2 ^ 28 + x.2 * 2 ^ 24 + cores))

/-- The cores that an error fences. -/
def errorCores (e : CoreError) : List (Nat × Nat) :=
  (match e.core with
    | none => List.range 4
    | some j => [j]).map fun j => (e.die, 4 * e.cluster + j)

/-- The area that firmware gives a crew. -/
def errorArea (e : CoreError) (k : CrewKey) : Option Nat := (e.areas.find? fun a => a.1 == k).map (·.2)

/-- Every crew that the error hits saved, or on its way to be saved, in its area; one that is being saved already goes on to its
own (R370, R381 step 2). -/
def State.saveHit (s : State) (e : CoreError) : List Crew → Option State
  | [] => some s
  | c :: cs =>
    if c.area.isSome then State.saveHit s e cs
    else
    match errorArea e c.key with
    | none => none
    | some a =>
      match s.preempt c.key a with
      | .next t => State.saveHit t e cs
      | _ => none

/-- CORE_STATE_ERROR (R381): the crews are saved, the core map edited, and the crews wait in the slot table's firmware for
their restore. -/
def execCoreStateError (e : CoreError) (s : State) : Step :=
  let hit := s.allCrews.filter (errorHits e)
  if 8 ≤ e.die ∨ 12 ≤ e.cluster ∨ 4 ≤ e.core.getD 0 then s.absent
  else
    match (s.poisonCore e).saveHit e hit with
    | none => s.absent
    | some s1 =>
      let s2 := { s1 with fenced := s1.fenced ++ (errorCores e).filter fun x => !s1.fenced.contains x }
      let s3 := s2.allCtxs.foldl (State.fenceMap e) s2
      let s4 := hit.foldl (fun t c =>
        match t.ctxAt c.key.ctx with
        | none => t
        | some x => t.repoint x c.lcl c.gangs.length) s3
      .next (s4.send (.headstock (.fenced e.die e.cluster e.core)))

/-- POWER_THERMAL_LIMIT: the die lowers its own clock, which changes time only (R426). -/
def execPowerThermalLimit (die : Nat) (s : State) : Step := if 10 ≤ die then s.absent else .next s

end Sys2Proof.Machine
end

