-- ==== Sys2Proof/Machine/FloatVec.lean ====
section
/-!
DEFINITION. The vector floating-point instructions (08 R191 to R200).
-/
namespace Sys2Proof.Machine

open Sys2Proof

/-- A raw result as a lane word with its flags. -/
def lane32 (r : Nat × Flags) : Word × Flags := (BitVec.ofNat 32 r.1, r.2)

/-- The two halves of a word, each worked on alone; flags ORed (R200). -/
def halves (f : Nat → Nat → Nat → Nat × Flags) (a b d : Word) : Word × Flags :=
  let lo := f (a.toNat % 65536) (b.toNat % 65536) (d.toNat % 65536)
  let hi := f (a.toNat / 65536) (b.toNat / 65536) (d.toNat / 65536)
  (BitVec.ofNat 32 (lo.1 % 65536 + hi.1 * 65536), lo.2 ||| hi.2)

/-- The half format of a TV code (R200). -/
def halfFmt (tv : BitVec 3) : FFmt := if tv = 1 then bf16 else fp16

/-- A float condition (R194): truth and flags. -/
def fcond (c : BitVec 4) (a b : Nat) : Bool × Flags :=
  let un := fp32.isNan a || fp32.isNan b
  let o := cmpNum (fp32.unpack a) (fp32.unpack b)
  let k := c.toNat
  let sig := decide (2 ≤ k) && decide (k ≤ 5)
  let fl : Flags := if sig && un then flagNV else 0
  let rel : Nat → Bool := fun j => match j with
    | 2 => decide (o < 0)
    | 3 => decide (o ≤ 0)
    | 4 => decide (0 < o)
    | _ => decide (0 ≤ o)
  match k with
  | 0 => (!un && o == 0, fl)
  | 1 => (un || o != 0, fl)
  | 6 => (!un, fl)
  | 7 => (un, fl)
  | _ => (!un && rel (if 8 ≤ k then k - 6 else k), fl)

/-- The class of an FP32 value (R195). -/
def fclassOf (a : Word) : Nat :=
  let neg := a.getLsbD 31
  let e := a.toNat / 2 ^ 23 % 256
  let t := a.toNat % 2 ^ 23
  if e = 255 then (if t = 0 then (if neg then 0 else 7) else if 2 ^ 22 ≤ t then 9 else 8)
  else if e = 0 then (if t = 0 then (if neg then 3 else 4) else if neg then 2 else 5)
  else if neg then 1 else 6

/-- a with its sign bit set to `neg`; a NaN quieted (R192). -/
def withSign (neg : Bool) (a : Word) : Word :=
  let q := if fp32.isNan a.toNat then a ||| 0x400000 else a
  if neg then q ||| 0x80000000 else q &&& 0x7FFFFFFF

/-- FCVT codes that keep part of D (R197, R198). -/
def fcvtReadsD (b : BitVec 7) : Bool :=
  (decide (4 ≤ b.toNat) && decide (b.toNat ≤ 7)) || (decide (0x40 ≤ b.toNat) && decide (b.toNat < 0x60))

/-- The HMOD fields of a conversion (R197, R198). -/
def fcvtUse (b : BitVec 7) : HmodUse :=
  if b.toNat < 4 then { rnd := true }
  else if b.toNat < 8 then { rnd := true, sat := true }
  else if b.toNat < 0x40 then {}
  else if b.toNat < 0x60 then { rnd := true, sat := true, tv := [1, 2, 3] }
  else { tv := [1, 2, 3] }

/-- The halves of a word replaced by a 16-bit value. -/
def putHalf (hi : Bool) (d : Word) (h : Nat) : Word :=
  if hi then BitVec.ofNat 32 (d.toNat % 65536 + h % 65536 * 65536)
  else BitVec.ofNat 32 (d.toNat / 65536 * 65536 + h % 65536)

/-- Byte `k` of a word replaced (R198). -/
def putByte (k : Nat) (d : Word) (v : Nat) : Word :=
  let m : Word := (0xFF : Word) <<< (8 * k)
  (d &&& ~~~m) ||| (BitVec.ofNat 32 (v % 256) <<< (8 * k))

/-- FCVT in one lane (R197, R198): code `b`, TV `tv`, mode, saturation. -/
def fcvtLane (b : BitVec 7) (tv : BitVec 3) (rm : Rm) (sat : Bool) (a d : Word) : Word × Flags :=
  let n := a.toNat
  let keep (hi : Bool) (r : Nat × Flags) : Word × Flags := (putHalf hi d r.1, r.2)
  if 0x40 ≤ b.toNat then
    let f := B8.ofBits b.toNat
    let k := tv.toNat
    if b.getLsbD 5 then
      lane32 (numToFp32 rm (f.decode (n / 2 ^ (8 * k) % 256)))
    else
      let r := f.encode rm sat (fp32.unpack n)
      (putByte k d r.1, r.2)
  else
    match b.toNat with
    | 0 => let r := fp32.toInt rm (-(2 ^ 31)) (2 ^ 31 - 1) n; (BitVec.ofInt 32 r.1, r.2)
    | 1 => let r := fp32.toInt rm 0 (2 ^ 32 - 1) n; (BitVec.ofInt 32 r.1, r.2)
    | 2 => lane32 (fp32.ofInt rm a.toInt)
    | 3 => lane32 (fp32.ofInt rm a.toNat)
    | 4 => keep false (narrow fp16 rm sat n)
    | 5 => keep true (narrow fp16 rm sat n)
    | 6 => keep false (narrow bf16 rm sat n)
    | 7 => keep true (narrow bf16 rm sat n)
    | 8 => (BitVec.ofNat 32 (widen fp16 (n % 65536)), 0)
    | 9 => (BitVec.ofNat 32 (widen fp16 (n / 65536)), 0)
    | 10 => (BitVec.ofNat 32 (widen bf16 (n % 65536)), 0)
    | _ => (BitVec.ofNat 32 (widen bf16 (n / 65536)), 0)

/-- HMOD use: RND and SAT. -/
abbrev useRndSat : HmodUse := { rnd := true, sat := true }
/-- HMOD use of the packed halves (R200). -/
abbrev useHalf : HmodUse := { rnd := true, sat := true, tv := [1] }
/-- HMOD use of FMIN and FMAX (R193). -/
abbrev useNum : HmodUse := { tv := [1] }

/-- A floating instruction computed lane by lane, with flags (R191). -/
def State.fOp (s : State) (w : Word) (h : HmodUse) (g : BitVec 3) (d a : BitVec 7) (b : BSrc) (readsD : Bool)
    (f : Word → Word → Word → Word × Flags) : Step :=
  s.vec w { hmod := h } false (s.part g) d a b readsD (laneFlags (s.part g) f)

/-- FADD (R192). -/
def execFadd (g : BitVec 3) (d a b : BitVec 7) (s : State) : Step :=
  s.fOp (encode (.fadd g d a b)) useRndSat g d a (.spec b) false
    fun x y _ => lane32 (fp32.add s.rm s.sat s.zc x.toNat y.toNat)
/-- FSUB (R192). -/
def execFsub (g : BitVec 3) (d a b : BitVec 7) (s : State) : Step :=
  s.fOp (encode (.fsub g d a b)) useRndSat g d a (.spec b) false
    fun x y _ => lane32 (fp32.sub s.rm s.sat s.zc x.toNat y.toNat)
/-- FMUL (R192). -/
def execFmul (g : BitVec 3) (d a b : BitVec 7) (s : State) : Step :=
  s.fOp (encode (.fmul g d a b)) useRndSat g d a (.spec b) false
    fun x y _ => lane32 (fp32.mul s.rm s.sat x.toNat y.toNat)
/-- FDIV, correctly rounded (R66, R67, R192). -/
def execFdiv (g : BitVec 3) (d a b : BitVec 7) (s : State) : Step :=
  s.fOp (encode (.fdiv g d a b)) useRndSat g d a (.spec b) false
    fun x y _ => lane32 (fp32.div s.rm s.sat x.toNat y.toNat)
/-- FFMA: Round(a * b + d) (R192). -/
def execFfma (g : BitVec 3) (d a b : BitVec 7) (s : State) : Step :=
  s.fOp (encode (.ffma g d a b)) useRndSat g d a (.spec b) true
    fun x y z => lane32 (fp32.fma s.rm s.sat s.zc false x.toNat y.toNat z.toNat)
/-- FFMS: Round(d - a * b) (R192). -/
def execFfms (g : BitVec 3) (d a b : BitVec 7) (s : State) : Step :=
  s.fOp (encode (.ffms g d a b)) useRndSat g d a (.spec b) true
    fun x y z => lane32 (fp32.fma s.rm s.sat s.zc true x.toNat y.toNat z.toNat)
/-- FMIN (R193). -/
def execFmin (g : BitVec 3) (d a b : BitVec 7) (s : State) : Step :=
  s.fOp (encode (.fmin g d a b)) useNum g d a (.spec b) false
    fun x y _ => (BitVec.ofNat 32 (fp32.minMax false (s.hmod.tv == 1) x.toNat y.toNat), 0)
/-- FMAX (R193). -/
def execFmax (g : BitVec 3) (d a b : BitVec 7) (s : State) : Step :=
  s.fOp (encode (.fmax g d a b)) useNum g d a (.spec b) false
    fun x y _ => (BitVec.ofNat 32 (fp32.minMax true (s.hmod.tv == 1) x.toNat y.toNat), 0)
/-- FCMP: a predicate, NV under a signalling condition with a NaN (R194). -/
def execFcmp (g : BitVec 3) (c : BitVec 4) (p : BitVec 3) (a b : BitVec 7) (s : State) : Step :=
  s.vecP (encode (.fcmp g c p a b)) {} false (s.part g) p a (.spec b)
    fun x y => (Mask.ofTest fun n => (fcond c (x.at n).toNat (y.at n).toNat).1,
      orFlags (s.part g) fun n => (fcond c (x.at n).toNat (y.at n).toNat).2)
/-- FCLASS: the bit of the mask that the class selects (R195). -/
def execFclass (g : BitVec 3) (p : BitVec 3) (a b : BitVec 7) (s : State) : Step :=
  s.vecP (encode (.fclass g p a b)) {} false (s.part g) p a (.spec b)
    (lanePred fun x y => y.getLsbD (fclassOf x))
/-- FSFU: a special function, correctly rounded (R66, R67, R196). -/
def execFsfu (g : BitVec 3) (d a b : BitVec 7) (s : State) : Step :=
  let w := encode (.fsfu g d a b)
  s.markLong.fOp w useRndSat g d a .none false
    fun x _ _ => lane32 (specialFn b.toNat s.rm s.sat x.toNat)
/-- FCVT: a conversion (R197, R198); its binary8 codes belong to feature B8 (R418). -/
def execFcvt (g : BitVec 3) (d a b : BitVec 7) (s : State) : Step :=
  s.vec (encode (.fcvt g d a b)) { hmod := fcvtUse b, feat := if 0x40 ≤ b.toNat then 1 else 0 } false (s.part g)
    d a .none (fcvtReadsD b)
    (laneFlags (s.part g) fun x _ z => fcvtLane b s.hmod.tv s.rm s.sat x z)
/-- FRND: an integral value; code 1 raises IX (R199). -/
def execFrnd (g : BitVec 3) (d a b : BitVec 7) (s : State) : Step :=
  s.fOp (encode (.frnd g d a b)) { rnd := true } g d a .none false
    fun x _ _ => lane32 (frnd s.rm (b == 1) x.toNat)
/-- HADD2 (R200). -/
def execHadd2 (g : BitVec 3) (d a b : BitVec 7) (s : State) : Step :=
  s.fOp (encode (.hadd2 g d a b)) useHalf g d a (.spec b) false
    fun x y z => halves (fun p q _ => (halfFmt s.hmod.tv).add s.rm s.sat s.zc p q) x y z
/-- HMUL2 (R200). -/
def execHmul2 (g : BitVec 3) (d a b : BitVec 7) (s : State) : Step :=
  s.fOp (encode (.hmul2 g d a b)) useHalf g d a (.spec b) false
    fun x y z => halves (fun p q _ => (halfFmt s.hmod.tv).mul s.rm s.sat p q) x y z
/-- HFMA2 (R200). -/
def execHfma2 (g : BitVec 3) (d a b : BitVec 7) (s : State) : Step :=
  s.fOp (encode (.hfma2 g d a b)) useHalf g d a (.spec b) true
    fun x y z => halves (fun p q r => (halfFmt s.hmod.tv).fma s.rm s.sat s.zc false p q r) x y z
/-- HDOT2: d + both half products, rounded once (R69, R200). -/
def execHdot2 (g : BitVec 3) (d a b : BitVec 7) (s : State) : Step :=
  s.fOp (encode (.hdot2 g d a b)) useHalf g d a (.spec b) true
    fun x y z => lane32 (hdot2 (halfFmt s.hmod.tv) s.rm s.sat s.zc x.toNat y.toNat z.toNat)
/-- FADDX: the rounding error of a + b (R68). -/
def execFaddx (g : BitVec 3) (d a b : BitVec 7) (s : State) : Step :=
  s.fOp (encode (.faddx g d a b)) {} g d a (.spec b) false fun x y _ => lane32 (fp32.addErr x.toNat y.toNat)
/-- FMULX: the rounding error of a * b (R68). -/
def execFmulx (g : BitVec 3) (d a b : BitVec 7) (s : State) : Step :=
  s.fOp (encode (.fmulx g d a b)) {} g d a (.spec b) false fun x y _ => lane32 (fp32.mulErr x.toNat y.toNat)
/-- FABS (R192). -/
def execFabs (g : BitVec 3) (d a : BitVec 7) (s : State) : Step :=
  s.fOp (encode (.fabs g d a)) {} g d a .none false fun x _ _ => (withSign false x, 0)
/-- FNEG (R192). -/
def execFneg (g : BitVec 3) (d a : BitVec 7) (s : State) : Step :=
  s.fOp (encode (.fneg g d a)) {} g d a .none false fun x _ _ => (withSign (!x.getLsbD 31) x, 0)
/-- FSCALE: Round(a * 2^b) (R192). -/
def execFscale (g : BitVec 3) (d a b : BitVec 7) (s : State) : Step :=
  s.fOp (encode (.fscale g d a b)) useRndSat g d a (.spec b) false
    fun x y _ => lane32 (fp32.scale s.rm s.sat x.toNat y.toInt)

end Sys2Proof.Machine
end

