-- ==== Sys2Proof/Machine/LaneVec.lean ====
section
/-!
DEFINITION. The cross-lane instructions, moves, predicates and group state (02 R70, R71, R73; 08 R201 to R211).
-/
namespace Sys2Proof.Machine

open Sys2Proof

/-! ### Tiles, trees and scans -/

/-- The first lane of the tile of lane `n` (R38). -/
def tileBase (w n : Nat) : Nat := n - n % w

/-- Two partials combined; an empty one passes the other through (R70, R71). -/
def optComb {β : Type} (comb : β → β → β) : Option β → Option β → Option β
  | none, y => y
  | x, none => x
  | some x, some y => some (comb x y)

/-- The pairwise tree over the 2^k lanes from lane `n`, the lower range on the left (R70). -/
def treeOf {β : Type} (comb : β → β → β) (leaf : Nat → Option β) : Nat → Nat → Option β
  | 0, n => leaf n
  | k + 1, n => optComb comb (treeOf comb leaf k n) (treeOf comb leaf k (n + 2 ^ k))

/-- The value of lane `n` after `j` steps of the inclusive scan of the tile at `base` (R71). -/
def scanOf {β : Type} (comb : β → β → β) (leaf : Nat → Option β) (base : Nat) : Nat → Nat → Option β
  | 0, n => leaf n
  | j + 1, n =>
    if base + 2 ^ j ≤ n then optComb comb (scanOf comb leaf base j (n - 2 ^ j)) (scanOf comb leaf base j n)
    else scanOf comb leaf base j n

/-- The partial of a lane: its tile's tree for a reduction, its own prefix for a scan; 2^k lanes to a tile. -/
def lanePartial {β : Type} (scan : Bool) (k : Nat) (comb : β → β → β) (leaf : Nat → Option β) (n : Nat) : Option β :=
  if scan then scanOf comb leaf (tileBase (2 ^ k) n) k n else treeOf comb leaf k (tileBase (2 ^ k) n)

/-- The integer operation of a REDL or SCANL code (R204). -/
def redInt (op : Nat) (x y : Word) : Word :=
  match op with
  | 0 => x + y
  | 1 => minLane false x y
  | 2 => maxLane false x y
  | 3 => minLane true x y
  | 4 => maxLane true x y
  | 5 => x &&& y
  | 6 => x ||| y
  | _ => x ^^^ y

/-- REDL and SCANL over the participating lanes (R204, R205). -/
def redIntLanes (scan : Bool) (op k : Nat) (m : Mask) (a _b _d : Lanes) : LaneRes :=
  let leaf (n : Nat) : Option Word := if m.has n then some (a.at n) else none
  .ok (Lanes.tab fun n => (lanePartial scan k (redInt op) leaf n).getD 0, 0)

/-- A partial of a floating reduction: its value, the lane of its lowest NaN input, the flags of its combines (R73). -/
structure FPart where
  val : Nat
  nan : Option Nat
  flags : Flags
  deriving DecidableEq, Repr

/-- The lower of two indices of NaN inputs (R73). -/
def lowerIx : Option Nat → Option Nat → Option Nat
  | none, y => y
  | x, none => x
  | some x, some y => some (min x y)

/-- One combine of FREDL or FSCANL (R73, R204). -/
def combFloat (op : Nat) (rm : Rm) (zc : Bool) (x y : FPart) : FPart :=
  match lowerIx x.nan y.nan with
  | some i => ⟨x.val, some i, x.flags ||| y.flags⟩
  | none =>
    let r := if op = 0 then fp32.add rm false zc x.val y.val
      else (fp32.minMax (op == 2) false x.val y.val, 0)
    ⟨r.1, none, x.flags ||| y.flags ||| r.2⟩

/-- The input of a lane as a partial (R73). -/
def floatLeaf (m : Mask) (a : Lanes) (n : Nat) : Option FPart :=
  if m.has n then some ⟨(a.at n).toNat, if fp32.isNan (a.at n).toNat then some n else none, 0⟩ else none

/-- The result of a partial: the quieted NaN of its lowest NaN input, or its value (R73). -/
def FPart.result (a : Lanes) (p : FPart) : Word :=
  match p.nan with
  | some i => BitVec.ofNat 32 (fp32.quiet (a.at i).toNat)
  | none => BitVec.ofNat 32 p.val

/-- FREDL and FSCANL over the participating lanes; flags of the participants' partials (R191, R204, R205), with those of every
combine that such a partial is made of (DEDUCED, log entry 82). -/
def redFloatLanes (scan : Bool) (op k : Nat) (rm : Rm) (zc : Bool) (m : Mask) (a _b _d : Lanes) : LaneRes :=
  let part (n : Nat) := (lanePartial scan k (combFloat op rm zc) (floatLeaf m a) n).getD ⟨0, none, 0⟩
  .ok (Lanes.tab fun n => (part n).result a, orFlags m fun n => (part n).flags)

/-- The lane that SHFL reads (R202). -/
def shflSource (mode w n k : Nat) : Nat :=
  let t := tileBase w n
  match mode with
  | 0 => t + k % w
  | 1 => if k ≤ n - t then n - k else n
  | 2 => if k ≤ t + w - 1 - n then n + k else n
  | _ => n ^^^ (k % w)

/-- The participants of lane `n`'s tile whose value is not zero (R203). -/
def tileVotes (w : Nat) (m : Mask) (a : Lanes) (n : Nat) : Mask :=
  Mask.ofTest fun j => m.has j && decide (tileBase w j = tileBase w n) && a.at j != 0

/-- The participants of lane `n`'s tile (R203). -/
def tileParts (w : Nat) (m : Mask) (n : Nat) : Mask :=
  Mask.ofTest fun j => m.has j && decide (tileBase w j = tileBase w n)

/-- The vote of lane `n`'s tile: mode 0 all, 1 any, 2 uniform (R203). -/
def voteOf (mode w : Nat) (m : Mask) (a : Lanes) (n : Nat) : Bool :=
  let q := tileVotes w m a n
  let all := tileParts w m n
  match mode with
  | 0 => q == all
  | 1 => q != 0
  | _ => q == 0 || q == all

/-! ### Meanings -/

/-- The tile width in force (R37). -/
def State.tile (s : State) : Nat := tileWidth s.self.regs.tile

/-- MOV: a bit for bit (R206). -/
def execMov (g : BitVec 3) (d a : BitVec 7) (s : State) : Step :=
  s.intOp (encode (.mov g d a)) {} g d a .none false fun x _ _ => x
/-- MOVI: the immediate (R206). -/
def execMovi (g : BitVec 3) (d : BitVec 7) (i : BitVec 8) (s : State) : Step :=
  s.intOp (encode (.movi g d i)) {} g d 0x78 (.imm i) false fun _ y _ => y
/-- SHFL: a value of another lane of the tile (R202). -/
def execShfl (g : BitVec 3) (d a b : BitVec 7) (s : State) : Step :=
  s.vec (encode (.shfl g d a b)) (vecNeeds { tv := [1, 2, 3] }) false (s.part g) d a (.spec b) false
    fun x y _ => .ok (Lanes.tab fun n => x.at (shflSource s.hmod.tv.toNat s.tile n (y.at n).toNat), 0)
/-- VOTE: a predicate over each tile's participants (R203). -/
def execVote (g : BitVec 3) (m : BitVec 4) (p : BitVec 3) (a : BitVec 7) (s : State) : Step :=
  s.vecP (encode (.vote g m p a)) (vecNeeds {}) false (s.part g) p a .none
    fun x _ => (Mask.ofTest fun n => voteOf m.toNat s.tile (s.part g) x n, 0)
/-- BALLOT: the mask of the tile's participants with a non-zero value (R203). -/
def execBallot (g : BitVec 3) (d a : BitVec 7) (s : State) : Step :=
  s.vec (encode (.ballot g d a)) (vecNeeds {}) false (s.part g) d a .none false
    fun x _ _ => .ok (Lanes.tab fun n => tileVotes s.tile (s.part g) x n, 0)
/-- REDL: an integer reduction of each tile (R204). -/
def execRedl (g : BitVec 3) (d a b : BitVec 7) (s : State) : Step :=
  s.vec (encode (.redl g d a b)) (vecNeeds {}) false (s.part g) d a .none false
    (redIntLanes false b.toNat s.self.regs.tile.toNat (s.part g))
/-- FREDL: a floating reduction of each tile; RND with .add only (R204). -/
def execFredl (g : BitVec 3) (d a b : BitVec 7) (s : State) : Step :=
  s.vec (encode (.fredl g d a b)) (vecNeeds { rnd := b == 0 }) false (s.part g) d a .none false
    (redFloatLanes false b.toNat s.self.regs.tile.toNat s.rm s.zc (s.part g))
/-- SCANL: an inclusive integer scan of each tile (R205). -/
def execScanl (g : BitVec 3) (d a b : BitVec 7) (s : State) : Step :=
  s.vec (encode (.scanl g d a b)) (vecNeeds {}) false (s.part g) d a .none false
    (redIntLanes true b.toNat s.self.regs.tile.toNat (s.part g))
/-- FSCANL: an inclusive floating scan of each tile (R205). -/
def execFscanl (g : BitVec 3) (d a b : BitVec 7) (s : State) : Step :=
  s.vec (encode (.fscanl g d a b)) (vecNeeds { rnd := b == 0 }) false (s.part g) d a .none false
    (redFloatLanes true b.toNat s.self.regs.tile.toNat s.rm s.zc (s.part g))

/-- A tile code that is not reserved, in a word with no other bit set (R37, R207). -/
def tileCodeOk (v : Word) : Bool := decide (1 ≤ v.toNat) && decide (v.toNat ≤ 5)

/-- PART: the tile width from B in the lowest lane of P (R207). TMASK of its trap is every lane that executes, as the instruction
is uniform (R165; DEDUCED, log entry 81). -/
def execPart (g : BitVec 3) (b : BitVec 7) (s : State) : Step :=
  let w := encode (.part g b)
  let m := s.self.cur.lanes
  s.uniformFrame w g
    [s.issueCheck (vecNeeds {}) false w m, operandIf (s.badSource b) w 2 m, s.bounds b 1 m] [b]
    fun s1 ps =>
      let v := (s.readV ps b).at (s.part g).lowest
      if tileCodeOk v then .done (s1.mapRegs fun r => { r with tile := v.setWidth 3 })
      else .trap s1 (Trap.at .illegalOperand (operandVal w 2) m)

/-- The function of PLOP (R208). -/
def plopFn (f : BitVec 4) (x y : Mask) : Mask :=
  match f.toNat with
  | 0 => x &&& y
  | 1 => x ||| y
  | 2 => x ^^^ y
  | 3 => x &&& ~~~y
  | 4 => ~~~x
  | _ => x

/-- PLOP: predicates combined (R208). -/
def execPlop (g : BitVec 3) (f : BitVec 4) (d a b : BitVec 3) (s : State) : Step :=
  let w := encode (.plop g f d a b)
  s.frame w (s.part g) [s.issueCheck (vecNeeds {}) false w (s.part g)] []
    fun s1 _ => .done (s1.putP d (s.part g) (plopFn f (s.self.regs.pred a) (s.self.regs.pred b)))

/-- The predicates of lane `n` as PMOV.get reads them (R209). -/
def Regs.predBits (r : Regs) (n : Nat) : Word :=
  (List.range 7).foldl (fun x i => if (r.pred (BitVec.ofNat 3 (i + 1))).has n then x ||| ((2 : Word) <<< i) else x) 1

/-- Predicates p1 to p7 set from lane values in the lanes of a mask (R209). -/
def Regs.setPreds (r : Regs) (m : Mask) (a : Lanes) : Regs :=
  (List.range 7).foldl (fun x i =>
    x.putP (BitVec.ofNat 3 (i + 1)) m (Mask.ofTest fun n => (a.at n).getLsbD (i + 1))) r

/-- PMOV: predicates or FPC moved, in the form of TV; the FPC forms wait for an empty replay queue (R209). -/
def execPmov (g : BitVec 3) (d a b : BitVec 7) (s : State) : Step :=
  let w := encode (.pmov g d a b)
  let m := s.part g
  let tv := s.hmod.tv.toNat
  let gets := tv == 0 || tv == 2
  let unused := b != 0x78 || (if gets then a != 0x78 else d != 0x78)
  s.frame w m
    [s.issueCheck (vecNeeds { tv := [1, 2, 3] }) unused w m, operandIf (gets && s.badDest false d) w 0 m,
     operandIf (!gets && s.badSource a) w 1 m, if gets then s.bounds d 1 m else s.bounds a 1 m]
    (if gets then [] else [a])
    fun s1 ps =>
      if 2 ≤ tv ∧ !s.self.replay.isEmpty then .wait s1 .poll
      else
        let x := s.readV ps a
        match tv with
        | 0 => s1.writeDest d w m (Lanes.tab s.self.regs.predBits)
        | 1 => .done (s1.mapRegs fun r => r.setPreds m x)
        | 2 => s1.writeDest d w m (Lanes.const s.self.regs.fpc)
        | _ =>
          if m = 0 then .done s1
          else .done (s1.mapRegs fun r => { r with fpc := writeFpc r.fpc (x.at m.lowest) })

/-- IXSET: IX from the immediate (R210). TMASK of its trap is every lane that executes (R165; DEDUCED, log entry 81). -/
def execIxset (g : BitVec 3) (i : BitVec 8) (s : State) : Step :=
  let w := encode (.ixset g i)
  let m := s.self.cur.lanes
  let v := (s.imm i 32).toNat
  s.uniformFrame w g [s.issueCheck (vecNeeds {}) false w m, operandIf (decide (255 < v)) w 5 m] []
    fun s1 _ => .done (s1.mapRegs fun r => { r with ix := v })

/-- V2S: the lowest participating lane into an s register (R211). -/
def execV2s (g : BitVec 3) (d a : BitVec 7) (s : State) : Step :=
  let w := encode (.v2s g d a)
  let m := s.part g
  s.frame w m
    [s.issueCheck (vecNeeds useUns) false w m, operandIf (!isS d) w 0 m, operandIf (s.badSource a) w 1 m,
     s.bounds a 1 m]
    [a]
    fun s1 ps =>
      let x := (s.readV ps a).at m.lowest
      if m = 0 then .done s1
      else .done (s1.putS (d.toNat - 0x40) (if s.uns then x.setWidth 64 else x.signExtend 64))

end Sys2Proof.Machine
end

