-- ==== Sys2Proof/Machine/Loader.lean ====
section
/-!
DEFINITION. LOADOBJ (23 R419 to R425): code objects, the choice of a variant (01 R10), the translation of a YPF form, and
the load of an image (06 R154, 19 R383).
-/
namespace Sys2Proof.Machine

open Sys2Proof

/-! ### Images (R421) -/

/-- A relocation entry (R421). -/
structure Reloc where
  site : Nat
  kind : Nat
  target : Nat
  deriving DecidableEq, Repr

/-- An image that is to be loaded: its feature mask, kernel header templates, text, data, relocations. -/
structure Image where
  mask : BitVec 128
  heads : List (List Byte)
  text : List Byte
  data : List Byte
  relocs : List Reloc
  deriving DecidableEq, Repr

/-- A part of a form; none where it lies outside. -/
def partOf (bs : List Byte) (off n : Nat) : Option (List Byte) :=
  if bs.length < off + n then none else some (slice bs off n)

/-- The relocation table of a form (R421). -/
def relocsOf (bs : List Byte) (n : Nat) : List Reloc :=
  (List.range n).map fun i => ⟨fieldAt bs (16 * i) 8, fieldAt bs (16 * i + 8) 4, fieldAt bs (16 * i + 12) 4⟩

/-- An image from a form whose fields have been read; `heads` is where the header templates start. -/
def imageOf (bs : List Byte) (mask : BitVec 128) (heads nkern nrel textOff textLen dataOff dataLen relOff : Nat) :
    Option Image :=
  if nkern = 0 ∨ 1024 < nkern ∨ textLen % 4 ≠ 0 then none
  else
    match partOf bs heads (64 * nkern), partOf bs textOff textLen, partOf bs dataOff dataLen,
        partOf bs relOff (16 * nrel) with
    | some h, some t, some d, some r =>
      some ⟨mask, (List.range nkern).map fun k => slice h (64 * k) 64, t, d, relocsOf r nrel⟩
    | _, _, _, _ => none

/-- A native image (R421). -/
def nativeImage (bs : List Byte) (mask : BitVec 128) : Option Image :=
  if bs.length < 0x40 ∨ !zeroAt bs 0x30 16 then none
  else
    imageOf bs mask 0x40 (fieldAt bs 0 4) (fieldAt bs 4 4) (fieldAt bs 8 8) (fieldAt bs 0x10 8) (fieldAt bs 0x18 8)
      (fieldAt bs 0x20 8) (fieldAt bs 0x28 8)

/-! ### Relocations (R383, R421) -/

/-- Bytes of a list replaced. -/
def patch (bs : List Byte) (off : Nat) (new : List Byte) : List Byte := bs.take off ++ new ++ bs.drop (off + new.length)

/-- The virtual address of a label: in the text, or in the data with bit 31. -/
def labelAddr (text data target : Nat) : Nat :=
  if target / 2 ^ 31 = 1 then data + target % 2 ^ 31 else text + target

/-- One relocation filled in: the two-HIMM form, or a 64-bit word; none where it does not fit (R383, R421). -/
def fillReloc (bs : List Byte) (off kind v : Nat) : Option (List Byte) :=
  if kind = 0 then
    if bs.length < off + 12 then none
    else some (patch (patch (patch bs off (leBytes 3 (v / 2 ^ 32 % 2 ^ 24))) (off + 4) (leBytes 3 (v / 2 ^ 8 % 2 ^ 24)))
      (off + 8) (leBytes 1 (v % 256)))
  else if kind = 1 then if bs.length < off + 8 then none else some (patch bs off (leBytes 8 v))
  else none

/-- The relocations of an image filled in, over its text and data. -/
def Image.relocate (text data : Nat) (im : Image) : Option Image :=
  im.relocs.foldl (fun o r => o.bind fun (x : Image) =>
    let v := labelAddr text data r.target
    if r.site / 2 ^ 63 = 1 then (fillReloc x.data (r.site % 2 ^ 63) r.kind v).map fun b => { x with data := b }
    else (fillReloc x.text r.site r.kind v).map fun b => { x with text := b }) (some im)

/-! ### YPF (R422 to R424) -/

/-- The word at an index of a text. -/
def textWord (text : List Byte) (i : Nat) : Word := BitVec.ofNat 32 (fieldAt text (4 * i) 4)

/-- The feature bits that an instruction word belongs to (R418). -/
def featOf : Instr → BitVec 128
  | .fcvt _ _ _ b => if b.getLsbD 6 then 2 else 1
  | .cpye _ _ _ => 2
  | .mwave _ _ => 4
  | .mback _ _ => 4
  | .osend _ _ _ => 8
  | .dbind _ _ o => if o = 1 then 8 else 1
  | .hmod s _ _ _ _ _ _ => if s = 9 then 8 else 1
  | .taska _ => 16
  | .redp _ _ _ => 32
  | .redw _ _ _ _ => 32
  | _ => 1

/-- A word may stand in a YPF text (R423): an instruction or hint of feature bit 0 or of REQ, not of MAJ 0x7B. -/
def ypfWord (req : BitVec 128) (w : Word) : Bool :=
  fMaj w != 0x7B && (match decode w with
    | .ok i => featSubset (featOf i) (req ||| 1)
    | .error _ => false)

/-- The word indexes that the word at index `i` needs in the target table (R423). -/
def ypfTargets (i : Nat) (w : Word) : List Int :=
  match decode w with
  | .ok (.br _ o) => [i + o.toInt]
  | .ok (.call _ o) => [i + o.toInt, i + 1]
  | .ok (.calli _ _) => [(i : Int) + 1]
  | _ => []

/-- The word indexes that may be no target, since a run or a prefix stands before them (R423). -/
def ypfInside (i : Nat) (w : Word) : List Nat :=
  match decode w with
  | .ok (.runb n _) => (List.range (n.toNat + 1)).map fun j => i + 1 + j
  | .ok (.himm _) => [i + 1]
  | .ok (.hmod _ _ _ _ _ _ _) => [i + 1]
  | .ok (.hsched _) => [i + 1]
  | .ok (.hcache _) => [i + 1]
  | _ => []

/-- The index of the trailer that a RUNB at index `i` needs (R30). -/
def trailerOf (i : Nat) (w : Word) : Option Nat :=
  match decode w with
  | .ok (.runb n _) => some (i + n.toNat + 1)
  | _ => none

/-- The runs of a text stand whole: every RUNB has its trailer, and every trailer belongs to a RUNB (R30, R177, R423). -/
def wholeRuns (text : List Byte) : Bool :=
  let is := List.range (text.length / 4)
  let ends := is.filterMap fun i => trailerOf i (textWord text i)
  (ends.all fun j => decide (4 * j + 4 ≤ text.length) && isTrl (textWord text j)) &&
  is.all fun j => !isTrl (textWord text j) || ends.contains j

/-- The word is a CALLI. -/
def isCalli (w : Word) : Bool :=
  match decode w with
  | .ok (.calli _ _) => true
  | _ => false

/-- The word is a JMPI. -/
def isJmpi (w : Word) : Bool :=
  match decode w with
  | .ok (.jmpi _ _) => true
  | _ => false

/-- A well-formed HFUNC stands directly before the word at an index (R172). -/
def hfuncBefore (text : List Byte) (i : Nat) : Bool := decide (0 < i) && (hfuncBudget (textWord text (i - 1))).isSome

/-- The labels of the text that the relocations of an image give, as word indexes (R421). -/
def Image.labels (im : Image) : List Nat := (im.relocs.filter fun r => r.target / 2 ^ 31 == 0).map fun r => r.target / 4

/-- What R423 asks of the targets of CALLI and JMPI, which are register values that the relocations supply: with no word of the
kind nothing; a CALLI needs a listed target behind an HFUNC, and a JMPI a listed target; then every label behind an HFUNC is
enough for CALLI, and that every label is listed for JMPI. Where only some labels have an HFUNC, a free value of the whole form
decides (DEDUCED, log entry 38). -/
def indirectOk (form : List Byte) (im : Image) (targets : List Nat) : Bool :=
  let ws := (List.range (im.text.length / 4)).map (textWord im.text)
  let calls := ws.any isCalli
  if !calls && !ws.any isJmpi then true
  else if targets.isEmpty || (calls && !targets.any (hfuncBefore im.text)) then false
  else if !calls || im.labels.all (hfuncBefore im.text) then true
  else Config.indirectOk form

/-- The checks of R423 on a form: its words, the targets of branches, relocations, kernels and of indirect transfers, whole
runs and prefixes, and relocations laid out as R421 asks. -/
def ypfOk (form : List Byte) (req : BitVec 128) (im : Image) (targets : List Nat) : Bool :=
  let n := im.text.length / 4
  let listed (x : Int) : Bool := decide (0 ≤ x) && decide (x < n) && targets.contains x.toNat
  let label (off : Nat) : Bool := off % 4 == 0 && listed (off / 4 : Nat)
  ((List.range n).all fun i =>
    let w := textWord im.text i
    ypfWord req w && (ypfTargets i w).all listed &&
      (ypfInside i w).all fun j => decide (j < n) && !targets.contains j) &&
  wholeRuns im.text && (im.relocate 0 0).isSome &&
  (im.relocs.all fun r => r.target / 2 ^ 31 == 1 || label r.target) &&
  (im.heads.all fun h => label (fieldAt h 8 8) && label (fieldAt h 16 8)) &&
  indirectOk form im targets

/-- The image that the translator makes of a YPF form for a context: the words as they stand (R424). -/
def translateYpf (bs : List Byte) (feat : BitVec 128) : Option Image :=
  let req := BitVec.ofNat 128 (fieldAt bs 8 16)
  if bs.length < 0x80 ∨ fieldAt bs 0 4 ≠ 0x31465059 ∨ fieldAt bs 4 2 ≠ 1 ∨ fieldAt bs 6 2 ≠ 4 ∨ !zeroAt bs 0x24 4 ∨
      !zeroAt bs 0x58 40 ∨ !featSubset req feat then none
  else
    match imageOf bs req 0x80 (fieldAt bs 0x18 4) (fieldAt bs 0x1C 4) (fieldAt bs 0x28 8) (fieldAt bs 0x30 8)
        (fieldAt bs 0x38 8) (fieldAt bs 0x40 8) (fieldAt bs 0x48 8),
      partOf bs (fieldAt bs 0x50 8) (4 * fieldAt bs 0x20 4) with
    | some im, some t =>
      if ypfOk bs req im ((List.range (fieldAt bs 0x20 4)).map fun i => fieldAt t (4 * i) 4) then some im else none
    | _, _ => none

/-! ### Objects (R419, R10) -/

/-- A native variant of an object: its mask and bytes. -/
structure Variant where
  mask : BitVec 128
  bytes : List Byte
  deriving DecidableEq, Repr

/-- A code object: the digest of its bytes, its native variants and its YPF form (R419). -/
structure CodeObject where
  chash : Nat
  vars : List Variant
  ypf : List Byte
  deriving DecidableEq, Repr

/-- A code object read; none where its header is malformed or its digest does not match (R419, R421 step 1). -/
def objectOf (bs : List Byte) : Option CodeObject :=
  let n := fieldAt bs 2 2
  let head := 0x48 + 32 * n
  let chash := slice bs 0x18 48
  if bs.length < head ∨ fieldAt bs 0 2 ≠ 1 ∨ 64 < n ∨ !zeroAt bs 4 4 then none
  else if leBytes 48 (Config.sha384 (bs.drop head)).toNat ≠ chash then none
  else
    match (List.range n).mapM (fun i =>
        (partOf bs (fieldAt bs (0x48 + 32 * i + 16) 8) (fieldAt bs (0x48 + 32 * i + 24) 8)).map fun b =>
          (⟨BitVec.ofNat 128 (fieldAt bs (0x48 + 32 * i) 16), b⟩ : Variant)),
      partOf bs (fieldAt bs 8 8) (fieldAt bs 0x10 8) with
    | some vs, some y => some ⟨leNat chash, vs, y⟩
    | _, _ => none

/-- The number of bits set. -/
def countBits (b : BitVec 128) : Nat := ((List.range 128).filter fun i => b.getLsbD i).length

/-- The index of the variant that R10 takes: of those whose mask the context acknowledged, the one with the most bits,
the first of several. -/
def bestVariant (feat : BitVec 128) (vs : List Variant) : Option Nat :=
  ((List.range vs.length).filter fun i => ((vs[i]?).map fun v => featSubset v.mask feat).getD false).foldl
    (fun b i => match b with
      | none => some i
      | some j => if countBits ((vs[j]?).map (·.mask) |>.getD 0) < countBits ((vs[i]?).map (·.mask) |>.getD 0) then some i
        else some j) none

/-- The number that stands for the YPF form among the choices of a context. -/
def ypfChoice : Nat := 65536

/-- The choice of an object for a context: the one made before, or that of R10. -/
def Context.choose (c : Context) (o : CodeObject) : Nat :=
  ((c.choices.find? fun x => x.1 == o.chash).map (·.2)).getD ((bestVariant c.feat o.vars).getD ypfChoice)

/-- The image of a choice: none with `true` for a malformed native image, with `false` where there is no code (R421). -/
def chosenImage (c : Context) (o : CodeObject) (n : Nat) : Option Image × Bool :=
  match o.vars[n]? with
  | some v => (nativeImage v.bytes v.mask, true)
  | none => (if o.ypf.isEmpty then none else translateYpf o.ypf c.feat, false)

/-! ### Load (R421) -/

/-- A kernel header from its template: ENTRY and GENTRY are addresses (R420, R421). -/
def placeHead (text : Nat) (h : List Byte) : List Byte :=
  patch (patch h 8 (leBytes 8 (text + fieldAt h 8 8))) 16 (leBytes 8 (text + fieldAt h 16 8))

/-- A load region after a store of the loader has failed: what it holds is a free value (R421; log entry 14). -/
def State.scramble (s : State) (c : Context) (dst n : Nat) : State :=
  { ((List.range (n / 65536 + 1)).foldl (fun t i =>
      let m := min 65536 (n - 65536 * i)
      (t.virtWrite c (dst + 65536 * i)
        ((List.range m).map fun k => Config.freeByte (s.free + 65536 * i + k))).1) s) with free := s.free + n }

/-- Bytes stored by the loader one range after another; false as soon as one fails. -/
def State.storeAll (c : Context) : List (Nat × List Byte) → State → State × Bool
  | [], s => (s, true)
  | x :: xs, s =>
    match s.virtWrite c x.1 x.2 with
    | (s1, true) => State.storeAll c xs s1
    | (s1, false) => (s1, false)

/-- A kernel header is overwritten by a store of some bytes. -/
def Loaded.hit (l : Loaded) (w : Nat × List Byte) : Bool :=
  decide (l.addr < w.1 + w.2.length) && decide (w.1 < l.addr + 64)

/-- The kernels of an image loaded at `dst`, noted with their context; headers that its stores overwrite are gone (R419). -/
def Context.noteLoad (c : Context) (dst : Nat) (ws : List (Nat × List Byte)) (im : Image) (chash choice : Nat) : Context :=
  { c with
    loaded := (c.loaded.filter fun l => !ws.any l.hit) ++
      (List.range im.heads.length).map fun k => ⟨dst + 64 * k, im.mask⟩
    choices := (chash, choice) :: c.choices.filter fun x => x.1 != chash }

/-- What the loader stores of a relocated image: headers, text, data (R421 step 3). -/
def Image.stores (im : Image) (dst data : Nat) : List (Nat × List Byte) :=
  [(dst, im.heads.flatMap (placeHead (dst + 0x10000))), (dst + 0x10000, im.text), (data, im.data)]

/-- An image loaded in a region (R421 steps 3 to 6). A load that ends in FAULT or BADFIELD records no choice: R10 and R419
leave open whether it does (DESIGN CHOICE, log entry 14). -/
def State.loadImage (s : State) (c : Context) (im : Image) (dst n chash choice : Nat) : Answer :=
  let text := dst + 0x10000
  let data := text + (im.text.length + 65535) / 65536 * 65536
  if dst + n < text + im.text.length ∨ (!im.data.isEmpty ∧ dst + n < data + im.data.length) then s.status 6
  else
    match im.relocate text data with
    | none => s.status 6
    | some x =>
      match s.storeAll c (x.stores dst data) with
      | (s1, true) =>
        ⟨s1.mapCtxAt c.id fun y => y.noteLoad dst (x.stores dst data) x chash choice, 0, im.heads.length, []⟩
      | (s1, false) => (s1.scramble c dst n).status 4

/-- The load region of a LOADOBJ is misplaced (R421). -/
def badRegion (dst n : Nat) : Bool :=
  dst % 65536 != 0 || n == 0 || decide (2 ^ 56 < dst + n) || dst / 2 ^ 32 != (dst + n - 1) / 2 ^ 32

/-- LOADOBJ (R421). -/
def execLoadobj (c : Cmd) (s : State) : Step :=
  s.command c 0x23 false fun s1 =>
    s1.forCtx c fun x =>
      s1.sized c 64 (
        let dst := fieldAt c.body 0x10 8
        let n := fieldAt c.body 0x18 8
        if !zeroAt c.body 0x20 32 ∨ badRegion dst n then s1.status 6
        else
          match s1.virtRead x (fieldAt c.body 0 8) (fieldAt c.body 8 8) with
          | (s2, none) => s2.status 4
          | (s2, some bs) =>
            match objectOf bs with
            | none => s2.status 6
            | some o =>
              let k := x.choose o
              match chosenImage x o k with
              | (some im, _) => s2.loadImage x im dst n o.chash k
              | (none, true) => s2.status 6
              | (none, false) => s2.status 7)

end Sys2Proof.Machine
end

