-- ==== Sys2Proof/Machine/Scalar.lean ====
section
/-!
DEFINITION. The scalar pipe (09 R223 to R226): 64-bit uniform values, groups and Gaffer threads.
-/
namespace Sys2Proof.Machine

open Sys2Proof

/-- The integer a 64-bit scalar stands for. -/
def intOf64 (uns : Bool) (w : DWord) : Int := if uns then w.toNat else w.toInt

/-- The second scalar source: a specifier, an immediate, or none. -/
inductive SSrc where
  | spec (sp : BitVec 7)
  | imm (i : BitVec 8)
  | none
  deriving DecidableEq, Repr

/-- The operand check of field B of a scalar instruction. -/
def State.badSB (s : State) : SSrc → Bool
  | .spec sp => s.badScalar sp
  | _ => false

/-- The value of the second scalar source (R167, R223). -/
def State.readSB (s : State) : SSrc → DWord
  | .spec sp => s.readS sp
  | .imm i => s.imm i 64
  | .none => 0

/-- HMOD and issuers of a scalar instruction. -/
abbrev scalarNeeds (h : HmodUse) : Needs := { hmod := h, issuer := .both }

/-- A scalar instruction that writes D (R223, R226). -/
def State.scalar (s : State) (w : Word) (h : HmodUse) (g : BitVec 3) (d a : BitVec 7) (b : SSrc)
    (op : DWord → DWord → DWord) : Step :=
  let m := s.self.cur.lanes
  s.uniformFrame w g
    [s.issueCheck (scalarNeeds h) false w m, operandIf (!isS d) w 0 m, operandIf (s.badScalar a) w 1 m,
     operandIf (s.badSB b) w 2 m] []
    fun s1 _ => .done (s1.putS (d.toNat - 0x40) (op (s.readS a) (s.readSB b)))

/-- SADD (R223). -/
def execSadd (g : BitVec 3) (d a b : BitVec 7) (s : State) : Step :=
  s.scalar (encode (.sadd g d a b)) {} g d a (.spec b) fun x y => x + y
/-- SSUB (R223). -/
def execSsub (g : BitVec 3) (d a b : BitVec 7) (s : State) : Step :=
  s.scalar (encode (.ssub g d a b)) {} g d a (.spec b) fun x y => x - y
/-- SMUL: the low 64 bits (R223). -/
def execSmul (g : BitVec 3) (d a b : BitVec 7) (s : State) : Step :=
  s.scalar (encode (.smul g d a b)) {} g d a (.spec b) fun x y => x * y
/-- SMULH: bits [127:64] of the exact product (R223). -/
def execSmulh (g : BitVec 3) (d a b : BitVec 7) (s : State) : Step :=
  s.scalar (encode (.smulh g d a b)) useUns g d a (.spec b)
    fun x y => BitVec.ofInt 64 (intOf64 s.uns x * intOf64 s.uns y / 2 ^ 64)
/-- SAND (R223). -/
def execSand (g : BitVec 3) (d a b : BitVec 7) (s : State) : Step :=
  s.scalar (encode (.sand g d a b)) {} g d a (.spec b) fun x y => x &&& y
/-- SOR (R223). -/
def execSor (g : BitVec 3) (d a b : BitVec 7) (s : State) : Step :=
  s.scalar (encode (.sor g d a b)) {} g d a (.spec b) fun x y => x ||| y
/-- SXOR (R223). -/
def execSxor (g : BitVec 3) (d a b : BitVec 7) (s : State) : Step :=
  s.scalar (encode (.sxor g d a b)) {} g d a (.spec b) fun x y => x ^^^ y
/-- SSHL: a << b[5:0] (R223). -/
def execSshl (g : BitVec 3) (d a b : BitVec 7) (s : State) : Step :=
  s.scalar (encode (.sshl g d a b)) {} g d a (.spec b) fun x y => x <<< (y.toNat % 64)
/-- SSHR: zero-filled (R223). -/
def execSshr (g : BitVec 3) (d a b : BitVec 7) (s : State) : Step :=
  s.scalar (encode (.sshr g d a b)) {} g d a (.spec b) fun x y => x >>> (y.toNat % 64)
/-- SSAR: sign-filled (R223). -/
def execSsar (g : BitVec 3) (d a b : BitVec 7) (s : State) : Step :=
  s.scalar (encode (.ssar g d a b)) {} g d a (.spec b) fun x y => x.sshiftRight (y.toNat % 64)
/-- SMOV (R223). -/
def execSmov (g : BitVec 3) (d a : BitVec 7) (s : State) : Step :=
  s.scalar (encode (.smov g d a)) {} g d a .none fun x _ => x
/-- SADDI: a 64-bit immediate added (R223). -/
def execSaddi (g : BitVec 3) (d a : BitVec 7) (i : BitVec 8) (s : State) : Step :=
  s.scalar (encode (.saddi g d a i)) {} g d a (.imm i) fun x y => x + y
/-- SMOVI: a 64-bit immediate (R223). -/
def execSmovi (g : BitVec 3) (d : BitVec 7) (i : BitVec 8) (s : State) : Step :=
  s.scalar (encode (.smovi g d i)) {} g d 0x78 (.imm i) fun _ y => y
/-- SMIN (R223). -/
def execSmin (g : BitVec 3) (d a b : BitVec 7) (s : State) : Step :=
  s.scalar (encode (.smin g d a b)) useUns g d a (.spec b)
    fun x y => if intOf64 s.uns y < intOf64 s.uns x then y else x
/-- SMAX (R223). -/
def execSmax (g : BitVec 3) (d a b : BitVec 7) (s : State) : Step :=
  s.scalar (encode (.smax g d a b)) useUns g d a (.spec b)
    fun x y => if intOf64 s.uns x < intOf64 s.uns y then y else x

/-- SCMP: the result in every active lane of the split, or in the scalar predicate (R224). -/
def execScmp (g : BitVec 3) (c : BitVec 4) (p : BitVec 3) (a b : BitVec 7) (s : State) : Step :=
  let w := encode (.scmp g c p a b)
  let m := s.self.cur.lanes
  s.uniformFrame w g
    [s.issueCheck (scalarNeeds useUns) false w m, operandIf (s.badScalar a) w 1 m, operandIf (s.badScalar b) w 2 m] []
    fun s1 _ =>
      let r := icond c (intOf64 s.uns (s.readS a)) (intOf64 s.uns (s.readS b))
      .done (s1.putP p s.self.cur.mask (if r then Mask.all else 0))

/-! ### SLD and SST (R225) -/

/-- The bytes of a scalar access (R225). -/
def scalarWidth (tv : BitVec 3) : Nat := 8 / 2 ^ tv.toNat

/-- A loaded value widened (R225). -/
def widenScalar (tv : BitVec 3) (uns : Bool) (v : Nat) : DWord :=
  let bits := 8 * scalarWidth tv
  if uns then BitVec.ofNat 64 v else BitVec.ofInt 64 (signedOf bits v)

/-- The first checks of a scalar access, then its place (R225). -/
def State.scalarPlace (s : State) (k : AccKind) (va : DWord) : State × LaneOut :=
  let n := scalarWidth s.hmod.tv
  let v := va.toNat
  if 2 ^ 56 ≤ v then (s, .fail 1 .xlate v)
  else if v % n ≠ 0 then (s, .fail 2 .misaligned v)
  else s.laneAt ⟨k, k == .read, false, false, n, srcGroup, 0⟩ v

/-- A scalar access: checks, its place, then what follows; a miss holds the unit at the instruction (R225). No rule names
a TVAL for its MISALIGNED and FORMAT, so it is 0 (R315). The data operand D of SST is checked as a source (R161; DEDUCED, log
entry 80). -/
def State.scalarAccess (s : State) (w : Word) (h : HmodUse) (g : BitVec 3) (d a b : BitVec 7) (k : AccKind)
    (op : State → Nat → Nat → Exit) : Step :=
  let m := s.self.cur.lanes
  s.uniformFrame w g
    [s.issueCheck (scalarNeeds h) false w m,
     operandIf (if k = .write then s.badScalar d else !isS d) w 0 m, operandIf (s.badScalar a) w 1 m,
     operandIf (s.badScalar b) w 2 m] []
    fun s1 _ =>
      let va := s.readS a + s.readS b
      if s1.self.queuedPage [va.toNat] then .wait s1 .poll
      else
        match s1.scalarPlace k va with
        | (s2, .ok _ ca _) => op s2 ca va.toNat
        | (s2, .miss x) => s2.parkWhole k [⟨0, va.toNat, .miss x⟩]
        | (s2, .fail _ c v) => .trap s2 (Trap.at c (if c = .format ∨ c = .misaligned then 0 else v) m)

/-- SLD: a scalar load (R225). -/
def execSld (g : BitVec 3) (d a b : BitVec 7) (s : State) : Step :=
  s.scalarAccess (encode (.sld g d a b)) { tv := [1, 2, 3], uns := true } g d a b .read fun s2 ca _ =>
    .done (s2.markLong.putS (d.toNat - 0x40)
      (widenScalar s.hmod.tv s.uns (leNat (s2.loadBytes ca (scalarWidth s.hmod.tv)))))
/-- SST: a scalar store (R225). -/
def execSst (g : BitVec 3) (d a b : BitVec 7) (s : State) : Step :=
  s.scalarAccess (encode (.sst g d a b)) { tv := [1, 2, 3] } g d a b .write fun s2 ca va =>
    .done (s2.store (storeBytes ca va (leBytes (scalarWidth s.hmod.tv) (s.readS d).toNat)))

end Sys2Proof.Machine
end

