-- ==== Sys2Proof/Machine/Dispatch.lean ====
section
/-!
DEFINITION. Dispatch: one arm per row of the opcode table, each a direct call of its meaning.
-/
namespace Sys2Proof.Machine

open Sys2Proof

/-- What an instruction, or an event, does (spec 07 R174 to R180; the events of the opcode table). -/
def exec (i : Instr) (s : State) : Host.Outcome State Fault Refusal :=
  match i with
  | .iadd g d a b => Sys2Proof.Machine.execIadd g d a b s
  | .isub g d a b => Sys2Proof.Machine.execIsub g d a b s
  | .iadds g d a b => Sys2Proof.Machine.execIadds g d a b s
  | .isubs g d a b => Sys2Proof.Machine.execIsubs g d a b s
  | .imul g d a b => Sys2Proof.Machine.execImul g d a b s
  | .imulh g d a b => Sys2Proof.Machine.execImulh g d a b s
  | .imad g d a b => Sys2Proof.Machine.execImad g d a b s
  | .idiv g d a b => Sys2Proof.Machine.execIdiv g d a b s
  | .irem g d a b => Sys2Proof.Machine.execIrem g d a b s
  | .imin g d a b => Sys2Proof.Machine.execImin g d a b s
  | .imax g d a b => Sys2Proof.Machine.execImax g d a b s
  | .and g d a b => Sys2Proof.Machine.execAnd g d a b s
  | .or g d a b => Sys2Proof.Machine.execOr g d a b s
  | .xor g d a b => Sys2Proof.Machine.execXor g d a b s
  | .andn g d a b => Sys2Proof.Machine.execAndn g d a b s
  | .shl g d a b => Sys2Proof.Machine.execShl g d a b s
  | .shr g d a b => Sys2Proof.Machine.execShr g d a b s
  | .sar g d a b => Sys2Proof.Machine.execSar g d a b s
  | .rotl g d a b => Sys2Proof.Machine.execRotl g d a b s
  | .icmp g c p a b => Sys2Proof.Machine.execIcmp g c p a b s
  | .sel g d a b => Sys2Proof.Machine.execSel g d a b s
  | .bfe g d a b => Sys2Proof.Machine.execBfe g d a b s
  | .bfi g d a b => Sys2Proof.Machine.execBfi g d a b s
  | .popc g d a => Sys2Proof.Machine.execPopc g d a s
  | .clz g d a => Sys2Proof.Machine.execClz g d a s
  | .brev g d a => Sys2Proof.Machine.execBrev g d a s
  | .iabs g d a => Sys2Proof.Machine.execIabs g d a s
  | .dp4 g d a b => Sys2Proof.Machine.execDp4 g d a b s
  | .dp4s g d a b => Sys2Proof.Machine.execDp4s g d a b s
  | .dp2 g d a b => Sys2Proof.Machine.execDp2 g d a b s
  | .dp2s g d a b => Sys2Proof.Machine.execDp2s g d a b s
  | .iaddi g d a imm => Sys2Proof.Machine.execIaddi g d a imm s
  | .andi g d a imm => Sys2Proof.Machine.execAndi g d a imm s
  | .ori g d a imm => Sys2Proof.Machine.execOri g d a imm s
  | .xori g d a imm => Sys2Proof.Machine.execXori g d a imm s
  | .shli g d a imm => Sys2Proof.Machine.execShli g d a imm s
  | .shri g d a imm => Sys2Proof.Machine.execShri g d a imm s
  | .sari g d a imm => Sys2Proof.Machine.execSari g d a imm s
  | .icmpi g c p a imm => Sys2Proof.Machine.execIcmpi g c p a imm s
  | .imuli g d a imm => Sys2Proof.Machine.execImuli g d a imm s
  | .fadd g d a b => Sys2Proof.Machine.execFadd g d a b s
  | .fsub g d a b => Sys2Proof.Machine.execFsub g d a b s
  | .fmul g d a b => Sys2Proof.Machine.execFmul g d a b s
  | .fdiv g d a b => Sys2Proof.Machine.execFdiv g d a b s
  | .ffma g d a b => Sys2Proof.Machine.execFfma g d a b s
  | .ffms g d a b => Sys2Proof.Machine.execFfms g d a b s
  | .fmin g d a b => Sys2Proof.Machine.execFmin g d a b s
  | .fmax g d a b => Sys2Proof.Machine.execFmax g d a b s
  | .fcmp g c p a b => Sys2Proof.Machine.execFcmp g c p a b s
  | .fclass g p a b => Sys2Proof.Machine.execFclass g p a b s
  | .fsfu g d a b => Sys2Proof.Machine.execFsfu g d a b s
  | .fcvt g d a b => Sys2Proof.Machine.execFcvt g d a b s
  | .frnd g d a b => Sys2Proof.Machine.execFrnd g d a b s
  | .hadd2 g d a b => Sys2Proof.Machine.execHadd2 g d a b s
  | .hmul2 g d a b => Sys2Proof.Machine.execHmul2 g d a b s
  | .hfma2 g d a b => Sys2Proof.Machine.execHfma2 g d a b s
  | .hdot2 g d a b => Sys2Proof.Machine.execHdot2 g d a b s
  | .faddx g d a b => Sys2Proof.Machine.execFaddx g d a b s
  | .fmulx g d a b => Sys2Proof.Machine.execFmulx g d a b s
  | .fabs g d a => Sys2Proof.Machine.execFabs g d a s
  | .fneg g d a => Sys2Proof.Machine.execFneg g d a s
  | .fscale g d a b => Sys2Proof.Machine.execFscale g d a b s
  | .mov g d a => Sys2Proof.Machine.execMov g d a s
  | .movi g d imm => Sys2Proof.Machine.execMovi g d imm s
  | .shfl g d a b => Sys2Proof.Machine.execShfl g d a b s
  | .vote g m p a => Sys2Proof.Machine.execVote g m p a s
  | .ballot g d a => Sys2Proof.Machine.execBallot g d a s
  | .redl g d a b => Sys2Proof.Machine.execRedl g d a b s
  | .fredl g d a b => Sys2Proof.Machine.execFredl g d a b s
  | .scanl g d a b => Sys2Proof.Machine.execScanl g d a b s
  | .fscanl g d a b => Sys2Proof.Machine.execFscanl g d a b s
  | .part g b => Sys2Proof.Machine.execPart g b s
  | .plop g f d a b => Sys2Proof.Machine.execPlop g f d a b s
  | .pmov g d a b => Sys2Proof.Machine.execPmov g d a b s
  | .ixset g imm => Sys2Proof.Machine.execIxset g imm s
  | .v2s g d a => Sys2Proof.Machine.execV2s g d a s
  | .sadd g d a b => Sys2Proof.Machine.execSadd g d a b s
  | .ssub g d a b => Sys2Proof.Machine.execSsub g d a b s
  | .smul g d a b => Sys2Proof.Machine.execSmul g d a b s
  | .smulh g d a b => Sys2Proof.Machine.execSmulh g d a b s
  | .sand g d a b => Sys2Proof.Machine.execSand g d a b s
  | .sor g d a b => Sys2Proof.Machine.execSor g d a b s
  | .sxor g d a b => Sys2Proof.Machine.execSxor g d a b s
  | .sshl g d a b => Sys2Proof.Machine.execSshl g d a b s
  | .sshr g d a b => Sys2Proof.Machine.execSshr g d a b s
  | .ssar g d a b => Sys2Proof.Machine.execSsar g d a b s
  | .scmp g c p a b => Sys2Proof.Machine.execScmp g c p a b s
  | .smov g d a => Sys2Proof.Machine.execSmov g d a s
  | .saddi g d a imm => Sys2Proof.Machine.execSaddi g d a imm s
  | .sld g d a b => Sys2Proof.Machine.execSld g d a b s
  | .sst g d a b => Sys2Proof.Machine.execSst g d a b s
  | .smin g d a b => Sys2Proof.Machine.execSmin g d a b s
  | .smax g d a b => Sys2Proof.Machine.execSmax g d a b s
  | .smovi g d imm => Sys2Proof.Machine.execSmovi g d imm s
  | .br g o => Sys2Proof.Machine.execBr g o s
  | .call g o => Sys2Proof.Machine.execCall g o s
  | .calli g a => Sys2Proof.Machine.execCalli g a s
  | .jmpi g a => Sys2Proof.Machine.execJmpi g a s
  | .ret g => Sys2Proof.Machine.execRet g s
  | .exit g => Sys2Proof.Machine.execExit g s
  | .yield g imm => Sys2Proof.Machine.execYield g imm s
  | .trap g imm => Sys2Proof.Machine.execTrap g imm s
  | .featq g d imm => Sys2Proof.Machine.execFeatq g d imm s
  | .nop g => Sys2Proof.Machine.execNop g s
  | .tret g => Sys2Proof.Machine.execTret g s
  | .ld g d t x w c => Sys2Proof.Machine.execLd g d t x w c s
  | .st g d t x w c => Sys2Proof.Machine.execSt g d t x w c s
  | .lds g d t x w c => Sys2Proof.Machine.execLds g d t x w c s
  | .sts g d t x w c => Sys2Proof.Machine.execSts g d t x w c s
  | .mcst g d t x m => Sys2Proof.Machine.execMcst g d t x m s
  | .pfx g t x w c => Sys2Proof.Machine.execPfx g t x w c s
  | .abind g t x => Sys2Proof.Machine.execAbind g t x s
  | .abindH g t x => Sys2Proof.Machine.execAbindH g t x s
  | .lda g d t x k => Sys2Proof.Machine.execLda g d t x k s
  | .stl g d t x k => Sys2Proof.Machine.execStl g d t x k s
  | .atom g d t x o p => Sys2Proof.Machine.execAtom g d t x o p s
  | .red g d t x o p => Sys2Proof.Machine.execRed g d t x o p s
  | .fence g => Sys2Proof.Machine.execFence g s
  | .waitv g d t x w c => Sys2Proof.Machine.execWaitv g d t x w c s
  | .cpy a b y => Sys2Proof.Machine.execCpy a b y s
  | .cpyo a b y => Sys2Proof.Machine.execCpyo a b y s
  | .cpyg a b y => Sys2Proof.Machine.execCpyg a b y s
  | .cpys a b y => Sys2Proof.Machine.execCpys a b y s
  | .cpym a b y => Sys2Proof.Machine.execCpym a b y s
  | .cpye a b y => Sys2Proof.Machine.execCpye a b y s
  | .binit a b => Sys2Proof.Machine.execBinit a b s
  | .barv d a => Sys2Proof.Machine.execBarv d a s
  | .bexp a b => Sys2Proof.Machine.execBexp a b s
  | .bwait a b => Sys2Proof.Machine.execBwait a b s
  | .btest d a b => Sys2Proof.Machine.execBtest d a b s
  | .cbar => Sys2Proof.Machine.execCbar s
  | .qcfg d a => Sys2Proof.Machine.execQcfg d a s
  | .qdrn d => Sys2Proof.Machine.execQdrn d s
  | .qpop d a b => Sys2Proof.Machine.execQpop d a b s
  | .qpush d a b => Sys2Proof.Machine.execQpush d a b s
  | .renq d a b k => Sys2Proof.Machine.execRenq d a b k s
  | .fetchw a => Sys2Proof.Machine.execFetchw a s
  | .taske a => Sys2Proof.Machine.execTaske a s
  | .taska a => Sys2Proof.Machine.execTaska a s
  | .qstat d a => Sys2Proof.Machine.execQstat d a s
  | .dopen d a w => Sys2Proof.Machine.execDopen d a w s
  | .dclose d a => Sys2Proof.Machine.execDclose d a s
  | .dinfo d a b => Sys2Proof.Machine.execDinfo d a b s
  | .dbind d a o => Sys2Proof.Machine.execDbind d a o s
  | .tstamp d => Sys2Proof.Machine.execTstamp d s
  | .tserr d => Sys2Proof.Machine.execTserr d s
  | .osend d a b => Sys2Proof.Machine.execOsend d a b s
  | .redp a b o => Sys2Proof.Machine.execRedp a b o s
  | .redw d a b o => Sys2Proof.Machine.execRedw d a b o s
  | .twait a => Sys2Proof.Machine.execTwait a s
  | .mrule a b => Sys2Proof.Machine.execMrule a b s
  | .mcfg d a => Sys2Proof.Machine.execMcfg d a s
  | .mstat a b => Sys2Proof.Machine.execMstat a b s
  | .mswap b => Sys2Proof.Machine.execMswap b s
  | .mstrm a b k => Sys2Proof.Machine.execMstrm a b k s
  | .mwave a b => Sys2Proof.Machine.execMwave a b s
  | .mback a b => Sys2Proof.Machine.execMback a b s
  | .mdrain a b => Sys2Proof.Machine.execMdrain a b s
  | .mzero b => Sys2Proof.Machine.execMzero b s
  | .mtrn a b => Sys2Proof.Machine.execMtrn a b s
  | .mprm a b => Sys2Proof.Machine.execMprm a b s
  | .mred b k => Sys2Proof.Machine.execMred b k s
  | .mwait d => Sys2Proof.Machine.execMwait d s
  | .mstep d => Sys2Proof.Machine.execMstep d s
  | .mstepRes d => Sys2Proof.Machine.execMstepRes d s
  | .mstepResat d a => Sys2Proof.Machine.execMstepResat d a s
  | .mstepDis d => Sys2Proof.Machine.execMstepDis d s
  | .mfence d => Sys2Proof.Machine.execMfence d s
  | .rdsr d a => Sys2Proof.Machine.execRdsr d a s
  | .wrsr a b => Sys2Proof.Machine.execWrsr a b s
  | .tlbiPage d a b => Sys2Proof.Machine.execTlbiPage d a b s
  | .tlbiCtx d b => Sys2Proof.Machine.execTlbiCtx d b s
  | .xrinv d a b => Sys2Proof.Machine.execXrinv d a b s
  | .ctxsv d a b => Sys2Proof.Machine.execCtxsv d a b s
  | .ctxld d a b => Sys2Proof.Machine.execCtxld d a b s
  | .engrst d a b => Sys2Proof.Machine.execEngrst d a b s
  | .cfenceWb a b => Sys2Proof.Machine.execCfenceWb a b s
  | .cfenceInv a b => Sys2Proof.Machine.execCfenceInv a b s
  | .cfenceDrop a b => Sys2Proof.Machine.execCfenceDrop a b s
  | .idle d a b q t => Sys2Proof.Machine.execIdle d a b q t s
  | .runb n a => Sys2Proof.Machine.execRunb n a s
  | .trl t v => Sys2Proof.Machine.execTrl t v s
  | .himm p => Sys2Proof.Machine.execHimm p s
  | .hmod k o r a u v z => Sys2Proof.Machine.execHmod k o r a u v z s
  | .hsched u => Sys2Proof.Machine.execHsched u s
  | .hcache l => Sys2Proof.Machine.execHcache l s
  | .hfunc b => Sys2Proof.Machine.execHfunc b s
  | .write c => Sys2Proof.Machine.execWrite c s
  | .read c => Sys2Proof.Machine.execRead c s
  | .launch c => Sys2Proof.Machine.execLaunch c s
  | .remove c => Sys2Proof.Machine.execRemove c s
  | .regctx c => Sys2Proof.Machine.execRegctx c s
  | .regobj c => Sys2Proof.Machine.execRegobj c s
  | .bind c => Sys2Proof.Machine.execBind c s
  | .loadobj c => Sys2Proof.Machine.execLoadobj c s
  | .qconf c => Sys2Proof.Machine.execQconf c s
  | .featneg c => Sys2Proof.Machine.execFeatneg c s
  | .podcfg c => Sys2Proof.Machine.execPodcfg c s
  | .powerUp p => Sys2Proof.Machine.execPowerUp p s
  | .bootWrite c => Sys2Proof.Machine.execBootWrite c s
  | .preemptionRequest k area => Sys2Proof.Machine.execPreemptionRequest k area s
  | .quantumExpiry k area => Sys2Proof.Machine.execQuantumExpiry k area s
  | .parkRotation u => Sys2Proof.Machine.execParkRotation u s
  | .pathMerge u p q => Sys2Proof.Machine.execPathMerge u p q s
  | .resultWriteback u token => Sys2Proof.Machine.execResultWriteback u token s
  | .impreciseTrapTaken u slot => Sys2Proof.Machine.execImpreciseTrapTaken u slot s
  | .waitvRecheck u slot => Sys2Proof.Machine.execWaitvRecheck u slot s
  | .waitvDeadline u slot => Sys2Proof.Machine.execWaitvDeadline u slot s
  | .twaitTargetReached u slot => Sys2Proof.Machine.execTwaitTargetReached u slot s
  | .idleWake u slot => Sys2Proof.Machine.execIdleWake u slot s
  | .queueStreamFetch u q => Sys2Proof.Machine.execQueueStreamFetch u q s
  | .copySectorCount k id => Sys2Proof.Machine.execCopySectorCount k id s
  | .marverOpStart k ix => Sys2Proof.Machine.execMarverOpStart k ix s
  | .marverOpComplete k ix => Sys2Proof.Machine.execMarverOpComplete k ix s
  | .lehrBatchFlush die => Sys2Proof.Machine.execLehrBatchFlush die s
  | .faultReplyRetry die => Sys2Proof.Machine.execFaultReplyRetry die s
  | .faultReplyFail die => Sys2Proof.Machine.execFaultReplyFail die s
  | .bindRecordWrite die cluster slot record => Sys2Proof.Machine.execBindRecordWrite die cluster slot record s
  | .crewPlacement die cluster => Sys2Proof.Machine.execCrewPlacement die cluster s
  | .crewRetire k => Sys2Proof.Machine.execCrewRetire k s
  | .distributorCycle die => Sys2Proof.Machine.execDistributorCycle die s
  | .registerWrite die offset width value => Sys2Proof.Machine.execRegisterWrite die offset width value s
  | .timeExchange die x => Sys2Proof.Machine.execTimeExchange die x s
  | .timeHealthTimeout die => Sys2Proof.Machine.execTimeHealthTimeout die s
  | .orderedPacketArrival port p => Sys2Proof.Machine.execOrderedPacketArrival port p s
  | .watermarkFlitReceive port inOrder vec => Sys2Proof.Machine.execWatermarkFlitReceive port inOrder vec s
  | .watermarkBeacon port => Sys2Proof.Machine.execWatermarkBeacon port s
  | .portStall port => Sys2Proof.Machine.execPortStall port s
  | .fabricAck u part => Sys2Proof.Machine.execFabricAck u part s
  | .creditAuditSend l vc => Sys2Proof.Machine.execCreditAuditSend l vc s
  | .creditAuditReceive l vc freed intact => Sys2Proof.Machine.execCreditAuditReceive l vc freed intact s
  | .renqDelivery p => Sys2Proof.Machine.execRenqDelivery p s
  | .renqAck id status => Sys2Proof.Machine.execRenqAck id status s
  | .redpArrival id => Sys2Proof.Machine.execRedpArrival id s
  | .redwDeadline u slot => Sys2Proof.Machine.execRedwDeadline u slot s
  | .correctedError die => Sys2Proof.Machine.execCorrectedError die s
  | .uncorrectableDataError pa => Sys2Proof.Machine.execUncorrectableDataError pa s
  | .coreStateError e => Sys2Proof.Machine.execCoreStateError e s
  | .fatalError c => Sys2Proof.Machine.execFatalError c s
  | .powerThermalLimit die => Sys2Proof.Machine.execPowerThermalLimit die s
  | .reservedEncoding w => Sys2Proof.Machine.execReservedEncoding w s
  | .fabricAccessArrival p => Sys2Proof.Machine.execFabricAccessArrival p s
  | .computeDiePromise die => Sys2Proof.Machine.execComputeDiePromise die s
  | .marverDrainPoint k => Sys2Proof.Machine.execMarverDrainPoint k s
  | .eret => Sys2Proof.Machine.execEret s
  | .powerLoss => Sys2Proof.Machine.execPowerLoss s

end Sys2Proof.Machine
end

