-- ==== Sys2Proof/Machine/Turn.lean ====
section
/-!
DEFINITION. What acts next: the splits that are ready to issue (01 R19, R22), the events whose occasion may be there, and
the passing of time (21 R385). The order is a free choice (R43); a merge of paths comes before any issue (R25).
-/
namespace Sys2Proof.Machine

open Sys2Proof

/-! ### Splits that are ready -/

/-- A split may issue: it does not wait, or its wait has ended (R19, R28, R36, R268). -/
def Crew.pathReady (c : Crew) (a : Agent) (p : Path) : Bool :=
  p.mask != 0 && (match p.wait with
    | .none => true
    | .poll => true
    | .stuck ks => ks.isEmpty || decide (a.replay.length < 16)
    | .slot _ => true
    | .result _ _ _ => true
    | .sys _ => true
    | .trap _ => a.tl == 0 || p.handler
    | .tokens m => a.tokens &&& m == 0
    | .mfence _ ids => c.marver.waitOver ids
    | _ => false)

/-- The slots of a unit that may issue; a run in flight issues alone (R30), and so does a path on which the group stands
still, once it is ready. -/
def Crew.readySlots (c : Crew) (a : Agent) : List Nat :=
  if a.run.isSome then [a.cur.slot]
  else if a.paths.any fun p => a.blockedBy p then
    ((a.cur :: a.splits).filter fun p => a.blockedBy p && c.pathReady a p).map (·.slot)
  else ((a.cur :: a.splits).filter fun p => c.pathReady a p).map (·.slot)

/-- The splits of a unit in a system instruction that has still to complete. -/
def Agent.sysSlots (a : Agent) : List Nat :=
  ((a.cur :: a.splits).filter Path.inSystem).map (·.slot)

/-- Every split of the part that may issue. A crew that is being saved issues nothing but the system instructions that
the save waits for (R322, R370). -/
def State.readyTurns (s : State) : List Turn :=
  s.allCrews.flatMap fun c => c.agents.flatMap fun a =>
    (if c.area.isSome then a.sysSlots else c.readySlots a).map fun n => .issue ⟨c.key, a.unit⟩ n

/-! ### Occasions of events -/

/-- The keys of the paths of a unit: splits by slot, park entries by lowest lane. -/
def Agent.keyed (a : Agent) : List (PathKey × Path) :=
  ((a.cur :: a.splits).map fun p => (PathKey.slot p.slot, p)) ++ a.park.map fun p => (PathKey.parked p.mask.lowest, p)

/-- The first pair of paths of a unit that merge; two park entries never do (R25). -/
def Agent.mergePair (a : Agent) : Option (PathKey × PathKey) :=
  if a.run.isSome then none
  else
    let ks := a.keyed
    ks.findSome? fun x =>
      match x.1 with
      | .parked _ => none
      | .slot _ => (ks.find? fun y => x.1 != y.1 && x.2.merges y.2).map fun y => (x.1, y.1)

/-- The merges that are due in the part. -/
def State.merges (s : State) : List Instr :=
  s.allCrews.flatMap fun c => c.agents.filterMap fun a =>
    a.mergePair.map fun m => .pathMerge ⟨c.key, a.unit⟩ m.1 m.2

/-- The events that the wait of a path may end in. -/
def Path.occasions (u : AgentKey) (p : Path) : List Instr :=
  match p.wait with
  | .waitv _ d => .waitvRecheck u p.slot :: (if d.isSome then [.waitvDeadline u p.slot] else [])
  | .twait _ _ => [.twaitTargetReached u p.slot]
  | .idle _ _ _ => [.idleWake u p.slot]
  | .redw _ _ (some _) => [.redwDeadline u p.slot]
  | _ => []

/-- The events of a unit; in a crew that is being saved no wait ends and nothing is fetched ahead (R370). -/
def Agent.occasions (a : Agent) (k : CrewKey) (saving : Bool) : List Instr :=
  let u : AgentKey := ⟨k, a.unit⟩
  ((List.range 8).filter fun t => a.tokens.getLsbD t).map (fun t => .resultWriteback u t) ++
  (if a.mayRotate saving && !a.park.isEmpty then [.parkRotation u] else []) ++
  (if saving then []
   else
    (if a.standsStill then []
     else ((a.cur :: a.splits).filter fun p => p.mask != 0).flatMap (Path.occasions u)) ++
    ((List.range 4).filter fun n => (a.regs.qAt n).attached && !(a.regs.qAt n).store &&
      !a.streams.any fun x => x.q == n).map fun n => .queueStreamFetch u n)

/-- The events of a crew. -/
def Crew.occasions (c : Crew) : List Instr :=
  (c.copies.filter fun y => y.keys.isEmpty && c.copyTurn y).map (fun y => .copySectorCount c.key y.id) ++
  (c.marver.queue.filter fun o => o.state == .queued).map (fun o => .marverOpStart c.key o.id) ++
  (c.marver.queue.filter fun o => o.state == .running && decide (o.total ≤ o.step)).map
    (fun o => .marverOpComplete c.key o.id) ++
  (if c.area.isSome || c.runnable.isSome then [.marverDrainPoint c.key] else []) ++
  (if c.agents.all Agent.gone then [.crewRetire c.key] else []) ++
  c.agents.flatMap fun a => a.occasions c.key c.area.isSome

/-- The events of the dies and the hub. -/
def State.dieOccasions (s : State) : List Instr :=
  ((List.range 10).flatMap fun d =>
    let x := s.dieAt d
    (if x.batch.isEmpty && x.flushing.isEmpty then [] else [.lehrBatchFlush d]) ++
    (if d < 8 && x.lehrEn && ((s.queueAt x.replyQ).map fun t => !t.entries.isEmpty).getD false then
        [.faultReplyRetry d, .faultReplyFail d] else []) ++
    ((List.range 12).filter fun k => x.slots.any fun e => e.1 / 16 == k).map (fun k => .crewPlacement d k) ++
    (if x.healthy then [.timeHealthTimeout d] else []) ++
    (x.unpassed.take 1).map (fun p => .orderedPacketArrival none p) ++
    (if d < 8 && !(s.hub.held.isEmpty && s.hub.ports.isEmpty) then [.computeDiePromise d] else [])) ++
  (if s.allCrews.any fun c => c.fetch.isSome then (List.range 8).map .distributorCycle else [])

/-- The events of the pod's ports and links. -/
def State.podOccasions (s : State) : List Instr :=
  (s.hub.ports.flatMap fun p => [.watermarkBeacon p.num, .portStall p.num]) ++
  (((List.range 32).filter fun p => s.pod.credited (.port p)).flatMap fun p =>
    (List.range 4).map fun v => .creditAuditSend (.port p) v) ++
  (s.credits.filterMap fun c => match c.link with
    | .interposer _ _ => some (.creditAuditSend c.link c.vc)
    | .port _ => none) ++
  ((s.renqs.filter fun f => f.packet.dest == s.pod.part).map fun f => .renqDelivery f.packet) ++
  s.redps.map fun f => .redpArrival f.id

/-- The turns among which the next is chosen. -/
def State.candidates (s : State) : List Turn :=
  match s.merges with
  | m :: _ => [.event m]
  | [] =>
    s.readyTurns ++
    ((s.allCrews.flatMap Crew.occasions) ++ s.policyBinds ++ s.dieOccasions ++ s.podOccasions ++
      s.inputs.take 1).map Turn.event

/-- The next turn: the only candidate, or a free choice among several (R43; log entry 3). -/
def State.chooseTurn (s : State) : Turn :=
  match s.candidates with
  | [] => .idle
  | [t] => t
  | l => l.getD (Config.choice s.tick % l.length) .idle

/-! ### The end of a step -/

/-- Time passes on every die (R385; log entry 4). -/
def State.passTime (s : State) : State :=
  { s with
    dies := Vector.ofFn fun i => { s.dies[i] with ptime := s.dies[i].ptime + Config.elapsed s.tick i.val }
    tick := s.tick + 1 }

/-- An event from outside leaves the queue of inputs when it is its turn. -/
def State.takeInput (s : State) (i : Instr) : State :=
  if s.inputs.head? = some i then { s with inputs := s.inputs.drop 1 } else s

/-- The crew barrier of every crew settled, for units that have retired (R252). -/
def State.settleAll (s : State) : State :=
  let s1 := s.settleCbar
  { s1 with crews := s1.crews.map Crew.settleCbar }

/-- The end of a step: killed contexts are removed (R369, R382), crew barriers are settled, queued stores that a full merge table
turned away are tried again (R342), what may leave for other parts leaves and credits come back (R398, R399), time passes, and
the next turn is chosen. -/
def State.endTurn (s : State) : State :=
  let s1 := s.reapKilled.settleAll.retryStores.flush.returnCredits.passTime
  { s1 with turn := s1.chooseTurn }

/-! ### The beginning of an issue -/

/-- What a turn of a split leads to: no such split, an outcome without an instruction, or an instruction. -/
inductive Begin where
  | absent
  | out (r : Step)
  | run (s : State) (i : Instr)

/-- The instruction that a word spells; a word that the decoder rejects is a reserved encoding (R174). -/
def Instr.ofWord (w : Word) : Instr :=
  match decode w with
  | .ok i => i
  | .error _ => .reservedEncoding w

/-- The fetch of the next instruction (R214). -/
def State.beginFetch (s : State) : Begin :=
  match s.fetchWord with
  | .stop e => .out e.settle
  | .word s1 w => .run s1 (Instr.ofWord w)

/-- The system instruction that the split in front has still to finish while its crew is being saved (R322, R370). -/
def State.lastInsn (s : State) : Option HeldInsn :=
  match s.self.cur.wait with
  | .sys h => if s.crew.area.isSome then some h else none
  | _ => none

/-- The turn of the split in front: the system instruction that a save waits for (R322, R372), a trap that it waited to take
(R28), a pending imprecise trap at TL = 0, in a run also (R34, R142), the error of a poisoned record (R378), the end of a wait,
or the fetch of an instruction. -/
def State.beginSplit (s : State) : Begin :=
  let p := s.self.cur
  let free (t : State) : State := t.mapCur fun q => { q with wait := .none }
  match s.lastInsn, p.wait with
  | some h, _ => .run (s.resumeHeld h) (Instr.ofWord h.word)
  | none, .trap t => .out (.next ((free s).raise t))
  | none, .result h d v => .out (.next (s.finishHeld h fun t => t.putD d v))
  | none, w =>
    if s.self.imprecise.isSome ∧ s.self.tl = 0 then
      .run (free s) (.impreciseTrapTaken s.selfKey p.slot)
    else if s.self.pois then
      .out (.next (((free s).mapSelf fun a => { a with pois := false }).raise (Trap.at .eccUe 0 p.lanes)))
    else
      match w with
      | .none => s.beginFetch
      | .poll => (free s).beginFetch
      | .stuck _ => (free s).beginFetch
      | .slot _ => (free s).beginFetch
      | .tokens _ => (free s).beginFetch
      | .sys h => .run (s.resumeHeld h) (Instr.ofWord h.word)
      | .mfence h ids => .out (if s.crew.marver.waitOver ids then s.endWait h ids else .next s)
      | _ => .out (.next s)

/-- The turn of a split. -/
def State.begin (s : State) (u : AgentKey) (slot : Nat) : Begin :=
  match s.focus u slot with
  | none => .absent
  | some s1 => s1.beginSplit

end Sys2Proof.Machine
end

