-- ==== Sys2Proof/Machine/Load.lean ====
section
/-!
DEFINITION. A word placed where the next step fetches. After reset nothing is resident and no program is there: a crew comes
with a launch (18 R351 to R355). `State.loaded` stands for what the host and the firmware do until one is (log entry 29).
-/
namespace Sys2Proof.Machine

open Sys2Proof

/-! ### Where the next step fetches -/

/-- The canonical address that the split in front fetches from next; none where it does not fetch. -/
def State.spotHere (s : State) : Option Nat :=
  let p := s.self.cur
  if p.wait ≠ .none ∨ s.self.imprecise.isSome ∨ s.self.pois ∨ p.mask = 0 ∨ 2 ^ 56 ≤ p.pc.toNat ∨
      s.failedKey p.pc.toNat .fetch then none
  else
    match (s.translate s.ctx .fetch p.pc.toNat).2 with
    | .ok pa _ => canonical pa
    | _ => none

/-- The canonical address that the next step fetches from. -/
def State.fetchSpot (s : State) : Option Nat :=
  match s.turn with
  | .issue u slot => (s.focus u slot).bind State.spotHere
  | _ => none

/-- A word stored at a canonical address, in a sector that holds no error. -/
def State.placeAt (s : State) (ca : Nat) (w : Word) : State :=
  let s1 := s.putBytes ca (leBytes 4 w.toNat)
  { s1 with pois := s1.pois.filter fun k => k != ca / 256 }

/-! ### The small machine -/

/-- The context of the small machine: TAG 1, privilege 2, every feature acknowledged, its page table at 0x10000, handlers
at 0x200000 and 0x300000. -/
def loadedCtx : Context :=
  { Context.empty with
    id := ⟨1, 0⟩
    pl := 2
    nlc := 1
    ptroot := 0x10000
    tvec1 := 0x200000
    tvec2 := 0x300000
    feat := 0x3F }

/-- The unit of the small machine: group 0, every lane at 0x100000, 64 rows. -/
def loadedUnit (tick : Nat) : Agent :=
  Agent.initial ⟨false, 0, 0⟩ Mask.all 0x100000 (Regs.initial 64 0 0 0 0) tick

/-- The crew of the small machine: one gang with 1 KiB of scratchpad on core 0 of cluster 0 of die 0. -/
def loadedCrew : Crew :=
  { Crew.empty with
    key := ⟨⟨1, 0⟩, 0, 0, 0⟩
    groups := 1
    budget := 64
    held := loadedCtx.held
    gangs := [⟨1024, [], [], 0⟩] }

/-- A page table whose one leaf maps the first GiB onto itself, readable, writable and executable, with A and D set. -/
def State.withIdentityMap (s : State) : State :=
  ((s.putBytes 0x10000 (leBytes 8 0x11001)).putBytes 0x11000 (leBytes 8 0x12001)).putBytes 0x12000 (leBytes 8 0xF0DF)

/-- The small machine: the part with a crew of one group in front and its turn to issue. -/
def State.loaded (s : State) : State :=
  { s.withIdentityMap with
    self := loadedUnit s.tick
    crew := loadedCrew
    ctx := loadedCtx
    crews := s.allCrews
    ctxs := s.allCtxs
    turn := .issue ⟨loadedCrew.key, ⟨false, 0, 0⟩⟩ 0 }

/-- A word stored where the next step fetches, in the machine as it is or in the small machine. -/
def State.placeWord (s : State) (w : Word) : State :=
  match s.fetchSpot with
  | some ca => s.placeAt ca w
  | none =>
    match s.loaded.fetchSpot with
    | some ca => s.loaded.placeAt ca w
    | none => s

end Sys2Proof.Machine
end

