-- ==== Sys2Proof/Machine/Step.lean ====
section
/-!
DEFINITION. One step of the part: a split issues one instruction, an event happens, or time passes.
-/
namespace Sys2Proof.Machine

open Sys2Proof

/-- The rest of a step after an instruction or an event. -/
def State.finish : Step → Step
  | .next s => .next s.endTurn
  | .fault f => .fault f
  | .refused r => .refused r

/-- One step. -/
def step (s : State) : Host.Outcome State Fault Refusal :=
  match s.turn with
  | .idle => .next s.endTurn
  | .event i => State.finish (exec i (s.takeInput i))
  | .issue u slot =>
    match s.begin u slot with
    | .absent => .fault .noUnit
    | .out r => State.finish r
    | .run s1 i => State.finish (exec i s1)

/-- The state with an instruction word stored where the next step fetches; after reset, where nothing is resident, in the
small machine of `State.loaded`. -/
def State.withFetchWord (s : State) (_nbits w : Nat) : State := s.placeWord (BitVec.ofNat 32 w)

end Sys2Proof.Machine
end

