-- ==== Sys2Proof/Rounded.lean ====
section
/-!
DEFINITION. What it means that a floating result is an exact value rounded once (02 R50, R54), in exact rational arithmetic and
without the machine's own rounding. No part of the machine uses it.
-/
namespace Sys2Proof.Machine

/-- The exact value of a finite number; 0 stands for the others. -/
def Num.value : Num → ℚ
  | .fin neg man exp => (if neg then -1 else 1) * man * 2 ^ exp
  | _ => 0

/-- A magnitude, in units of its last place, rounded to a whole number of them: `neg` is the sign of the value (R51, R54). -/
def roundUnits (rm : Rm) (neg : Bool) (x : ℚ) : ℕ :=
  let q := ⌊x⌋₊
  let rest := x - q
  let up : Bool := match rm with
    | .rne => decide (1 / 2 < rest ∨ (rest = 1 / 2 ∧ q % 2 = 1))
    | .rtz => false
    | .rup => !neg && decide (rest ≠ 0)
    | .rdn => neg && decide (rest ≠ 0)
  if up then q + 1 else q

/-- `r` is the exact value `v`, not zero, rounded once into the format, with its flags (R50, R54). `lead` is the exponent of the
last of the t + 1 bits that begin with the leading one; the last bit that is kept lies there, or at the subnormal grid. A rounded
magnitude beyond the largest finite value gives an infinity or, as the mode and the saturate bit say, that value. -/
def FFmt.RoundsTo (f : FFmt) (rm : Rm) (sat : Bool) (v : ℚ) (r : ℕ × Flags) : Prop :=
  let neg : Bool := decide (v < 0)
  let away : Bool := match rm with
    | .rne => true
    | .rtz => false
    | .rup => !neg
    | .rdn => neg
  ∃ lead : ℤ, (2 : ℚ) ^ (lead + f.t) ≤ |v| ∧ |v| < (2 : ℚ) ^ (lead + f.t + 1) ∧
    let last := max lead f.emin
    let mag : ℚ := roundUnits rm neg (|v| / 2 ^ last) * 2 ^ last
    let unbounded : ℚ := roundUnits rm neg (|v| / 2 ^ lead) * 2 ^ lead
    ((2 : ℚ) ^ (f.emin + f.t + 2 ^ f.e - 2) ≤ mag →
      r = (if sat || !away then f.maxFin neg else f.inf neg, flagOF ||| flagIX)) ∧
    (mag < (2 : ℚ) ^ (f.emin + f.t + 2 ^ f.e - 2) →
      r.1 < 2 ^ (f.e + f.t + 1) ∧ (∃ man exp, f.unpack r.1 = .fin neg man exp) ∧
      (f.unpack r.1).value = (if neg then -mag else mag) ∧
      r.2 = if mag = |v| then 0 else flagIX ||| (if unbounded < (2 : ℚ) ^ (f.emin + f.t) then flagUF else 0))

/-- The value that R55 gives a code of a binary8 format of precision `p` that is neither its NaN nor an infinity. -/
def codeValue (uns : Bool) (p c : ℕ) : ℚ :=
  let t := p - 1
  let k := if uns then c else c % 128
  let bias : ℤ := if uns then 2 ^ (8 - p) else 2 ^ (7 - p)
  let e : ℕ := k / 2 ^ t
  let m : ℚ := (k % 2 ^ t : ℕ)
  (if !uns && decide (128 ≤ c) then -1 else 1) *
    (if e = 0 then (2 : ℚ) ^ (1 - bias) * (m / 2 ^ t) else (2 : ℚ) ^ ((e : ℤ) - bias) * (1 + m / 2 ^ t))

/-- `r` is the exact value `v`, not zero, encoded once into a binary8 format, with its flags (R54, R58, R59): rounded to `p` bits,
but not below the subnormal grid; a magnitude beyond the largest finite value gives that value, or an infinity where the format has
one, SAT is 0 and the mode points away from zero; a negative value of an unsigned format gives code 0. -/
def EncodesTo (uns infs : Bool) (p : ℕ) (rm : Rm) (sat : Bool) (v : ℚ) (r : ℕ × Flags) : Prop :=
  let neg : Bool := decide (v < 0)
  let away : Bool := match rm with
    | .rne => true
    | .rtz => false
    | .rup => !neg
    | .rdn => neg
  let bias : ℤ := if uns then 2 ^ (8 - p) else 2 ^ (7 - p)
  let least : ℤ := 2 - bias - p
  let infCode : ℕ := if uns then 0xFE else if neg then 0xFF else 0x7F
  let maxCode : ℕ := if uns then (if infs then 0xFD else 0xFE) else (if infs then 0x7E else 0x7F) + (if neg then 0x80 else 0)
  if uns && neg then r = (0, flagIX)
  else ∃ lead : ℤ, (2 : ℚ) ^ (lead + p - 1) ≤ |v| ∧ |v| < (2 : ℚ) ^ (lead + p) ∧
    let last := max lead least
    let mag : ℚ := roundUnits rm neg (|v| / 2 ^ last) * 2 ^ last
    let unbounded : ℚ := roundUnits rm neg (|v| / 2 ^ lead) * 2 ^ lead
    (|codeValue uns p maxCode| < mag →
      r = (if infs && !sat && away then infCode else maxCode, flagOF ||| flagIX)) ∧
    (mag ≤ |codeValue uns p maxCode| →
      r.1 < 256 ∧ (mag = 0 → r.1 = 0) ∧ (mag ≠ 0 → r.1 ≠ 0 ∧ r.1 ≠ (if uns then 0xFF else 0x80) ∧ (infs = true → r.1 ≠ infCode)) ∧
      codeValue uns p r.1 = (if neg then -mag else mag) ∧
      r.2 = if mag = |v| then 0 else flagIX ||| (if unbounded < (2 : ℚ) ^ (1 - bias) then flagUF else 0))

end Sys2Proof.Machine
end

