-- ==== Sys2Proof/Safety.lean ====
section
/-!
DEFINITION. What counts as a safe run, and the invariants that the statements name.
-/
namespace Sys2Proof.Machine

open Sys2Proof

/-- No number of steps from the state ends in a fault or a refusal. -/
def Safe (s : State) : Prop := ∀ k, ∃ t, core.run k s = .next t

/-- DRAM and the caches' copies are in canonical form, so that equal contents are equal data. -/
def State.memoryWf (s : State) : Prop := s.mem.wf = true ∧ s.dirty.wf = true

end Sys2Proof.Machine
end

