-- ==== Sys2Proof/Vocabulary.lean ====
section
/-!
DEFINITION. The words in which the statements speak: the decode checks of each shape of instruction (07 R178), what popping
its queue operands gives (07 R163), and what it means that an instruction of a shape gives a result.
-/
namespace Sys2Proof.Machine

open Sys2Proof

/-! ### Vector instructions -/

/-- The source queues that the specifiers name, each popped once (R163): the state after, the values, the flags. -/
def State.pops (s : State) (i : Instr) (m : Mask) (srcs : List (BitVec 7)) : Except Exit (State × Pops × (Nat → Flags)) :=
  s.popAll (encode i) m (queuesOf srcs) [] fun _ => 0

/-- The decode checks of a vector instruction that writes D, in the order of R178. -/
def State.vecChecks (s : State) (i : Instr) (n : Needs) (m : Mask) (readsD : Bool) (d a : BitVec 7) (b : BSrc) :
    List (Option Trap) :=
  [s.issueCheck n false (encode i) m, operandIf (s.badDest readsD d) (encode i) 0 m,
   operandIf (s.badSource a) (encode i) 1 m, operandIf (s.badB b) (encode i) 2 m, s.bounds d 1 m, s.bounds a 1 m,
   s.boundsB b m]

/-- When a decode check of a vector instruction that writes D fails, the first that does traps (R178). That the checks of D stand
before those of A, and those before B's, is the model's choice (log entry 66). -/
def VecTraps (i : Instr) (n : Needs) (m : State → Mask) (readsD : Bool) (d a : BitVec 7) (b : BSrc) : Prop :=
  ∀ s t, firstTrap (s.vecChecks i n (m s) readsD d a b) = some t → exec i s = .next (s.raise t)

/-- A vector instruction that writes D and passes its decode checks gives a result: with its queue sources popped and its
destination taken, D gets `f`'s values of the sources in the lanes of `m`, `f`'s flags and those of the pops are raised, and the
instruction is over (R181 to R183). -/
def VecValues (i : Instr) (n : Needs) (m : State → Mask) (readsD : Bool) (d a : BitVec 7) (b : BSrc)
    (f : State → Lanes → Lanes → Lanes → Lanes × Flags) : Prop :=
  ∀ s s1 s2 ps fl, firstTrap (s.vecChecks i n (m s) readsD d a b) = none →
    s.pops i (m s) (a :: b.specs) = .ok (s1, ps, fl) →
    s1.writeDest d (encode i) (m s) (f s (s.readV ps a) (s.readB ps b) (s.oldDest d)).1 = .done s2 →
    exec i s = .next
      (s2.raiseFlags ((f s (s.readV ps a) (s.readB ps b) (s.oldDest d)).2 ||| orFlags (m s) fl)).advance

/-- A vector instruction that writes D traps on its first failing check, and otherwise gives a result. -/
def VecResult (i : Instr) (n : Needs) (m : State → Mask) (readsD : Bool) (d a : BitVec 7) (b : BSrc)
    (f : State → Lanes → Lanes → Lanes → Lanes × Flags) : Prop :=
  VecTraps i n m readsD d a b ∧ VecValues i n m readsD d a b f

/-- A vector integer instruction: `f` in each lane, no flag of its own (R184). -/
def IntResult (i : Instr) (h : HmodUse) (g : BitVec 3) (readsD : Bool) (d a : BitVec 7) (b : BSrc)
    (f : State → Word → Word → Word → Word) : Prop :=
  VecValues i { hmod := h } (fun s => s.part g) readsD d a b fun s x y z =>
    (Lanes.tab fun n => f s (x.at n) (y.at n) (if readsD then z.at n else 0), 0)

/-- A vector floating instruction: `f` in each lane, the flags of the participating lanes ORed (R50, R191). -/
def FloatResult (i : Instr) (n : Needs) (g : BitVec 3) (readsD : Bool) (d a : BitVec 7) (b : BSrc)
    (f : State → Word → Word → Word → Word × Flags) : Prop :=
  VecResult i n (fun s => s.part g) readsD d a b fun s x y z =>
    (Lanes.tab fun k => (f s (x.at k) (y.at k) (if readsD then z.at k else 0)).1,
     orFlags (s.part g) fun k => (f s (x.at k) (y.at k) (if readsD then z.at k else 0)).2)

/-- The decode checks of a vector instruction that writes a predicate. -/
def State.predChecks (s : State) (i : Instr) (n : Needs) (m : Mask) (a : BitVec 7) (b : BSrc) : List (Option Trap) :=
  [s.issueCheck n false (encode i) m, operandIf (s.badSource a) (encode i) 1 m, operandIf (s.badB b) (encode i) 2 m,
   s.bounds a 1 m, s.boundsB b m]

/-- When a decode check of a vector instruction that writes a predicate fails, the first that does traps (R178; log entry 66). -/
def PredTraps (i : Instr) (h : HmodUse) (g : BitVec 3) (a : BitVec 7) (b : BSrc) : Prop :=
  ∀ s t, firstTrap (s.predChecks i { hmod := h } (s.part g) a b) = some t → exec i s = .next (s.raise t)

/-- A vector instruction that writes predicate `p` in its participating lanes gives a result (R188). -/
def PredResult (i : Instr) (h : HmodUse) (g p : BitVec 3) (a : BitVec 7) (b : BSrc)
    (f : State → Lanes → Lanes → Mask × Flags) : Prop :=
  ∀ s s1 ps fl, firstTrap (s.predChecks i { hmod := h } (s.part g) a b) = none →
    s.pops i (s.part g) (a :: b.specs) = .ok (s1, ps, fl) →
    exec i s = .next (((s1.putP p (s.part g) (f s (s.readV ps a) (s.readB ps b)).1).raiseFlags
      ((f s (s.readV ps a) (s.readB ps b)).2 ||| orFlags (s.part g) fl))).advance

/-- The value nearest to an integer between two bounds (R46). -/
def nearest (lo hi v : Int) : Int := max lo (min hi v)

/-- The 32-bit word nearest to an integer, signed or unsigned (R46). -/
def nearest32 (uns : Bool) (v : Int) : Word :=
  BitVec.ofInt 32 (if uns then nearest 0 (2 ^ 32 - 1) v else nearest (-(2 ^ 31)) (2 ^ 31 - 1) v)

/-- The guard, destination and sources of a vector instruction that writes D (R157, R181). SEL, whose guard selects and masks
nothing (R186), stands with guard 0. -/
def vecForm : Instr → Option (BitVec 3 × BitVec 7 × BitVec 7 × BSrc)
  | .iadd g d a b | .isub g d a b | .iadds g d a b | .isubs g d a b | .imul g d a b | .imulh g d a b | .imad g d a b
  | .idiv g d a b | .irem g d a b | .imin g d a b | .imax g d a b | .and g d a b | .or g d a b | .xor g d a b
  | .andn g d a b | .shl g d a b | .shr g d a b | .sar g d a b | .rotl g d a b | .bfe g d a b | .bfi g d a b
  | .dp4 g d a b | .dp4s g d a b | .dp2 g d a b | .dp2s g d a b | .shfl g d a b
  | .fadd g d a b | .fsub g d a b | .fmul g d a b | .fdiv g d a b | .ffma g d a b | .ffms g d a b | .fmin g d a b
  | .fmax g d a b | .fscale g d a b | .faddx g d a b | .fmulx g d a b | .hadd2 g d a b | .hmul2 g d a b
  | .hfma2 g d a b | .hdot2 g d a b => some (g, d, a, .spec b)
  | .sel _ d a b => some (0, d, a, .spec b)
  | .popc g d a | .clz g d a | .brev g d a | .iabs g d a | .mov g d a | .ballot g d a | .fabs g d a | .fneg g d a
  | .redl g d a _ | .fredl g d a _ | .scanl g d a _ | .fscanl g d a _ | .fsfu g d a _ | .fcvt g d a _
  | .frnd g d a _ => some (g, d, a, .none)
  | .iaddi g d a k | .imuli g d a k | .andi g d a k | .ori g d a k | .xori g d a k | .shli g d a k | .shri g d a k
  | .sari g d a k => some (g, d, a, .imm k)
  | .movi g d k => some (g, d, 0x78, .imm k)
  | _ => none

/-- The guard, predicate destination and sources of a vector instruction that writes a predicate (R188, R194, R195, R203). -/
def predForm : Instr → Option (BitVec 3 × BitVec 3 × BitVec 7 × BSrc)
  | .icmp g _ p a b | .fcmp g _ p a b | .fclass g p a b => some (g, p, a, .spec b)
  | .icmpi g _ p a k => some (g, p, a, .imm k)
  | .vote g _ p a => some (g, p, a, .none)
  | _ => none

/-- What a completed instruction of a unit may change beside its destination: nothing outside the unit, and in the unit the
path's PC, prefix and lanes to execute, the count of retired instructions, and the position, latches and long-latency mark of a
run, whose instructions are counted in it until it commits (R34, R359). -/
def State.OnlySelf (s t : State) : Prop :=
  t = { s with self := t.self } ∧
  t.self = { s.self with cur := t.self.cur, regs := t.self.regs, run := t.self.run, retired := t.self.retired } ∧
  t.self.cur = { s.self.cur with pc := s.self.cur.pc + 4, pfx := Pfx.empty, only := none, failed := t.self.cur.failed } ∧
  (s.self.run = none → t.self.run = none) ∧
  ∀ r, s.self.run = some r → t.self.retired = s.self.retired ∧
    ∃ lat long, t.self.run = some { r with pos := r.pos + 1, count := r.count + 1, lat := lat, long := long }

/-- Every register but D is unchanged, D is unchanged outside the lanes of `m`, and FPC keeps all but its flags, which are
never cleared (R50, R181). -/
def Regs.OnlyDest (r q : Regs) (d : BitVec 7) (m : Mask) : Prop :=
  q = { r with v := q.v, o := q.o, fpc := q.fpc } ∧
  q.v.length = r.v.length ∧
  (∀ k, k < r.v.length → ¬ (isV d = true ∧ k = d.toNat + r.ix) → q.row k = r.row k) ∧
  (∀ k < 16, ¬ (isO d = true ∧ k = d.toNat - 0x60) → q.oAt k = r.oAt k) ∧
  (∀ n < 32, m.has n = false → (isV d = true → (q.row (d.toNat + r.ix)).at n = (r.row (d.toNat + r.ix)).at n) ∧
    (isO d = true → (q.oAt (d.toNat - 0x60)).at n = (r.oAt (d.toNat - 0x60)).at n)) ∧
  (∃ fl : Flags, q.fpc = r.fpc ||| fl.setWidth 32)

/-! ### Scalar instructions -/

/-- The decode checks of a scalar instruction that writes D. -/
def State.scalarChecks (s : State) (i : Instr) (h : HmodUse) (d a : BitVec 7) (b : SSrc) : List (Option Trap) :=
  [s.issueCheck { hmod := h, issuer := .both } false (encode i) s.self.cur.lanes,
   operandIf (!isS d) (encode i) 0 s.self.cur.lanes, operandIf (s.badScalar a) (encode i) 1 s.self.cur.lanes,
   operandIf (s.badSB b) (encode i) 2 s.self.cur.lanes]

/-- A scalar instruction gives a result: a failed check traps; a false guard leaves everything but the PC; else the s register
of D gets `f`'s value of the sources (R165, R178, R223). -/
def ScalarResult (i : Instr) (h : HmodUse) (g : BitVec 3) (d a : BitVec 7) (b : SSrc) (f : State → DWord → DWord → DWord) :
    Prop :=
  (∀ s t, firstTrap (s.scalarChecks i h d a b) = some t → exec i s = .next (s.raise t)) ∧
  ∀ s, firstTrap (s.scalarChecks i h d a b) = none →
    exec i s = .next
      (if s.uniform g then s.putS (d.toNat - 0x40) (f s (s.readS a) (s.readSB b)) else s).advance

/-! ### FX, FE and FS instructions -/

/-- An FX, FE or FS instruction passes its decode checks and some lane of its split executes. -/
def State.FxReady (s : State) (i : Instr) (n : Needs) : Prop :=
  s.issueCheck n false (encode i) s.self.cur.lanes = none ∧ s.self.cur.lanes ≠ 0

/-! ### Memory instructions -/

/-- Where the participating lanes of a global FM access lie: the state after translation and each lane's place (R115, R227). -/
def State.places (s : State) (sh : AccShape) (t : BitVec 3) (x : BitVec 7) (m : Mask) : State × List LaneAcc :=
  s.lanesBy (fun st key => st.laneVia sh (s.treg t) key)
    ((offsets m (s.readV [] x)).map fun c => (c.1, (s.treg t).addr c.2, c.2.toNat))

/-- A global FM access goes ahead in `s` and every lane finds its place: `u` is the state after translation, `l` the lanes
(R115, R142, R227). X is no queue. -/
def State.Placed (s : State) (sh : AccShape) (w : Word) (t : BitVec 3) (x : BitVec 7) (m : Mask) (u : State)
    (l : List LaneAcc) : Prop :=
  isQ x = false ∧ (s.treg t).preCheck sh.width (offsets m (s.readV [] x)) w m = none ∧
  s.self.queuedPage ((offsets m (s.readV [] x)).map fun c => (s.treg t).addr c.2) = false ∧
  s.places sh t x m = (u, l) ∧ ∀ a ∈ l, a.isOk = true

/-- A scratchpad access of the issuer's own gang goes ahead: every offset lies in the scratchpad, aligned, and for a load in no
poisoned sector (R104, R227, R230). -/
def State.InScratchpad (s : State) (reads : Bool) (width : Nat) (x : BitVec 7) (m : Mask) : Prop :=
  isQ x = false ∧ ∃ g, s.gang s.self.unit.gang = some g ∧ ∀ n < 32, m.has n = true →
    ((s.readV [] x).at n).toNat < g.size ∧ ((s.readV [] x).at n).toNat % width = 0 ∧
    (reads = true → g.pois.contains (((s.readV [] x).at n).toNat / 256) = false)

/-- The byte at `ca` after the bytes of `l` have been stored in order over `old`. -/
def storedOver (l : List (Nat × Byte)) (old : Nat → Byte) (ca : Nat) : Byte :=
  ((l.reverse.find? fun b => b.1 == ca).map (·.2)).getD (old ca)

/-- `n` little-endian bytes of a value from an address upward. -/
def bytesFrom (ca n v : Nat) : List (Nat × Byte) := (List.range n).map fun k => (ca + k, BitVec.ofNat 8 (v / 2 ^ (8 * k)))

/-- Every register but `rows` rows from D is unchanged, those outside the lanes of `m` too, and FPC keeps all but its flags,
which are never cleared (R229). -/
def Regs.OnlyRows (r q : Regs) (d : BitVec 7) (rows : Nat) (m : Mask) : Prop :=
  q = { r with v := q.v, o := q.o, fpc := q.fpc } ∧
  q.v.length = r.v.length ∧
  (∀ k, k < r.v.length → ¬ (isV d = true ∧ d.toNat + r.ix ≤ k ∧ k < d.toNat + r.ix + rows) → q.row k = r.row k) ∧
  (∀ k < 16, ¬ (isO d = true ∧ k = d.toNat - 0x60) → q.oAt k = r.oAt k) ∧
  (∀ n < 32, m.has n = false → (isV d = true → ∀ k < rows, (q.row (d.toNat + r.ix + k)).at n = (r.row (d.toNat + r.ix + k)).at n) ∧
    (isO d = true → (q.oAt (d.toNat - 0x60)).at n = (r.oAt (d.toNat - 0x60)).at n)) ∧
  (∃ fl : Flags, q.fpc = r.fpc ||| fl.setWidth 32)

/-- What a completed load changes of `u`: registers under D of its unit, and the path past the word. -/
def State.OnlyLoads (u t : State) (d : BitVec 7) (rows : Nat) (m : Mask) : Prop :=
  u.OnlySelf t ∧ u.self.regs.OnlyRows t.self.regs d rows m

/-- A release at `scope` need not wait: the unit's replay queue is empty, and at FABRIC scope or wider no access of the unit
towards another part waits to be accepted by the hub (R142, R144, R398). -/
def State.MayRelease (s : State) (scope : Nat) : Prop :=
  s.self.replay = [] ∧ (8 ≤ scope → s.unaccepted s.selfKey = false)

/-- The state after a release at `scope`: the writes it covers are published at that scope, and at FABRIC scope or wider its fence
markers stand at the hub (R144, R145, R398). -/
def State.released (s : State) (scope : Nat) : State :=
  if scope < 8 then s.publish scope else (s.publish scope).enterMarkers

/-! ### Memory in its canonical form -/

/-- Every memory of the part is in its canonical form: DRAM, the bytes cached over it, the staging buffer, every scratchpad and
every accumulator (R1, R77, R104). -/
def State.MemoryForm (s : State) : Prop :=
  s.mem.wf = true ∧ s.dirty.wf = true ∧ s.boot.staging.wf = true ∧
  ∀ c ∈ s.crew :: s.crews, (∀ g ∈ c.gangs, g.mem.wf = true) ∧ Sparse.wf 0 c.marver.acc = true

/-! ### The host -/

/-- A command packet of one operation reaches an endpoint of a part whose bring-up is over, with a good header (R401, R411). -/
def State.Receives (s : State) (c : Cmd) (opc : Nat) : Prop :=
  (c.die = 8 ∨ c.die = 9) ∧ s.boot.step = 7 ∧ s.boot.fail = false ∧ c.opc = opc ∧ c.len = c.bytes.length ∧ 32 ≤ c.len ∧
  c.len ≤ 4096 ∧ c.len % 8 = 0 ∧ zeroAt c.bytes 0x0C 4 = true ∧ zeroAt c.bytes 0x18 8 = true ∧ c.ctxWord < 2 ^ 20

/-- The one RESP message that answers a command: its status, ADDR[63:8], and a body of whole 8 bytes (R401). -/
def State.answers (q : State) (c : Cmd) (status extra : Nat) (body : List Byte) : State :=
  { q with outbox := q.outbox ++
    [.resp c.die c.seq c.ctxWord status extra (body ++ List.replicate ((8 - body.length % 8) % 8) 0)] }

/-! ### The Marver -/

/-- An engine instruction passes its issue checks, some lane executes, and EXCL does not keep its thread away (R259, R260). -/
def State.EngineReady (s : State) (i : Instr) (scope : Bool) (feat : Nat) (b : BitVec 5) (excl : Bool) : Prop :=
  s.issueCheck (engNeeds scope feat) (s.hmod.scope != 0 && (b == 0 || decide (s.hmod.scope.toNat < 4))) (encode i)
    s.self.cur.lanes = none ∧ s.self.cur.lanes ≠ 0 ∧
  (excl = true → s.crew.marver.mcf.getLsbD 4 = true → bitsOf s.crew.marver.mcf.toNat 6 5 = s.self.unit.ix)

/-- The Marver of the crew in front replaced. -/
def State.withMarver (s : State) (m : Marver) : State := { s with crew := { s.crew with marver := m } }

/-- An operation of the Marver in front has a step to take (R79, R98): it runs, has not failed, and its context is in front. -/
def State.Running (s : State) (o : MOp) : Prop :=
  s.crew.key ≠ CrewKey.none ∧ s.ctx.id = s.crew.key.ctx ∧ s.ctx.id ≠ CtxId.none ∧
  s.crew.marver.queue.find? (fun x => x.id == o.id) = some o ∧ o.state = .running ∧ o.failed = false ∧ o.step < o.total

/-- The next step of an operation that has one. -/
def State.nextStep (s : State) (o : MOp) : State × EngEnd := s.opStep s.crew s.ctx o

/-- The word that the outputs of a segment of a wave give element `e` of operand `k`, if they give it one (R93, R266). -/
def WaveOut.word (w : WaveOut) (k e : Nat) : Option Word :=
  w.puts.findSome? fun u =>
    if u.k = k ∧ u.off ≤ 4 * e ∧ 4 * e + 4 ≤ u.off + u.data.length then
      some (BitVec.ofNat 32 (leNat (slice (u.data.map (·.2)) (4 * e - u.off) 4)))
    else none

/-- The traceback code that the outputs of a segment give cell `c`, if they give it one (R93, R266). -/
def WaveOut.code (w : WaveOut) (c : Nat) : Option Nat :=
  w.puts.findSome? fun u =>
    if u.k = 7 ∧ u.off ≤ c / 4 then
      (u.data[c / 4 - u.off]?).bind fun d =>
        if d.1.toNat / 4 ^ (c % 4) % 4 = 3 then some (d.2.toNat / 4 ^ (c % 4) % 4) else none
    else none

/-- The operation that an engine instruction queues: its thread, its barrier, the scope of its arrival and the zero rule of its
thread are captured at issue (R78, R80, R259, R260). -/
def State.newOp (s : State) (eop : Nat) (bar : Option ScrRef) (block : List Byte) (arg : Nat) : MOp where
  id := s.crew.marver.nextId
  eop := eop
  thread := s.self.unit.ix
  barrier := bar
  scope := if s.hmod.scope ≠ 0 then s.hmod.scope.toNat
    else if bitsOf s.crew.marver.mcf.toNat 3 0 = 0 then 4 else bitsOf s.crew.marver.mcf.toNat 3 0
  zc := s.zc
  block := block
  arg := arg
  step := 0
  skip := 0
  state := .queued
  failed := false
  keys := []

/-- An engine instruction queues its operation, or waits while the queue is full (R267). -/
def State.Queues (s : State) (i : Instr) (eop : Nat) (bar : Option ScrRef) (block : List Byte) (arg : Nat) : Prop :=
  let m := s.crew.marver
  (m.queue.length < Config.marverDepth → exec i s = .next
    (s.withMarver { m with queue := m.queue ++ [s.newOp eop bar block arg], nextId := m.nextId + 1 }).advance) ∧
  (Config.marverDepth ≤ m.queue.length → exec i s = .next (s.mapSelf fun u => u.hold .poll))

end Sys2Proof.Machine
end

