-- ==== Sys2Proof/Certificates/Slice0/Obligations.lean ====
section
/-!
DEFINITION. The statements for the provers.
-/
open Sys2Proof Sys2Proof.Machine

/-! ### Encodings and steps -/

/-- R159 to R163, R174, R179, R181, R384: words written out from the encoding tables of the spec decode to what they spell,
and reserved ones to nothing. -/
def Obligations.DecodeWords : Prop :=
  decode 0x021FBFB0 = .ok (.iadd 0 0x3F 0x3F 0x58) ∧ decode 0x160489F0 = .ok (.icmp 0 1 1 9 0x78) ∧
  decode 0x4238060E = .ok (.fmul 0 0x70 6 7) ∧ decode 0x40818104 = .ok (.fadd 2 3 1 2) ∧
  decode 0x83C578FF = .ok (.movi 7 0x0A 0xFF) ∧ decode 0xAA0AD8F0 = .ok (.scmp 0 2 5 0x58 0x78) ∧
  decode 0xC07FFFFD = .ok (.br 1 0x3FFFFD) ∧ decode 0xDC3C7B00 = .ok (.abind 0 7 0x58) ∧
  decode 0xE43C78F0 = .ok (.fence 0) ∧ decode 0xEA105000 = .ok (.barv 0 0x14) ∧ decode 0xF8C00000 = .ok (.mwait 0) ∧
  decode 0xF00214C0 = .ok (.qpop 4 5 6) ∧ decode 0xFA1D6400 = .ok (.rdsr 0x1A 0x19) ∧
  decode 0xFE7FFFFF = .ok (.himm 0x7FFFFF) ∧ decodeTableWord 32 0 = none ∧ decodeTableWord 32 0xFFFFFFFF = none

/-- R158: what the decoder reads from the word of a well-formed instruction is that instruction, with every operand at every
value that the encoding admits: no bit of an encoding is dropped. -/
def Obligations.DecodeEncode : Prop := ∀ i : Instr, i.isWord = true → i.wellFormed = true → decode (encode i) = .ok i

/-- R214: a split whose turn it is fetches the word at its PC through its context's page table, and executes the instruction
that the word spells, or takes ILLEGAL_INSN at a word that spells none (R174); at the end of the step time passes, contexts
that are to be killed are removed, and the next turn is chosen. -/
def Parts.StepRunsDecoded : Prop :=
  ∀ (s s1 s2 : State) (u : AgentKey) (slot pa ca : Nat) (x : Attr),
    s.turn = .issue u slot → s.focus u slot = some s1 → s1.self.cur.wait = .none →
    (s1.self.imprecise = none ∨ s1.self.tl ≠ 0 ∨ s1.self.run ≠ none) → s1.self.pois = false →
    s1.self.cur.pc.toNat < 2 ^ 56 → s1.failedKey s1.self.cur.pc.toNat .fetch = false →
    s1.translate s1.ctx .fetch s1.self.cur.pc.toNat = (s2, .ok pa x) → canonical pa = some ca →
    s2.poisonedAt ca = false →
    (∀ i, decode (BitVec.ofNat 32 (s2.numAt ca 4)) = .ok i → step s = State.finish (exec i s2)) ∧
    ((∀ i, decode (BitVec.ofNat 32 (s2.numAt ca 4)) ≠ .ok i) → step s = .next
      (s2.raise (Trap.at .illegalInsn (s2.numAt ca 4 % 2 ^ 32) s2.self.cur.lanes)).endTurn)

/-- The turn of a split whose outcome has come finishes its held instruction: D gets the value, and the split goes on after the
word (R274, R281, R396; as a turn of its own it is the model's choice, log entry 55). That of a split in a system instruction
that could not complete tries it again, as it was held (R322). -/
def Parts.StepFinishesHeld : Prop :=
  ∀ (s s1 : State) (u : AgentKey) (slot : Nat) (h : HeldInsn),
    s.turn = .issue u slot → s.focus u slot = some s1 →
    (∀ d v, s1.self.cur.wait = .result h d v → ∃ t : State, step s = .next t.endTurn ∧
      t.self.cur.pc = h.addr + 4 ∧ t.self.cur.wait = .none ∧ t.self.cur.pfx = Pfx.empty ∧
      t.self.regs = (if d = 0 then s1.self.regs
        else { s1.self.regs with s := s1.self.regs.s.setIfInBounds d.toNat v }) ∧
      t = { s1 with self := { s1.self with cur := t.self.cur, regs := t.self.regs, run := t.self.run,
                                           retired := t.self.retired } }) ∧
    (s1.self.cur.wait = .sys h → (s1.self.imprecise = none ∨ s1.self.tl ≠ 0 ∨ s1.self.run ≠ none) → s1.self.pois = false →
      ∀ i, decode h.word = .ok i → step s = State.finish (exec i { s1 with self := { s1.self with cur :=
        { s1.self.cur with pc := h.addr, pfx := h.pfx, wait := .none } } }))

/-- The step of an event is the event, taken from the inputs if it stands at their head, and the end of the step; an event that
changes nothing, because its occasion is absent, lets time pass (the model's choice, log entry 30). -/
def Parts.StepRunsEvents : Prop :=
  ∀ (s t : State) (i : Instr), s.turn = .event i →
    (exec i (s.takeInput i) = .next t → step s = .next t.endTurn) ∧
    (∀ r, s.inputs = i :: r → (s.takeInput i) = { s with inputs := r })

/-- Nothing stops the part: every instruction and event answers a next state, in every state. -/
def Parts.NothingStops : Prop := ∀ (i : Instr) (s : State), ∃ t, exec i s = .next t

/-- R214, R174: a step whose turn is a split's runs the instruction that its word spells, or finishes the one that it holds; one
whose turn is an event's runs the event; no instruction stops the part. -/
def Obligations.StepRunsTurn : Prop :=
  Parts.StepRunsDecoded ∧ Parts.StepFinishesHeld ∧ Parts.StepRunsEvents ∧ Parts.NothingStops

/-- R317, R346, R359, R397, R411, R415 and the model's log entry 2: what reset leaves. The registers with reset values hold
them; no unit is resident, and no context, queue, object or round exists; the part stands at step 1 of power-up. -/
def Obligations.ResetValues : Prop :=
  let s := State.reset
  s.allCrews = [] ∧ s.allCtxs = [] ∧ s.mem = [] ∧ s.dirty = [] ∧ s.unpushed = [] ∧ s.tlb = [] ∧ s.queues = [] ∧
  s.work = [] ∧ s.flits = [] ∧ s.frameDrops = [] ∧
  s.punty.names = [] ∧ s.punty.objs = [] ∧ s.rounds = [] ∧ s.hub.enabled = false ∧ s.hub.ordctl.toNat % 65536 = 100 ∧
  s.hub.lateDrop = 0 ∧ s.boot.step = 1 ∧ s.boot.fail = false ∧ s.boot.ack = none ∧
  (∀ d < 10, (s.dieAt d).lehrEn = false ∧ (s.dieAt d).healthy = false ∧ (s.dieAt d).slots = [] ∧
    (s.dieAt d).merge = [] ∧ (s.dieAt d).batch = []) ∧
  (∀ d < 10, ∀ c < 48, (s.dieAt d).urg c = urgctlReset) ∧ s.MemoryForm

/-! ### Traps -/

/-- R366, R313 to R316, R173, R368: the delivery of a trap of a split at TL 0 or 1, outside a run, with a handler: the trap
registers of the next level, TL, and the split at the vector with all its lanes; an open version is discarded and s31 gets its
identifier; the other level's registers, the other splits and everything outside the unit stay as they are. -/
def Obligations.TrapDelivery : Prop :=
  ∀ (s : State) (t : Trap) (vec : DWord),
    s.self.run = none → (s.self.cur.handler = true ∨ s.self.tl = 0) →
    ((s.self.tl = 0 ∧ vec = s.ctx.tvec1) ∨ (s.self.tl = 1 ∧ vec = s.ctx.tvec2)) → vec ≠ 0 →
    let a := s.self
    let b := (s.raise t).self
    let old := if a.tl = 0 then a.t1 else a.t2
    let new := if a.tl = 0 then b.t1 else b.t2
    let disc := a.version.open_
    s.raise t = { s with self := b } ∧
    b.tl = a.tl + 1 ∧
    new.epc.toNat = (a.cur.pc.toNat + if t.after then 4 else 0) % 2 ^ 56 ∧
    new.cause.toNat = t.cause.code + (if t.after then 0 else a.cur.pfx.count % 8) * 256 + t.impr.toNat * 2048 +
      disc.toNat * 4096 + (disc && a.version.part).toNat * 8192 ∧
    new.val = t.val ∧ new.mask = (if a.unit.gaffer then 1 else t.mask) ∧
    new.split.toNat = a.cur.mask.toNat * 2 ^ 32 + a.cur.slot % 4 ∧ new.scr = old.scr ∧
    (if a.tl = 0 then b.t2 = a.t2 else b.t1 = a.t1) ∧
    b.cur.pc = vec ∧ b.cur.mask = a.cur.mask ∧ b.cur.slot = a.cur.slot ∧ b.cur.only = none ∧ b.cur.pfx = Pfx.empty ∧
    b.cur.handler = true ∧ b.cur.stack = a.cur.stack ∧
    (disc = false → b.regs = a.regs ∧ b.version = a.version ∧ b.replay = a.replay) ∧
    (disc = true → b.version.open_ = false ∧ b.regs.s[31] = a.version.id ∧
      b.regs = { a.regs with s := a.regs.s.set 31 a.version.id } ∧ b.replay = a.replay.filter fun r => !r.ver) ∧
    b = { a with cur := b.cur, tl := b.tl, t1 := b.t1, t2 := b.t2, regs := b.regs, version := b.version,
                 replay := b.replay }

/-- R366, R316, R369: a trap at TL = 2, or one whose TVEC is 0, kills the context and reports it once; it writes no trap
register, and the unit stays as it is. -/
def Parts.TrapKills : Prop :=
  ∀ (s : State) (t : Trap), s.self.run = none → (s.self.cur.handler = true ∨ s.self.tl = 0) →
    (s.self.tl = 2 ∨ (s.self.tl = 0 ∧ s.ctx.tvec1 = 0) ∨ (s.self.tl = 1 ∧ s.ctx.tvec2 = 0)) →
    (s.ctx.kill = true → s.raise t = s) ∧
    (s.ctx.kill = false → ∃ r, s.raise t = { s with ctx := { s.ctx with kill := true }, outbox := s.outbox ++ [.kill r] } ∧
      r.length = 32 ∧ fieldAt r 0 4 = s.ctx.id.word.toNat ∧ fieldAt r 4 1 = t.cause.code ∧
      fieldAt r 5 1 = (if s.self.tl = 2 then 2 else s.self.tl + 1) ∧ fieldAt r 6 1 = 0 ∧
      fieldAt r 8 2 = s.crew.lcl % 2 ^ 16 ∧
      fieldAt r 0x0A 1 = (if s.self.unit.gaffer then 0xFF else s.self.unit.gang % 256) ∧
      fieldAt r 0x0B 1 = s.self.unit.ix % 256 ∧
      fieldAt r 0x10 8 = (s.self.cur.pc.toNat + if t.after then 4 else 0) % 2 ^ 56 ∧ fieldAt r 0x18 8 = t.val.toNat)

/-- R28, R34: a trap in a run rolls the run back first: the registers are those at the RUNB, no store of it is left, and the
trap is the one of the split at the RUNB; a split whose group handles another split's trap only waits with its own. -/
def Parts.TrapInRun : Prop :=
  ∀ (s : State) (t : Trap),
    (∀ r, s.self.run = some r →
      let a : Agent := { s.self with
        regs := r.saved, run := none, cur := { s.self.cur with pc := r.pc, pfx := Pfx.empty, only := none } }
      s.raise t = { s with self := a }.raise { t with after := false }) ∧
    (s.self.run = none → s.self.tl ≠ 0 → s.self.cur.handler = false →
      s.raise t = { s with self := { s.self with cur := { s.self.cur with wait := .trap t } } })

/-- R34, R366, R368: which traps kill a context, and what a trap in a run leaves. -/
def Obligations.TrapsKill : Prop := Parts.TrapKills ∧ Parts.TrapInRun

/-- R217, R218, R323, R173: TRAP raises BREAK or SW_TRAP at the word after it; TRET lowers TL by one and ERET sets it to 0;
both resume the split at TEPC less the prefix, with all its lanes, of which those of TSPLIT inside TMASK alone execute the first
instruction, and change no register, no trap register and no memory. That lanes which a merge has added in the handler return
with the split is the model's choice (log entry 46). -/
def Parts.TrapReturn : Prop :=
  (∀ (g : BitVec 3) (k : BitVec 8) (s : State),
    s.issueCheck { issuer := .both } false (encode (.trap g k)) s.self.cur.lanes = none → s.uniform g = true →
    let v := (s.imm k 32).toNat
    exec (.trap g k) s = .next (s.raise
      { cause := if v = 0 then .brk else .swTrap, val := BitVec.ofNat 64 v, mask := s.self.cur.lanes, impr := false,
        after := true })) ∧
  ∀ (s t : State) (i : Instr) (tl : Nat),
    ((∃ g, i = .tret g ∧ s.uniform g = true ∧ tl = s.self.tl - 1 ∧
        s.issueCheck { issuer := .both, run := .never, tlOk := fun n => n != 0 } false (encode i) s.self.cur.lanes = none) ∨
      (i = .eret ∧ tl = 0 ∧ s.FxReady i (fsNeeds 1 fun n => n != 0))) →
    exec i s = .next t →
    let r := if s.self.tl = 2 then s.self.t2 else s.self.t1
    t = { s with self := t.self } ∧
    t.self = { s.self with cur := t.self.cur, tl := tl, retired := t.self.retired } ∧
    t.self.cur.pc = r.epc - BitVec.ofNat 64 (4 * (r.cause.toNat / 2 ^ 8 % 8)) ∧
    t.self.cur.mask = s.self.cur.mask ∧
    t.self.cur.only = some (r.mask &&& BitVec.ofNat 32 (r.split.toNat / 2 ^ 32)) ∧ t.self.cur.pfx = Pfx.empty ∧ t.self.cur.wait = .none ∧
    t.self.cur.slot = s.self.cur.slot ∧ t.self.cur.stack = s.self.cur.stack

/-- R218, R323: TRET and ERET complete where their decode checks pass. -/
def Parts.TrapReturnCompletes : Prop :=
  (∀ (g : BitVec 3) (s : State), s.uniform g = true →
    s.issueCheck { issuer := .both, run := .never, tlOk := fun n => n != 0 } false (encode (.tret g)) s.self.cur.lanes =
      none →
    ∃ t, exec (.tret g) s = .next t ∧ t.self.tl = s.self.tl - 1) ∧
  (∀ s : State, s.FxReady .eret (fsNeeds 1 fun n => n != 0) → ∃ t, exec .eret s = .next t ∧ t.self.tl = 0)

/-- R218, R323: TRET and ERET. -/
def Obligations.TrapReturns : Prop := Parts.TrapReturn ∧ Parts.TrapReturnCompletes

/-- R178, R179: the order of the checks of an instruction that writes a vector register, each with its trap, TVAL and lanes:
ILLEGAL_INSN, then ILLEGAL_ISSUER, ILLEGAL_OPERAND by field, REG_BOUNDS with the row. That D stands before A, and A before B, is
the model's choice (log entry 66). -/
def Parts.CheckOrder : Prop :=
  ∀ (g : BitVec 3) (d a b : BitVec 7) (s : State),
    let i : Instr := .imad g d a b
    let m := s.part g
    let p := s.self.cur.pfx
    let h := p.hmod.getD Hmod.zeros
    let word := (encode i).toNat
    let bad (r : BitVec 7) : Bool := r = 0x7F || (0x70 ≤ r.toNat && r.toNat ≤ 0x73 && s.self.run.isNone) ||
      (r = 0x7B && !p.himm)
    let dest : Bool := (0x40 ≤ d.toNat && d.toNat ≤ 0x5F) || 0x74 ≤ d.toNat ||
      (0x70 ≤ d.toNat && d.toNat ≤ 0x73 && s.self.run.isNone)
    let row (r : BitVec 7) : Nat := r.toNat + s.self.regs.ix
    let size := s.self.regs.v.length
    let trap (c : Cause) (v : Nat) : Prop := exec i s = .next (s.raise ⟨c, BitVec.ofNat 64 v, m, false, false⟩)
    if p.twice = true ∨ h ≠ Hmod.zeros ∨ s.ctx.feat.getLsbD 0 = false then trap .illegalInsn word
    else if s.self.unit.gaffer = true then trap .illegalIssuer word
    else if dest = true then trap .illegalOperand word
    else if bad a = true then trap .illegalOperand (word + 1 * 2 ^ 32)
    else if bad b = true then trap .illegalOperand (word + 2 * 2 ^ 32)
    else if d.toNat < 0x40 ∧ size ≤ row d then trap .regBounds (row d)
    else if a.toNat < 0x40 ∧ size ≤ row a then trap .regBounds (row a)
    else if b.toNat < 0x40 ∧ size ≤ row b then trap .regBounds (row b)
    else True

/-! ### Operands -/

/-- R161, R162, R164, R37: the value of a vector source in every lane, by the kind of its specifier; a scalar source takes 64
bits, and is 0 where the specifier names 0. -/
def Parts.SourceValues : Prop :=
  ∀ (s : State) (ps : Pops) (sp : BitVec 7) (n : Nat), n < 32 →
    let r := s.self.regs
    let k := sp.toNat
    (s.readV ps sp).at n =
      (if k < 0x40 then ((r.v[k + r.ix]?).map fun (x : Lanes) => x.at n).getD 0
      else if k < 0x60 then (r.s.toArray.getD (k - 0x40) 0).setWidth 32
      else if k < 0x70 then Lanes.at (r.o.toArray.getD (k - 0x60) (Lanes.const 0)) n
      else if k < 0x74 then ((s.self.run.map fun q => Lanes.at (q.lat.toArray.getD (k - 0x70) (Lanes.const 0)) n)).getD 0
      else if k < 0x78 then (((ps.find? fun p => p.1 == k - 0x74).map fun p => p.2.at n)).getD 0
      else if k = 0x79 then BitVec.ofNat 32 n
      else if k = 0x7A then BitVec.ofNat 32 s.self.unit.ix
      else if k = 0x7B then s.self.cur.pfx.acc.setWidth 32
      else if k = 0x7C then BitVec.ofNat 32 (n / 2 ^ r.tile.toNat)
      else if k = 0x7D then 0xFFFFFFFF
      else if k = 0x7E then BitVec.ofNat 32 s.crew.key.crew
      else 0) ∧
    s.readS sp =
      (if 0x40 ≤ k ∧ k < 0x60 then r.s.toArray.getD (k - 0x40) 0
      else if k = 0x7B then s.self.cur.pfx.acc
      else if k = 0x7D then 0xFFFFFFFFFFFFFFFF
      else if k = 0x7E then BitVec.ofNat 64 s.crew.key.crew
      else 0)

/-- R167: the immediate of an FI instruction: with HIMM words before it the accumulator shifted left by 8 with I8 below, else I8
sign-extended; three HIMM words before SMOVI give the 64 bits that R179 works out. -/
def Parts.ImmediateValues : Prop :=
  (∀ (s : State) (i : BitVec 8) (w : Nat),
    (s.self.cur.pfx.himm = true → (s.imm i w).toNat = (s.self.cur.pfx.acc.toNat * 256 + i.toNat) % 2 ^ w) ∧
    (s.self.cur.pfx.himm = false → s.imm i w = BitVec.ofInt w i.toInt)) ∧
  ∀ (s s1 s2 s3 : State), s.self.cur.pfx = Pfx.empty →
    exec (.himm 0xFF) s = .next s1 → exec (.himm 0xFFFFFF) s1 = .next s2 → exec (.himm 0xFFFFFF) s2 = .next s3 →
    s3.imm 0x38 64 = 0xFFFFFFFFFFFFFF38#64

/-- R161, R167: what a source operand reads. -/
def Obligations.Sources : Prop := Parts.SourceValues ∧ Parts.ImmediateValues

/-- R181, R32, R188: writing a destination. In the lanes of the mask a v or o register takes the value and keeps its old one
elsewhere; outside a run a latch discards it; in a run the value also enters l0 and the latches shift; no other register
changes. -/
def Obligations.DestinationValues : Prop :=
  ∀ (s : State) (d : BitVec 7) (w : Word) (m : Mask) (v : Lanes),
    d.toNat < 0x40 ∨ (0x60 ≤ d.toNat ∧ d.toNat < 0x74) →
    (d.toNat < 0x40 → d.toNat + s.self.regs.ix < s.self.regs.v.length) →
    ∃ t, s.writeDest d w m v = .done t ∧ t = { s with self := t.self } ∧
      t.self = { s.self with regs := t.self.regs, run := t.self.run } ∧
      s.self.regs.OnlyDest t.self.regs d m ∧ t.self.regs.fpc = s.self.regs.fpc ∧
      (∀ n < 32, m.has n = true →
        (d.toNat < 0x40 → (t.self.regs.row (d.toNat + s.self.regs.ix)).at n = v.at n) ∧
        (0x60 ≤ d.toNat → d.toNat < 0x70 → (t.self.regs.oAt (d.toNat - 0x60)).at n = v.at n)) ∧
      (s.self.run = none → t.self.run = none) ∧
      (∀ r, s.self.run = some r → ∃ l0 : Lanes, t.self.run = some { r with lat := #v[l0, r.lat[0], r.lat[1], r.lat[2]] } ∧
        ∀ n < 32, l0.at n = if m.has n then v.at n else (s.oldDest d).at n)

/-- R163, R182, R122, R136: without a queue among its sources an instruction pops nothing. An attached load queue with an entry
fetched ahead, none of whose bytes a store of the unit waits to replay into, gives that entry's elements and moves on by one; it
is popped once although both sources name it. The elements are those that the entry's places hold at the pop, or where one does
not translate then, those fetched ahead (the model's choice, log entry 62). -/
def Parts.QueuePops : Prop :=
  ∀ (s : State) (i : Instr) (m : Mask),
    (∀ srcs : List (BitVec 7), (∀ x ∈ srcs, isQ x = false) → s.pops i m srcs = .ok (s, [], fun _ => 0)) ∧
    ∀ (k : BitVec 2) (q : QueueReg) (es : List Elem) (rest : List Fetched),
      let sp : BitVec 7 := BitVec.ofNat 7 (0x74 + k.toNat)
      s.self.regs.qAt k.toNat = q → q.attached = true → q.store = false → q.next < q.count → s.self.whole = true →
      q.ahead = .data es :: rest → s.entryQueued q q.next = false →
      let now : State × List Elem := match s.fetchEntry q q.next with
        | (s1, .ok xs) => (s1, xs)
        | (_, .error _) => (s, es)
      ∃ l fl, s.pops i m [sp, sp] = .ok ({ now.1 with self := { now.1.self with regs := { now.1.self.regs with
          q := now.1.self.regs.q.set k.toNat { q with next := q.next + 1, ahead := rest } } } }, [(k.toNat, l)], fl) ∧
        ∀ n < 32, ∀ e, now.2[n]? = some e → l.at n = (e.decode s.rm).1 ∧ fl n = (e.decode s.rm).2

/-- R122: a queue register that is unattached, of the other direction, at its end, or of a group with more than one path raises
QUEUE_MISUSE, and the instruction pops and writes nothing. -/
def Parts.QueueMisuse : Prop :=
  ∀ (s : State) (g : BitVec 3) (d a : BitVec 7) (k : BitVec 2),
    let q := s.self.regs.qAt k.toNat
    let sp : BitVec 7 := BitVec.ofNat 7 (0x74 + k.toNat)
    let stop : Prop := q.attached = false ∨ q.count ≤ q.next ∨ s.self.whole = false
    (firstTrap (s.vecChecks (.mov g d sp) {} (s.part g) false d sp .none) = none → (stop ∨ q.store = true) →
      exec (.mov g d sp) s = .next (s.raise ⟨.queueMisuse, 0, s.part g, false, false⟩)) ∧
    (isQ a = false → firstTrap (s.vecChecks (.mov g sp a) {} (s.part g) false sp a .none) = none →
      (stop ∨ q.store = false) →
      exec (.mov g sp a) s = .next (s.raise ⟨.queueMisuse, 0, s.part g, false, false⟩))

/-- R122, R121: a push onto an attached store queue of .b32 elements whose 32 addresses find their places in memory stores the
words of the participating lanes at BASE + n * STRIDE + 4 * lane and moves the queue on by one; no other byte changes. -/
def Parts.QueuePush : Prop :=
  ∀ (s s1 : State) (k : BitVec 2) (w : Word) (m : Mask) (v : Lanes) (l : List LaneAcc),
    let q := s.self.regs.qAt k.toNat
    let sp : BitVec 7 := BitVec.ofNat 7 (0x74 + k.toNat)
    q.attached = true → q.store = true → q.wide = true → q.next < q.count → s.self.whole = true → s.self.run = none →
    s.self.version.open_ = false → s.self.replay = [] → s.entryLanes q .write q.next 4 m = (s1, l) →
    (∀ a ∈ l, a.isOk = true) →
    ∃ t, s.writeDest sp w m v = .done t ∧
      t.self.regs = { s1.self.regs with q := s1.self.regs.q.setIfInBounds k.toNat { q with next := q.next + 1 } } ∧
      ∀ ca, t.byteAt ca = (((l.flatMap fun a => match a.out with
        | .ok _ c _ => placed c (leBytes 4 (v.at a.lane).toNat)
        | _ => []).reverse.find? fun b => b.1 == ca).map (·.2)).getD (s1.byteAt ca)

/-- R163: queue registers as operands. -/
def Obligations.QueueOperands : Prop := Parts.QueuePops ∧ Parts.QueueMisuse ∧ Parts.QueuePush

/-- R181, R50, R165, R178: every vector instruction whose operands name no queue either traps or completes; a completed one
changes only its destination in its participating lanes and the flags of FPC, and nothing outside its unit. -/
def Parts.VectorFrames : Prop :=
  ∀ (i : Instr) (g : BitVec 3) (d a : BitVec 7) (b : BSrc) (s : State), vecForm i = some (g, d, a, b) →
    isQ d = false → isQ a = false → (∀ x ∈ b.specs, isQ x = false) →
    (∃ t, exec i s = .next (s.raise t)) ∨
    ∃ t, exec i s = .next t ∧ s.OnlySelf t ∧ s.self.regs.OnlyDest t.self.regs d (s.part g)

/-- R188, R50, R165, R178: the same of the instructions that write a predicate: only that predicate changes, in the
participating lanes, and p0 never. -/
def Parts.PredicateFrames : Prop :=
  ∀ (i : Instr) (g p : BitVec 3) (a : BitVec 7) (b : BSrc) (s : State), predForm i = some (g, p, a, b) →
    isQ a = false → (∀ x ∈ b.specs, isQ x = false) →
    (∃ t, exec i s = .next (s.raise t)) ∨
    ∃ t, exec i s = .next t ∧ s.OnlySelf t ∧
      t.self.regs = { s.self.regs with p := t.self.regs.p, fpc := t.self.regs.fpc } ∧
      (∀ k : BitVec 3, (k ≠ p ∨ k = 0) → t.self.regs.pred k = s.self.regs.pred k) ∧
      (∀ n < 32, (s.part g).has n = false → (t.self.regs.pred p).has n = (s.self.regs.pred p).has n) ∧
      ∃ fl : Flags, t.self.regs.fpc = s.self.regs.fpc ||| fl.setWidth 32

/-- R165, R181: with no participating lane a vector instruction that passes its decode checks writes nothing. -/
def Parts.NoLanes : Prop :=
  ∀ (i : Instr) (g : BitVec 3) (d a : BitVec 7) (b : BSrc) (s t : State), vecForm i = some (g, d, a, b) →
    isQ d = false → isQ a = false → (∀ x ∈ b.specs, isQ x = false) → s.part g = 0 → exec i s = .next t → s.self.run = none →
    (∃ x, t = s.raise x) ∨ t.self.regs = s.self.regs

/-- R50, R165, R181, R188: what an instruction that writes D or a predicate leaves unchanged. -/
def Obligations.Frames : Prop := Parts.VectorFrames ∧ Parts.PredicateFrames ∧ Parts.NoLanes

/-! ### Vector integer instructions -/

/-- R184, R189: the one-result integer instructions and their immediate forms, lane by lane, with every operand form. -/
def Parts.IntegerArithmetic : Prop :=
  ∀ (g : BitVec 3) (d a b : BitVec 7) (k : BitVec 8),
    IntResult (.iadd g d a b) {} g false d a (.spec b) (fun _ x y _ => x + y) ∧
    IntResult (.isub g d a b) {} g false d a (.spec b) (fun _ x y _ => x - y) ∧
    IntResult (.iadds g d a b) { uns := true } g false d a (.spec b) (fun s x y _ =>
      nearest32 s.uns (if s.uns then (x.toNat + y.toNat : Int) else x.toInt + y.toInt)) ∧
    IntResult (.isubs g d a b) { uns := true } g false d a (.spec b) (fun s x y _ =>
      nearest32 s.uns (if s.uns then (x.toNat - y.toNat : Int) else x.toInt - y.toInt)) ∧
    IntResult (.imul g d a b) {} g false d a (.spec b) (fun _ x y _ => x * y) ∧
    IntResult (.imulh g d a b) { uns := true } g false d a (.spec b) (fun s x y _ =>
      if s.uns then BitVec.ofNat 32 (x.toNat * y.toNat / 2 ^ 32) else BitVec.ofInt 32 (x.toInt * y.toInt / 2 ^ 32)) ∧
    IntResult (.imad g d a b) {} g true d a (.spec b) (fun _ x y z => x * y + z) ∧
    IntResult (.imin g d a b) { uns := true } g false d a (.spec b) (fun s x y _ =>
      if s.uns then (if x.toNat ≤ y.toNat then x else y) else if x.toInt ≤ y.toInt then x else y) ∧
    IntResult (.imax g d a b) { uns := true } g false d a (.spec b) (fun s x y _ =>
      if s.uns then (if y.toNat ≤ x.toNat then x else y) else if y.toInt ≤ x.toInt then x else y) ∧
    IntResult (.iaddi g d a k) {} g false d a (.imm k) (fun _ x y _ => x + y) ∧
    IntResult (.imuli g d a k) {} g false d a (.imm k) (fun _ x y _ => x * y)

/-- R184, R186, R189, R190, R206: logic, shifts, bit fields, bit counts, moves and selection, lane by lane, with every operand
form. -/
def Parts.IntegerBits : Prop :=
  ∀ (g : BitVec 3) (d a b : BitVec 7) (k : BitVec 8),
    IntResult (.and g d a b) {} g false d a (.spec b) (fun _ x y _ => x &&& y) ∧
    IntResult (.or g d a b) {} g false d a (.spec b) (fun _ x y _ => x ||| y) ∧
    IntResult (.xor g d a b) {} g false d a (.spec b) (fun _ x y _ => x ^^^ y) ∧
    IntResult (.andn g d a b) {} g false d a (.spec b) (fun _ x y _ => x &&& ~~~y) ∧
    IntResult (.shl g d a b) {} g false d a (.spec b) (fun _ x y _ => x <<< (y.toNat % 32)) ∧
    IntResult (.shr g d a b) {} g false d a (.spec b) (fun _ x y _ => x >>> (y.toNat % 32)) ∧
    IntResult (.sar g d a b) {} g false d a (.spec b) (fun _ x y _ => x.sshiftRight (y.toNat % 32)) ∧
    IntResult (.rotl g d a b) {} g false d a (.spec b) (fun _ x y _ => x.rotateLeft (y.toNat % 32)) ∧
    IntResult (.bfe g d a b) { uns := true } g false d a (.spec b) (fun s x y _ =>
      let pos := y.toNat % 32
      let wid := min (y.toNat / 2 ^ 8 % 64) (32 - pos)
      let f := x.toNat / 2 ^ pos % 2 ^ wid
      if wid = 0 then 0
      else if s.uns ∨ f < 2 ^ (wid - 1) then BitVec.ofNat 32 f else BitVec.ofInt 32 ((f : Int) - 2 ^ wid)) ∧
    IntResult (.bfi g d a b) {} g true d a (.spec b) (fun _ x y z =>
      let pos := y.toNat % 32
      let wid := min (y.toNat / 2 ^ 8 % 64) (32 - pos)
      let mask := (BitVec.ofNat 32 (2 ^ wid - 1)) <<< pos
      (z &&& ~~~mask) ||| ((x <<< pos) &&& mask)) ∧
    IntResult (.popc g d a) {} g false d a .none (fun _ x _ _ =>
      BitVec.ofNat 32 ((List.range 32).countP fun j => x.getLsbD j)) ∧
    IntResult (.clz g d a) {} g false d a .none (fun _ x _ _ =>
      BitVec.ofNat 32 ((List.range 32).takeWhile fun j => !x.getLsbD (31 - j)).length) ∧
    IntResult (.brev g d a) {} g false d a .none (fun _ x _ _ => x.reverse) ∧
    IntResult (.iabs g d a) { sat := true } g false d a .none (fun s x _ _ =>
      if x = 0x80000000 ∧ s.sat then 0x7FFFFFFF else BitVec.ofNat 32 x.toInt.natAbs) ∧
    IntResult (.mov g d a) {} g false d a .none (fun _ x _ _ => x) ∧
    IntResult (.movi g d k) {} g false d 0x78 (.imm k) (fun _ _ y _ => y) ∧
    IntResult (.andi g d a k) {} g false d a (.imm k) (fun _ x y _ => x &&& y) ∧
    IntResult (.ori g d a k) {} g false d a (.imm k) (fun _ x y _ => x ||| y) ∧
    IntResult (.xori g d a k) {} g false d a (.imm k) (fun _ x y _ => x ^^^ y) ∧
    IntResult (.shli g d a k) {} g false d a (.imm k) (fun _ x y _ => x <<< (y.toNat % 32)) ∧
    IntResult (.shri g d a k) {} g false d a (.imm k) (fun _ x y _ => x >>> (y.toNat % 32)) ∧
    IntResult (.sari g d a k) {} g false d a (.imm k) (fun _ x y _ => x.sshiftRight (y.toNat % 32)) ∧
    VecValues (.sel g d a b) {} (fun s => s.self.cur.lanes) false d a (.spec b)
      (fun s x y _ => (Lanes.tab fun n => if (s.self.regs.pred g).has n then x.at n else y.at n, 0))

/-- R184 to R190: the results of the integer instructions, lane by lane. -/
def Obligations.IntegerLanes : Prop := Parts.IntegerArithmetic ∧ Parts.IntegerBits

/-- R185: IDIV and IREM. A zero divisor in a participating lane raises INT_DIV0 with the mask of those lanes; else the quotient
is truncated and -2^31 by -1 gives -2^31, and the remainder is a - q * b. -/
def Parts.IntegerDivision : Prop :=
  ∀ (g : BitVec 3) (d a b : BitVec 7),
    let quot (s : State) (x y : Word) : Word :=
      if s.uns then BitVec.ofNat 32 (x.toNat / y.toNat)
      else if x = 0x80000000 ∧ y = 0xFFFFFFFF then 0x80000000
      else BitVec.ofInt 32 (x.toInt.tdiv y.toInt)
    let zeros (s : State) (ps : Pops) : Mask := Mask.ofTest fun n => (s.part g).has n && (s.readV ps b).at n == 0
    ∀ i, (i = .idiv g d a b ∨ i = .irem g d a b) →
    ∀ s s1 ps fl, firstTrap (s.vecChecks i { hmod := { uns := true } } (s.part g) false d a (.spec b)) = none →
      s.pops i (s.part g) [a, b] = .ok (s1, ps, fl) →
      (zeros s ps ≠ 0 → exec i s = .next ((s1.restoreQueues s).raise (Trap.at .intDiv0 (zeros s ps).toNat (s.part g)))) ∧
      (zeros s ps = 0 → ∀ s2, s1.writeDest d (encode i) (s.part g) (Lanes.tab fun n =>
          let x := (s.readV ps a).at n
          let y := (s.readV ps b).at n
          if i = .idiv g d a b then quot s x y else x - quot s x y * y) = .done s2 →
        exec i s = .next (s2.raiseFlags (orFlags (s.part g) fl)).advance)

/-- R187: the dot products. The exact sum of d and the products of the elements, wrapped, or clamped once to its range. -/
def Parts.DotProducts : Prop :=
  ∀ (g : BitVec 3) (d a b : BitVec 7),
    let elem (w : Nat) (uns : Bool) (x : Word) (i : Nat) : Int :=
      let f := x.toNat / 2 ^ (w * i) % 2 ^ w
      if uns ∨ f < 2 ^ (w - 1) then f else (f : Int) - 2 ^ w
    let total (w k : Nat) (s : State) (x y z : Word) : Int :=
      (if s.uns then (z.toNat : Int) else z.toInt) + ((List.range k).map fun i =>
        elem w (s.hmod.tv = 1 ∨ s.hmod.tv = 3) x i * elem w (s.hmod.tv = 1 ∨ s.hmod.tv = 2) y i).sum
    let use : HmodUse := { tv := [1, 2, 3], uns := true }
    IntResult (.dp4 g d a b) use g true d a (.spec b) (fun s x y z => BitVec.ofInt 32 (total 8 4 s x y z)) ∧
    IntResult (.dp4s g d a b) use g true d a (.spec b)
      (fun s x y z => nearest32 (s.hmod.tv == 1 && s.uns) (total 8 4 s x y z)) ∧
    IntResult (.dp2 g d a b) use g true d a (.spec b) (fun s x y z => BitVec.ofInt 32 (total 16 2 s x y z)) ∧
    IntResult (.dp2s g d a b) use g true d a (.spec b)
      (fun s x y z => nearest32 (s.hmod.tv == 1 && s.uns) (total 16 2 s x y z))

/-- R47, R184, R187: quotients, remainders and dot products. -/
def Obligations.IntegerQuotientsAndDots : Prop := Parts.IntegerDivision ∧ Parts.DotProducts

/-! ### Predicates and lanes -/

/-- R188, R189, R194, R195: the comparisons and FCLASS write their predicate in the participating lanes alone, and FCMP under a
signalling condition raises NV when an operand is NaN in one of them. -/
def Parts.Comparisons : Prop :=
  ∀ (g : BitVec 3) (c : BitVec 4) (p : BitVec 3) (a b : BitVec 7) (k : BitVec 8),
    let icond (x y : Int) : Bool :=
      if c = 0 then x = y else if c = 1 then x ≠ y else if c = 2 then x < y else if c = 3 then x ≤ y
      else if c = 4 then x > y else x ≥ y
    let int (s : State) (x : Word) : Int := if s.uns then x.toNat else x.toInt
    let order (x y : Word) : Int := cmpNum (fp32.unpack x.toNat) (fp32.unpack y.toNat)
    let nan (x : Word) : Bool := decide (0x7F800000 < x.toNat % 2 ^ 31)
    let fcond (x y : Word) : Bool :=
      let un := nan x || nan y
      if c = 0 then !un && order x y = 0 else if c = 1 then un || order x y ≠ 0
      else if c = 2 ∨ c = 8 then !un && order x y < 0 else if c = 3 ∨ c = 9 then !un && order x y ≤ 0
      else if c = 4 ∨ c = 10 then !un && 0 < order x y else if c = 5 ∨ c = 11 then !un && 0 ≤ order x y
      else if c = 6 then !un else un
    let class_ (x : Word) : Nat :=
      let neg := decide (2 ^ 31 ≤ x.toNat)
      let m := x.toNat % 2 ^ 31
      if m = 0 then (if neg then 3 else 4) else if m < 0x00800000 then (if neg then 2 else 5)
      else if m < 0x7F800000 then (if neg then 1 else 6) else if m = 0x7F800000 then (if neg then 0 else 7)
      else if m < 0x7FC00000 then 8 else 9
    (c.toNat ≤ 5 →
      PredResult (.icmp g c p a b) { uns := true } g p a (.spec b)
        (fun s x y => (Mask.ofTest fun n => icond (int s (x.at n)) (int s (y.at n)), 0)) ∧
      PredResult (.icmpi g c p a k) { uns := true } g p a (.imm k)
        (fun s x y => (Mask.ofTest fun n => icond (int s (x.at n)) (int s (y.at n)), 0))) ∧
    (c.toNat ≤ 11 →
      PredResult (.fcmp g c p a b) {} g p a (.spec b)
        (fun s x y => (Mask.ofTest fun n => fcond (x.at n) (y.at n), orFlags (s.part g) fun n =>
          if 2 ≤ c.toNat ∧ c.toNat ≤ 5 ∧ (nan (x.at n) ∨ nan (y.at n)) then flagNV else 0))) ∧
    PredResult (.fclass g p a b) {} g p a (.spec b)
      (fun _ x y => (Mask.ofTest fun n => (y.at n).getLsbD (class_ (x.at n)), 0))

/-- R37, R38, R201 to R203: SHFL, BALLOT and VOTE within the tiles of PRT, over the participating lanes. -/
def Parts.ShuffleAndVote : Prop :=
  ∀ (g : BitVec 3) (mode : BitVec 4) (p : BitVec 3) (d a b : BitVec 7),
    let width (s : State) : Nat := 2 ^ s.self.regs.tile.toNat
    let mates (s : State) (n : Nat) : List Nat :=
      (List.range 32).filter fun j => (s.part g).has j && j / width s == n / width s
    VecValues (.shfl g d a b) { hmod := { tv := [1, 2, 3] } } (fun s => s.part g) false d a (.spec b) (fun s x y _ =>
      (Lanes.tab fun n =>
        let w := width s
        let t := n - n % w
        let k := (y.at n).toNat
        x.at (if s.hmod.tv = 0 then t + k % w else if s.hmod.tv = 1 then (if k ≤ n - t then n - k else n)
          else if s.hmod.tv = 2 then (if k ≤ t + w - 1 - n then n + k else n) else n ^^^ (k % w)), 0)) ∧
    VecValues (.ballot g d a) {} (fun s => s.part g) false d a .none (fun s x _ _ =>
      (Lanes.tab fun n => Mask.ofTest fun j => (mates s n).contains j && x.at j != 0, 0)) ∧
    (mode.toNat ≤ 2 → PredResult (.vote g mode p a) {} g p a .none (fun s x _ =>
      (Mask.ofTest fun n =>
        let all := (mates s n).all fun j => x.at j != 0
        let any := (mates s n).any fun j => x.at j != 0
        if mode = 0 then all else if mode = 1 then any else !any || all, 0)))

/-- R188, R195, R200 to R203: comparisons, shuffles and votes. -/
def Obligations.LanePredicates : Prop := Parts.Comparisons ∧ Parts.ShuffleAndVote

/-! ### Floating point -/

/-- R191, R192: the rounding arithmetic, lane by lane, in the mode and saturation of the instruction, with the zero rule of FPC
and the flags of the participating lanes. What each operation gives for two words is stated by Rounding. -/
def Obligations.FloatArithmetic : Prop :=
  ∀ (g : BitVec 3) (d a b : BitVec 7),
    let use : HmodUse := { rnd := true, sat := true }
    FloatResult (.fadd g d a b) { hmod := use } g false d a (.spec b)
      (fun s x y _ => lane32 (fp32.add s.rm s.sat s.zc x.toNat y.toNat)) ∧
    FloatResult (.fsub g d a b) { hmod := use } g false d a (.spec b)
      (fun s x y _ => lane32 (fp32.sub s.rm s.sat s.zc x.toNat y.toNat)) ∧
    FloatResult (.fmul g d a b) { hmod := use } g false d a (.spec b)
      (fun s x y _ => lane32 (fp32.mul s.rm s.sat x.toNat y.toNat)) ∧
    FloatResult (.fdiv g d a b) { hmod := use } g false d a (.spec b)
      (fun s x y _ => lane32 (fp32.div s.rm s.sat x.toNat y.toNat)) ∧
    FloatResult (.ffma g d a b) { hmod := use } g true d a (.spec b)
      (fun s x y z => lane32 (fp32.fma s.rm s.sat s.zc false x.toNat y.toNat z.toNat)) ∧
    FloatResult (.ffms g d a b) { hmod := use } g true d a (.spec b)
      (fun s x y z => lane32 (fp32.fma s.rm s.sat s.zc true x.toNat y.toNat z.toNat)) ∧
    FloatResult (.fscale g d a b) { hmod := use } g false d a (.spec b)
      (fun s x y _ => lane32 (fp32.scale s.rm s.sat x.toNat y.toInt)) ∧
    FloatResult (.faddx g d a b) {} g false d a (.spec b) (fun _ x y _ => lane32 (fp32.addErr x.toNat y.toNat)) ∧
    FloatResult (.fmulx g d a b) {} g false d a (.spec b) (fun _ x y _ => lane32 (fp32.mulErr x.toNat y.toNat))

/-- R192, R193: FABS and FNEG change the sign bit alone and quiet a NaN; FMIN and FMAX order -0 below +0, return the first NaN
quieted, or with .num the operand that is no NaN; none of them raises a flag. -/
def Parts.FloatSelection : Prop :=
  ∀ (g : BitVec 3) (d a b : BitVec 7),
    let nan (x : Word) : Bool := decide (0x7F800000 < x.toNat % 2 ^ 31)
    let quiet (x : Word) : Word := x ||| 0x00400000
    let key (x : Word) : Int := if 2 ^ 31 ≤ x.toNat then -1 - (x.toNat - 2 ^ 31) else x.toNat
    let pick (s : State) (x y v : Word) : Word :=
      if nan x then (if s.hmod.tv = 1 ∧ !nan y then y else quiet x)
      else if nan y then (if s.hmod.tv = 1 then x else quiet y) else v
    FloatResult (.fabs g d a) {} g false d a .none
      (fun _ x _ _ => ((if nan x then quiet x else x) &&& 0x7FFFFFFF, 0)) ∧
    FloatResult (.fneg g d a) {} g false d a .none
      (fun _ x _ _ => ((if nan x then quiet x else x) ^^^ 0x80000000, 0)) ∧
    FloatResult (.fmin g d a b) { hmod := { tv := [1] } } g false d a (.spec b)
      (fun s x y _ => (pick s x y (if key y < key x then y else x), 0)) ∧
    FloatResult (.fmax g d a b) { hmod := { tv := [1] } } g false d a (.spec b)
      (fun s x y _ => (pick s x y (if key x < key y then y else x), 0))

/-- R196 to R200: special functions, conversions, rounding to integral values and the packed halves, lane by lane. A special
function marks the run in flight, if there is one, as holding a long-latency result (R33). -/
def Parts.FloatConversions : Prop :=
  ∀ (g : BitVec 3) (d a b : BitVec 7),
    let half : HmodUse := { rnd := true, sat := true, tv := [1] }
    let fmt (s : State) : FFmt := if s.hmod.tv = 1 then bf16 else fp16
    let each (f : Nat → Nat → Nat → Nat × Flags) (x y z : Word) : Word × Flags :=
      let lo := f (x.toNat % 65536) (y.toNat % 65536) (z.toNat % 65536)
      let hi := f (x.toNat / 65536) (y.toNat / 65536) (z.toNat / 65536)
      (BitVec.ofNat 32 (lo.1 % 65536 + hi.1 * 65536), lo.2 ||| hi.2)
    let sfu (s : State) (x : Word) : Word × Flags := lane32 (specialFn b.toNat s.rm s.sat x.toNat)
    (∀ s s1 s2 ps fl,
      firstTrap (s.vecChecks (.fsfu g d a b) { hmod := { rnd := true, sat := true } } (s.part g) false d a .none) = none →
      s.markLong.pops (.fsfu g d a b) (s.part g) [a] = .ok (s1, ps, fl) →
      s1.writeDest d (encode (.fsfu g d a b)) (s.part g) (Lanes.tab fun n => (sfu s ((s.readV ps a).at n)).1) = .done s2 →
      exec (.fsfu g d a b) s = .next
        (s2.raiseFlags ((orFlags (s.part g) fun n => (sfu s ((s.readV ps a).at n)).2) ||| orFlags (s.part g) fl)).advance) ∧
    FloatResult (.fcvt g d a b) { hmod := fcvtUse b, feat := if 0x40 ≤ b.toNat then 1 else 0 } g (fcvtReadsD b) d a .none
      (fun s x _ z => fcvtLane b s.hmod.tv s.rm s.sat x z) ∧
    FloatResult (.frnd g d a b) { hmod := { rnd := true } } g false d a .none
      (fun s x _ _ => lane32 (frnd s.rm (b == 1) x.toNat)) ∧
    FloatResult (.hadd2 g d a b) { hmod := half } g false d a (.spec b)
      (fun s x y z => each (fun p q _ => (fmt s).add s.rm s.sat s.zc p q) x y z) ∧
    FloatResult (.hmul2 g d a b) { hmod := half } g false d a (.spec b)
      (fun s x y z => each (fun p q _ => (fmt s).mul s.rm s.sat p q) x y z) ∧
    FloatResult (.hfma2 g d a b) { hmod := half } g true d a (.spec b)
      (fun s x y z => each (fun p q r => (fmt s).fma s.rm s.sat s.zc false p q r) x y z) ∧
    FloatResult (.hdot2 g d a b) { hmod := half } g true d a (.spec b)
      (fun s x y z => lane32 (hdot2 (fmt s) s.rm s.sat s.zc x.toNat y.toNat z.toNat))

/-- R48, R54, R65, R197: FCVT's codes below 0x40. FP32 to an integer rounds in the mode; a NaN gives 0, a value outside the
range the limit that it passes, each with NV alone. An integer is rounded once to FP32. FP32 is rounded once to a half that
replaces its half of D, the other kept; a NaN keeps its sign and its high payload bits. A half widens exactly, a NaN with its
payload in the high bits and its quiet bit set. -/
def Parts.ConvertedValues : Prop :=
  ∀ (rm : Rm) (sat : Bool) (tv : BitVec 3) (a d : Word),
    let cv (b : BitVec 7) : Word × Flags := fcvtLane b tv rm sat a d
    let neg : Bool := a.getLsbD 31
    let nan : Bool := decide (0x7F800000 < a.toNat % 2 ^ 31)
    let v : ℚ := (fp32.unpack a.toNat).value
    (∀ b lo hi, ((b : BitVec 7) = 0 ∧ lo = -(2 ^ 31 : Int) ∧ hi = 2 ^ 31 - 1) ∨ (b = 1 ∧ lo = 0 ∧ hi = 2 ^ 32 - 1) →
      let k : Int := (if neg then -1 else 1) * roundUnits rm neg |v|
      cv b = if nan then (0, flagNV)
        else if a.toNat % 2 ^ 31 = 0x7F800000 then (BitVec.ofInt 32 (if neg then lo else hi), flagNV)
        else if k < lo then (BitVec.ofInt 32 lo, flagNV)
        else if hi < k then (BitVec.ofInt 32 hi, flagNV)
        else (BitVec.ofInt 32 k, if (k : ℚ) = v then 0 else flagIX)) ∧
    (∀ b i, ((b : BitVec 7) = 2 ∧ i = a.toInt) ∨ (b = 3 ∧ i = (a.toNat : Int)) →
      (i = 0 → cv b = (0, 0)) ∧ (i ≠ 0 → fp32.RoundsTo rm false i ((cv b).1.toNat, (cv b).2))) ∧
    (∀ b f hi, ((b : BitVec 7) = 4 ∧ f = fp16 ∧ hi = false) ∨ (b = 5 ∧ f = fp16 ∧ hi = true) ∨
        (b = 6 ∧ f = bf16 ∧ hi = false) ∨ (b = 7 ∧ f = bf16 ∧ hi = true) →
      let h := if hi then (cv b).1.toNat / 65536 else (cv b).1.toNat % 65536
      let rest (w : Word) : Nat := if hi then w.toNat % 65536 else w.toNat / 65536
      let sign := if neg then 0x8000 else 0
      rest (cv b).1 = rest d ∧
      (nan = true → (h, (cv b).2) =
        (sign + (2 ^ f.e - 1) * 2 ^ f.t + 2 ^ (f.t - 1) + a.toNat / 2 ^ (23 - f.t) % 2 ^ (f.t - 1), 0)) ∧
      (a.toNat % 2 ^ 31 = 0x7F800000 → (h, (cv b).2) = (sign + (2 ^ f.e - 1) * 2 ^ f.t, 0)) ∧
      (a.toNat % 2 ^ 31 = 0 → (h, (cv b).2) = (sign, 0)) ∧
      (0 < a.toNat % 2 ^ 31 → a.toNat % 2 ^ 31 < 0x7F800000 → f.RoundsTo rm sat v (h, (cv b).2))) ∧
    (∀ b f h, ((b : BitVec 7) = 8 ∧ f = fp16 ∧ h = a.toNat % 65536) ∨ (b = 9 ∧ f = fp16 ∧ h = a.toNat / 65536) ∨
        (b = 10 ∧ f = bf16 ∧ h = a.toNat % 65536) ∨ (b = 11 ∧ f = bf16 ∧ h = a.toNat / 65536) →
      let sign := if 0x8000 ≤ h then 2 ^ 31 else 0
      let top := (2 ^ f.e - 1) * 2 ^ f.t
      (cv b).2 = 0 ∧ 2 ^ 31 * ((cv b).1.toNat / 2 ^ 31) = sign ∧
      (h % 0x8000 < top → ∃ n m e, fp32.unpack (cv b).1.toNat = .fin n m e ∧
        (fp32.unpack (cv b).1.toNat).value = (f.unpack h).value) ∧
      (h % 0x8000 = top → (cv b).1.toNat = sign + 0x7F800000) ∧
      (top < h % 0x8000 → (cv b).1.toNat = (sign + 0x7F800000 + h % 2 ^ f.t * 2 ^ (23 - f.t)) ||| 2 ^ 22))

/-- R55, R59, R198: FCVT's codes from 0x40 on. A decode gives the value of byte k under R55, exactly, and the canonical NaN of a
NaN; an encode replaces byte k of D and keeps the others. -/
def Parts.ConvertedBytes : Prop :=
  ∀ (rm : Rm) (sat : Bool) (tv : BitVec 3) (a d : Word) (b : BitVec 7),
    let r := fcvtLane b tv rm sat a d
    let uns : Bool := b.getLsbD 4
    let infs : Bool := b.getLsbD 3
    let p := b.toNat % 8
    let k := tv.toNat
    let byte (w : Word) (n : Nat) : Nat := w.toNat / 2 ^ (8 * n) % 256
    let c := byte a k
    let nanCode := if uns then 0xFF else 0x80
    let infCode (neg : Bool) : Nat := if uns then 0xFE else if neg then 0xFF else 0x7F
    let maxCode (neg : Bool) : Nat := if uns then (if infs then 0xFD else 0xFE) else
      (if infs then 0x7E else 0x7F) + (if neg then 0x80 else 0)
    let neg : Bool := a.getLsbD 31
    0x40 ≤ b.toNat → 1 ≤ p → k ≤ 3 →
    (b.getLsbD 5 = true →
      (c = nanCode → r = (0x7FC00000, 0)) ∧
      (∀ n : Bool, c ≠ nanCode → infs = true → c = infCode n → r = (if c = 0xFF then 0xFF800000 else 0x7F800000, 0)) ∧
      (c ≠ nanCode → (infs = true → ∀ n : Bool, c ≠ infCode n) →
        (∃ n m e, fp32.unpack r.1.toNat = .fin n m e) ∧ (fp32.unpack r.1.toNat).value = codeValue uns p c ∧ r.2 = 0 ∧
        (c = 0 → r.1 = 0))) ∧
    (b.getLsbD 5 = false →
      (∀ n < 4, n ≠ k → byte r.1 n = byte d n) ∧
      (0x7F800000 < a.toNat % 2 ^ 31 → (byte r.1 k, r.2) = (nanCode, 0)) ∧
      (a.toNat % 2 ^ 31 = 0x7F800000 → (byte r.1 k, r.2) =
        if uns && neg then (0, flagIX) else if infs then (infCode neg, 0) else (maxCode neg, flagIX)) ∧
      (a.toNat % 2 ^ 31 = 0 → (byte r.1 k, r.2) = (0, 0)) ∧
      (0 < a.toNat % 2 ^ 31 → a.toNat % 2 ^ 31 < 0x7F800000 →
        EncodesTo uns infs p rm sat (fp32.unpack a.toNat).value (byte r.1 k, r.2)))

/-- R69, R199, R200: FRND gives the integral value that the mode names, with the sign of the operand, and raises IX only where it
is asked to and the value differs; HDOT2 is the exact sum of d and both products rounded once, where the first NaN of a.lo, a.hi,
b.lo, b.hi and d wins, and an invalid product or sum gives the canonical NaN with NV. -/
def Parts.IntegralAndDot : Prop :=
  (∀ (rm : Rm) (x : Bool) (a : Nat), a < 2 ^ 32 →
    let neg : Bool := decide (2 ^ 31 ≤ a)
    let v : ℚ := (fp32.unpack a).value
    let k : ℚ := roundUnits rm neg |v|
    let r := frnd rm x a
    (0x7F800000 < a % 2 ^ 31 → r = (a ||| 2 ^ 22, 0)) ∧
    (a % 2 ^ 31 = 0x7F800000 → r = (a, 0)) ∧
    (a % 2 ^ 31 < 0x7F800000 → r.1 < 2 ^ 32 ∧ (2 ^ 31 ≤ r.1 ↔ neg = true) ∧ (∃ n m e, fp32.unpack r.1 = .fin n m e) ∧
      (fp32.unpack r.1).value = (if neg then -k else k) ∧ r.2 = if x ∧ k ≠ |v| then flagIX else 0)) ∧
  (∀ (f : FFmt) (rm : Rm) (sat zc : Bool) (a b d : Nat), f = fp16 ∨ f = bf16 → a < 2 ^ 32 → b < 2 ^ 32 → d < 2 ^ 32 →
    let r := hdot2 f rm sat zc a b d
    let al := a % 65536
    let ah := a / 65536
    let bl := b % 65536
    let bh := b / 65536
    let top := (2 ^ f.e - 1) * 2 ^ f.t
    let nan (h : Nat) : Bool := decide (top < h % 0x8000)
    let wide (h : Nat) : Nat := ((if 0x8000 ≤ h then 2 ^ 31 else 0) + 0x7F800000 + h % 2 ^ f.t * 2 ^ (23 - f.t)) ||| 2 ^ 22
    let infs : List (Bool × Bool) := [(decide (al % 0x8000 = top ∨ bl % 0x8000 = top), decide (0x8000 ≤ al) != decide (0x8000 ≤ bl)),
      (decide (ah % 0x8000 = top ∨ bh % 0x8000 = top), decide (0x8000 ≤ ah) != decide (0x8000 ≤ bh)),
      (decide (d % 2 ^ 31 = 0x7F800000), decide (2 ^ 31 ≤ d))]
    let zeroTimes (p q : Nat) : Bool := (decide (p % 0x8000 = top) && q % 0x8000 == 0) || (decide (q % 0x8000 = top) && p % 0x8000 == 0)
    (∀ h, [al, ah, bl, bh].find? nan = some h → r = (wide h, 0)) ∧
    ([al, ah, bl, bh].find? nan = none →
      (0x7F800000 < d % 2 ^ 31 → r = (d ||| 2 ^ 22, 0)) ∧
      (d % 2 ^ 31 ≤ 0x7F800000 →
        (zeroTimes al bl = true ∨ zeroTimes ah bh = true ∨ (∃ n, (true, n) ∈ infs ∧ (true, !n) ∈ infs) →
          r = (0x7FC00000, flagNV)) ∧
        (zeroTimes al bl = false → zeroTimes ah bh = false → ∀ n, (true, n) ∈ infs → (true, !n) ∉ infs →
          r = ((if n then 0xFF800000 else 0x7F800000), 0)) ∧
        ((∀ e ∈ infs, e.1 = false) →
          let p := (f.unpack al).value * (f.unpack bl).value
          let q := (f.unpack ah).value * (f.unpack bh).value
          let c := (fp32.unpack d).value
          let same : Bool := decide (infs.map (·.2) = [true, true, true])
          let plus : Bool := decide (infs.map (·.2) = [false, false, false])
          (c + p + q ≠ 0 → fp32.RoundsTo rm sat (c + p + q) r) ∧
          (c + p + q = 0 → r = (if (if c = 0 ∧ p = 0 ∧ q = 0 ∧ (same ∨ plus) then same else !zc && rm == .rdn)
            then 2 ^ 31 else 0, 0))))))

/-- R66, R67, R196: the special cases of FSFU's functions 0 RCP, 1 RSQ, 2 SQRT, 3 EXP2, 4 LOG2, 5 SINPI and 6 COSPI, and RCP as the
exact reciprocal rounded once. A NaN is quieted and raises nothing. -/
def Parts.SpecialCases : Prop :=
  ∀ (rm : Rm) (sat : Bool) (a : Nat), a < 2 ^ 32 →
    let fn (code : Nat) : Nat × Flags := specialFn code rm sat a
    let neg : Bool := decide (2 ^ 31 ≤ a)
    let v : ℚ := (fp32.unpack a).value
    let sign (n : Bool) : Nat := if n then 2 ^ 31 else 0
    let invalid : Nat × Flags := (0x7FC00000, flagNV)
    (0x7F800000 < a % 2 ^ 31 → ∀ code ≤ 6, fn code = (a ||| 2 ^ 22, 0)) ∧
    (a % 2 ^ 31 = 0 → fn 0 = (sign neg + 0x7F800000, flagDZ) ∧ fn 1 = (sign neg + 0x7F800000, flagDZ) ∧ fn 2 = (a, 0) ∧
      fn 3 = (0x3F800000, 0) ∧ fn 4 = (0xFF800000, flagDZ) ∧ fn 5 = (a, 0) ∧ fn 6 = (0x3F800000, 0)) ∧
    (a = 0x7F800000 → fn 0 = (0, 0) ∧ fn 1 = (0, 0) ∧ fn 2 = (a, 0) ∧ fn 3 = (a, 0) ∧ fn 4 = (a, 0) ∧ fn 5 = invalid ∧
      fn 6 = invalid) ∧
    (a = 0xFF800000 → fn 0 = (2 ^ 31, 0) ∧ fn 1 = invalid ∧ fn 2 = invalid ∧ fn 3 = (0, 0) ∧ fn 4 = invalid ∧ fn 5 = invalid ∧
      fn 6 = invalid) ∧
    (v < 0 → fn 1 = invalid ∧ fn 2 = invalid ∧ fn 4 = invalid) ∧
    (v ≠ 0 → fp32.RoundsTo rm sat (1 / v) (fn 0)) ∧
    (∀ k : Int, a % 2 ^ 31 < 0x7F800000 → v = k → fp32.RoundsTo rm sat ((2 : ℚ) ^ k) (fn 3) ∧ fn 5 = (sign neg, 0) ∧
      fn 6 = (if k % 2 = 0 then 0x3F800000 else 0xBF800000, 0)) ∧
    (∀ k : Int, v = (2 : ℚ) ^ k → (k = 0 → fn 4 = (0, 0)) ∧ (k ≠ 0 → fp32.RoundsTo rm sat k (fn 4))) ∧
    (∀ k : Int, v = k + 1 / 2 → fn 6 = (0, 0))

/-- R48, R54, R55, R59, R65 to R67, R69, R191 to R200: selections and conversions of floating values, and what each conversion
gives. That the fixed point in which FSFU works is fine enough for the correctly rounded value is the model's reading (log entry
7). -/
def Obligations.FloatValues : Prop :=
  Parts.FloatSelection ∧ Parts.FloatConversions ∧ Parts.ConvertedValues ∧ Parts.ConvertedBytes ∧ Parts.IntegralAndDot ∧
  Parts.SpecialCases

/-- R54: a significand cut at a bit. It is inexact exactly when something below the cut is not zero; toward zero it is the
floor; toward an infinity it is the floor or the ceiling by the sign; to nearest it is nowhere farther than any other
multiple, and of two equally near ones the even one. -/
def Parts.RoundingIsCorrect : Prop :=
  ∀ (rm : Rm) (neg : Bool) (man sh : Nat),
    let q := (cutAt rm neg man sh false).1
    let ceil := (man + (2 ^ sh - 1)) / 2 ^ sh
    ((cutAt rm neg man sh false).2 = true ↔ man % 2 ^ sh ≠ 0) ∧
    (rm = .rtz → q = man / 2 ^ sh) ∧
    (rm = .rup → q = if neg then man / 2 ^ sh else ceil) ∧
    (rm = .rdn → q = if neg then ceil else man / 2 ^ sh) ∧
    (rm = .rne → ∀ p : Nat, p ≠ q →
      ((q * 2 ^ sh : Int) - man).natAbs ≤ ((p * 2 ^ sh : Int) - man).natAbs ∧
      (((q * 2 ^ sh : Int) - man).natAbs = ((p * 2 ^ sh : Int) - man).natAbs → q % 2 = 0))

/-- R54, R50: rounding leaves a value that the format represents as it is, in every mode, with no flag. -/
def Parts.RoundingKeepsRepresentable : Prop :=
  ∀ (f : FFmt), (f = fp32 ∨ f = fp16 ∨ f = bf16) →
    ∀ (rm : Rm) (sat neg : Bool) (w man : Nat) (exp : Int), w < 2 ^ (f.e + f.t + 1) →
      f.unpack w = .fin neg man exp → man ≠ 0 → f.round rm sat neg man exp false = (w, 0)

/-- R48, R50, R191: the first NaN operand in the order A, B, D is returned with its quiet bit set and no flag; an invalid sum,
product or quotient gives the canonical NaN 0x7FC00000 with NV. -/
def Parts.FloatNaNs : Prop :=
  ∀ (rm : Rm) (sat zc neg : Bool) (x y z : Nat),
    let isNan (w : Nat) : Prop := 0x7F800000 < w % 2 ^ 31
    let q (w : Nat) : Nat × Flags := (w ||| 2 ^ 22, 0)
    (isNan x → fp32.add rm sat zc x y = q x ∧ fp32.mul rm sat x y = q x ∧ fp32.div rm sat x y = q x ∧
      fp32.fma rm sat zc neg x y z = q x) ∧
    (¬ isNan x → isNan y → fp32.add rm sat zc x y = q y ∧ fp32.mul rm sat x y = q y ∧ fp32.div rm sat x y = q y ∧
      fp32.fma rm sat zc neg x y z = q y) ∧
    (¬ isNan x → ¬ isNan y → isNan z → fp32.fma rm sat zc neg x y z = q z) ∧
    fp32.add rm sat zc 0x7F800000 0xFF800000 = (0x7FC00000, flagNV) ∧
    fp32.sub rm sat zc 0x7F800000 0x7F800000 = (0x7FC00000, flagNV) ∧
    fp32.mul rm sat 0 0x7F800000 = (0x7FC00000, flagNV) ∧
    fp32.div rm sat 0 0 = (0x7FC00000, flagNV) ∧ fp32.div rm sat 0x7F800000 0xFF800000 = (0x7FC00000, flagNV) ∧
    fp32.div rm sat 0x3F800000 0 = (0x7F800000, flagDZ)

/-- R54, R66, R74, R75, R192: of finite operands the sum, difference, product, quotient, fused sum and scaled value are the exact
value rounded once; an exact zero takes the sign of the product or quotient, or that of R74 and R75. An infinite operand of a
sum gives that infinity, also under saturation. -/
def Parts.RoundedOnce : Prop :=
  ∀ (rm : Rm) (sat zc : Bool) (x y z : Nat) (n1 n2 n3 : Bool) (m1 m2 m3 : Nat) (e1 e2 e3 : Int),
    fp32.unpack x = .fin n1 m1 e1 → fp32.unpack y = .fin n2 m2 e2 → fp32.unpack z = .fin n3 m3 e3 →
    let a := (fp32.unpack x).value
    let b := (fp32.unpack y).value
    let c := (fp32.unpack z).value
    let zero (neg : Bool) : Nat × Flags := (if neg then 2 ^ 31 else 0, 0)
    let cancel (p q : Bool) (terms : Bool) : Nat × Flags := zero (if terms && p == q then p else !zc && rm == .rdn)
    let once (v : ℚ) (none r : Nat × Flags) : Prop := (v = 0 → r = none) ∧ (v ≠ 0 → fp32.RoundsTo rm sat v r)
    once (a + b) (cancel n1 n2 (m1 == 0 && m2 == 0)) (fp32.add rm sat zc x y) ∧
    once (a - b) (cancel n1 (!n2) (m1 == 0 && m2 == 0)) (fp32.sub rm sat zc x y) ∧
    once (a * b) (zero (n1 != n2)) (fp32.mul rm sat x y) ∧
    (b ≠ 0 → once (a / b) (zero (n1 != n2)) (fp32.div rm sat x y)) ∧
    (∀ neg : Bool, once (if neg then c - a * b else a * b + c)
      (cancel ((n1 != n2) != neg) n3 (m1 * m2 == 0 && m3 == 0)) (fp32.fma rm sat zc neg x y z)) ∧
    (∀ k : Int, once (a * 2 ^ k) (zero n1) (fp32.scale rm sat x k)) ∧
    (∀ n : Bool, fp32.add rm sat zc x (fp32.inf n) = (fp32.inf n, 0) ∧ fp32.add rm sat zc (fp32.inf n) x = (fp32.inf n, 0))

/-- R68: FADDX and FMULX give what RoundNE leaves of an exact sum or product. The first is exact and raises no flag; the second is
exact, or rounded to nearest with UF and IX where it lies off the subnormal grid. A NaN propagates; an infinite operand or an
infinite rounded result gives the canonical NaN and no flag. -/
def Parts.ErrorTerms : Prop :=
  ∀ (x y : Nat),
    let a := (fp32.unpack x).value
    let b := (fp32.unpack y).value
    let sum := fp32.unpack (fp32.add .rne false false x y).1
    let prod := fp32.unpack (fp32.mul .rne false x y).1
    let isNan (w : Nat) : Prop := 0x7F800000 < w % 2 ^ 31
    let isFin (w : Sys2Proof.Machine.Num) : Prop := ∃ n m e, w = .fin n m e
    (isFin (fp32.unpack x) → isFin (fp32.unpack y) →
      (isFin sum → (fp32.addErr x y).2 = 0 ∧ (a + b = sum.value → (fp32.addErr x y).1 = 0) ∧
        isFin (fp32.unpack (fp32.addErr x y).1) ∧ (fp32.unpack (fp32.addErr x y).1).value = a + b - sum.value) ∧
      (isFin prod → (a * b = prod.value → fp32.mulErr x y = (0, 0)) ∧
        (a * b ≠ prod.value → ∃ fl, fp32.RoundsTo .rne false (a * b - prod.value) ((fp32.mulErr x y).1, fl) ∧
          (fp32.mulErr x y).2 = if (fp32.unpack (fp32.mulErr x y).1).value = a * b - prod.value then 0
            else flagUF ||| flagIX))) ∧
    (isNan x → fp32.addErr x y = (x ||| 2 ^ 22, 0) ∧ fp32.mulErr x y = (x ||| 2 ^ 22, 0)) ∧
    (¬ isNan x → isNan y → fp32.addErr x y = (y ||| 2 ^ 22, 0) ∧ fp32.mulErr x y = (y ||| 2 ^ 22, 0)) ∧
    (¬ isNan x → ¬ isNan y → ¬ (isFin (fp32.unpack x) ∧ isFin (fp32.unpack y) ∧ isFin sum) →
      fp32.addErr x y = (0x7FC00000, 0)) ∧
    (¬ isNan x → ¬ isNan y → ¬ (isFin (fp32.unpack x) ∧ isFin (fp32.unpack y) ∧ isFin prod) →
      fp32.mulErr x y = (0x7FC00000, 0))

/-- R48 to R54, R68, R73, R192: rounding, what is rounded, and NaNs. -/
def Obligations.Rounding : Prop :=
  Parts.RoundingIsCorrect ∧ Parts.RoundingKeepsRepresentable ∧ Parts.RoundedOnce ∧ Parts.ErrorTerms ∧ Parts.FloatNaNs

/-- R70, R71, R204, R205: REDL combines the values of the participants of each tile, and SCANL those of the participants of the
tile at or below each lane, in lane order: whatever the tree, since each operation associates. -/
def Parts.IntegerReductions : Prop :=
  ∀ (g : BitVec 3) (d a b : BitVec 7), b.toNat ≤ 7 →
    let width (s : State) : Nat := 2 ^ s.self.regs.tile.toNat
    let mates (s : State) (n : Nat) : List Nat :=
      (List.range 32).filter fun j => (s.part g).has j && j / width s == n / width s
    let op (x y : Word) : Word :=
      if b = 0 then x + y else if b = 1 then (if x.toInt ≤ y.toInt then x else y)
      else if b = 2 then (if y.toInt ≤ x.toInt then x else y) else if b = 3 then (if x.toNat ≤ y.toNat then x else y)
      else if b = 4 then (if y.toNat ≤ x.toNat then x else y) else if b = 5 then x &&& y else if b = 6 then x ||| y
      else x ^^^ y
    let combine (l : List Word) : Word := match l with
      | [] => 0
      | x :: xs => xs.foldl op x
    let tileOk (s : State) : Prop := 1 ≤ s.self.regs.tile.toNat ∧ s.self.regs.tile.toNat ≤ 5
    (∀ s t, firstTrap (s.vecChecks (.redl g d a b) {} (s.part g) false d a .none) = some t →
      exec (.redl g d a b) s = .next (s.raise t)) ∧
    ∀ (s s1 s2 : State) (ps : Pops) (fl : Nat → Flags), tileOk s → ∀ i,
      firstTrap (s.vecChecks i {} (s.part g) false d a .none) = none → s.pops i (s.part g) [a] = .ok (s1, ps, fl) →
      (i = .redl g d a b →
        s1.writeDest d (encode i) (s.part g) (Lanes.tab fun n => combine ((mates s n).map (s.readV ps a).at)) = .done s2 →
        exec i s = .next (s2.raiseFlags (orFlags (s.part g) fl)).advance) ∧
      (i = .scanl g d a b →
        s1.writeDest d (encode i) (s.part g)
          (Lanes.tab fun n => combine (((mates s n).filter (· ≤ n)).map (s.readV ps a).at)) = .done s2 →
        exec i s = .next (s2.raiseFlags (orFlags (s.part g) fl)).advance)

/-- R70, R71, R73, R204, R205: FREDL and FSCANL write each lane's partial of the tree or of the scan steps, and OR the flags of
the participants' partials. -/
def Parts.FloatReductions : Prop :=
  ∀ (g : BitVec 3) (d a b : BitVec 7), b.toNat ≤ 2 →
    let comb (s : State) := combFloat b.toNat s.rm s.zc
    let tree (s : State) (x : Lanes) (n : Nat) : FPart :=
      let k := s.self.regs.tile.toNat
      (treeOf (comb s) (floatLeaf (s.part g) x) k (n - n % 2 ^ k)).getD ⟨0, none, 0⟩
    let scan (s : State) (x : Lanes) (n : Nat) : FPart :=
      let k := s.self.regs.tile.toNat
      (scanOf (comb s) (floatLeaf (s.part g) x) (n - n % 2 ^ k) k n).getD ⟨0, none, 0⟩
    VecResult (.fredl g d a b) { hmod := { rnd := b == 0 } } (fun s => s.part g) false d a .none (fun s x _ _ =>
      (Lanes.tab fun n => (tree s x n).result x, orFlags (s.part g) fun n => (tree s x n).flags)) ∧
    VecResult (.fscanl g d a b) { hmod := { rnd := b == 0 } } (fun s => s.part g) false d a .none (fun s x _ _ =>
      (Lanes.tab fun n => (scan s x n).result x, orFlags (s.part g) fun n => (scan s x n).flags))

/-- R70, R73: the tree of a floating reduction over the participants in lanes n to n + 2^k - 1: it is empty when there is none;
it gives the quieted NaN of the lowest lane that holds one, whatever the order of combining; and without a NaN two halves
that are not empty combine with the operation, the lower on the left. -/
def Parts.ReductionTree : Prop :=
  ∀ (op : Nat) (rm : Rm) (zc : Bool) (m : Mask) (x : Lanes) (k n : Nat),
    let t := treeOf (combFloat op rm zc) (floatLeaf m x)
    let here := (List.range (2 ^ k)).map (n + ·) |>.filter m.has
    let nan (j : Nat) : Bool := decide (0x7F800000 < (x.at j).toNat % 2 ^ 31)
    (t k n = none ↔ here = []) ∧
    (∀ p, t k n = some p → p.nan = here.find? nan ∧
      (∀ j, here.find? nan = some j → p.result x = (x.at j) ||| 0x00400000)) ∧
    (∀ p q, t k n = some p → t k (n + 2 ^ k) = some q → p.nan = none → q.nan = none → ∃ r, t (k + 1) n = some r ∧
      r.val = (if op = 0 then (fp32.add rm false zc p.val q.val).1 else fp32.minMax (op == 2) false p.val q.val))

/-- R71, R72, R204 to R206: reductions and scans over the lanes. -/
def Obligations.LaneReductions : Prop := Parts.IntegerReductions ∧ Parts.FloatReductions ∧ Parts.ReductionTree

/-- R37, R207, R208, R209, R210, R211: the instructions on a group's predicates, FPC, PRT, IX and s registers, where their
decode checks pass and no source is a queue. -/
def Parts.GroupState : Prop :=
  ∀ (g : BitVec 3) (d a b : BitVec 7) (s : State),
    let m := s.part g
    let all := s.self.cur.lanes
    let regs (f : Regs → Regs) : State := ({ s with self := { s.self with regs := f s.self.regs } } : State).advance
    (isQ b = false → s.uniform g = true →
      firstTrap [s.issueCheck {} false (encode (.part g b)) all,
        operandIf (s.badSource b) (encode (.part g b)) 2 all, s.bounds b 1 all] = none →
      let v := ((s.readV [] b).at m.lowest).toNat
      exec (.part g b) s = .next
        (if 1 ≤ v ∧ v ≤ 5 then regs fun r => { r with tile := BitVec.ofNat 3 v }
        else s.raise ⟨.illegalOperand, BitVec.ofNat 64 ((encode (.part g b)).toNat + 2 * 2 ^ 32), all, false, false⟩)) ∧
    (∀ k : BitVec 8, s.uniform g = true →
      s.issueCheck {} false (encode (.ixset g k)) all = none →
      let v := (s.imm k 32).toNat
      exec (.ixset g k) s = .next
        (if v ≤ 255 then regs fun r => { r with ix := v }
        else s.raise ⟨.illegalOperand, BitVec.ofNat 64 ((encode (.ixset g k)).toNat + 5 * 2 ^ 32), all, false, false⟩)) ∧
    (∀ (f : BitVec 4) (pd pa pb : BitVec 3), f.toNat ≤ 5 →
      s.issueCheck {} false (encode (.plop g f pd pa pb)) m = none →
      let x := s.self.regs.pred pa
      let y := s.self.regs.pred pb
      let r := if f = 0 then x &&& y else if f = 1 then x ||| y else if f = 2 then x ^^^ y else if f = 3 then x &&& ~~~y
        else if f = 4 then ~~~x else x
      exec (.plop g f pd pa pb) s = .next (s.putP pd m r).advance) ∧
    (isQ a = false → m ≠ 0 →
      firstTrap [s.issueCheck { hmod := { uns := true } } false (encode (.v2s g d a)) m,
        operandIf (!isS d) (encode (.v2s g d a)) 0 m, operandIf (s.badSource a) (encode (.v2s g d a)) 1 m,
        s.bounds a 1 m] = none →
      let v := (s.readV [] a).at m.lowest
      exec (.v2s g d a) s = .next (regs fun r => { r with
        s := r.s.setIfInBounds (d.toNat - 0x40) (if s.uns then BitVec.ofNat 64 v.toNat else BitVec.ofInt 64 v.toInt) }))

/-- R209: the four forms of PMOV: predicates to lanes, lanes to predicates, FPC to lanes, and the writable fields of FPC from the
lowest participating lane; the FPC forms issue again while the replay queue holds an entry. -/
def Parts.PredicateMoves : Prop :=
  ∀ (g : BitVec 3) (d a : BitVec 7) (s : State),
    let i : Instr := .pmov g d a 0x78
    let m := s.part g
    let tv := s.hmod.tv.toNat
    let gets : Bool := tv = 0 || tv = 2
    tv ≤ 3 → (gets = true → a = 0x78 ∧ isQ d = false) → (gets = false → d = 0x78 ∧ isQ a = false) →
    s.issueCheck { hmod := { tv := [1, 2, 3] } } false (encode i) m = none →
    (gets = true → s.badDest false d = false ∧ s.bounds d 1 m = none) →
    (gets = false → s.badSource a = false ∧ s.bounds a 1 m = none) →
    let x := s.readV [] a
    let preds (n : Nat) : Word := BitVec.ofNat 32 (1 + ((List.range 7).map fun k =>
      if (s.self.regs.pred (BitVec.ofNat 3 (k + 1))).has n then 2 ^ (k + 1) else 0).sum)
    (tv = 0 → exec i s = .next (s.putV d m (Lanes.tab preds)).advance) ∧
    (tv = 1 → ∃ t : State, exec i s = .next t.advance ∧ t = { s with self := { s.self with regs := t.self.regs } } ∧
      t.self.regs = { s.self.regs with p := t.self.regs.p } ∧
      ∀ (k : BitVec 3) (n : Nat), k ≠ 0 → n < 32 → (t.self.regs.pred k).has n =
        if m.has n then (x.at n).getLsbD k.toNat else (s.self.regs.pred k).has n) ∧
    (2 ≤ tv → s.self.replay ≠ [] → exec i s = .next (s.mapSelf fun u => u.hold .poll)) ∧
    (tv = 2 → s.self.replay = [] → exec i s = .next (s.putV d m (Lanes.const s.self.regs.fpc)).advance) ∧
    (tv = 3 → s.self.replay = [] → m ≠ 0 → ∃ f : Word,
      exec i s = .next (s.mapRegs fun r => { r with fpc := f }).advance ∧
      f.extractLsb' 0 5 = (x.at m.lowest).extractLsb' 0 5 ∧ f.extractLsb' 7 3 = (x.at m.lowest).extractLsb' 7 3 ∧
      f.extractLsb' 5 2 = s.self.regs.fpc.extractLsb' 5 2 ∧ f.extractLsb' 10 22 = s.self.regs.fpc.extractLsb' 10 22) ∧
    (tv = 3 → s.self.replay = [] → m = 0 → exec i s = .next s.advance)

/-- R199, R207 to R211: the registers of a group and its predicates. -/
def Obligations.GroupRegisters : Prop := Parts.GroupState ∧ Parts.PredicateMoves

/-! ### The scalar pipe -/

/-- R223: the scalar arithmetic, 64 bits wide, wrapped; SMULH is bits [127:64] of the exact product, the shifts take b[5:0]. -/
def Parts.ScalarArithmetic : Prop :=
  ∀ (g : BitVec 3) (d a b : BitVec 7) (k : BitVec 8),
    let int (s : State) (x : DWord) : Int := if s.uns then x.toNat else x.toInt
    ScalarResult (.sadd g d a b) {} g d a (.spec b) (fun _ x y => BitVec.ofNat 64 (x.toNat + y.toNat)) ∧
    ScalarResult (.ssub g d a b) {} g d a (.spec b) (fun _ x y => BitVec.ofInt 64 (x.toInt - y.toInt)) ∧
    ScalarResult (.smul g d a b) {} g d a (.spec b) (fun _ x y => BitVec.ofNat 64 (x.toNat * y.toNat)) ∧
    ScalarResult (.smulh g d a b) { uns := true } g d a (.spec b)
      (fun s x y => BitVec.ofInt 64 (int s x * int s y / 2 ^ 64)) ∧
    ScalarResult (.sand g d a b) {} g d a (.spec b) (fun _ x y => x &&& y) ∧
    ScalarResult (.sor g d a b) {} g d a (.spec b) (fun _ x y => x ||| y) ∧
    ScalarResult (.sxor g d a b) {} g d a (.spec b) (fun _ x y => x ^^^ y) ∧
    ScalarResult (.sshl g d a b) {} g d a (.spec b) (fun _ x y => BitVec.ofNat 64 (x.toNat * 2 ^ (y.toNat % 64))) ∧
    ScalarResult (.sshr g d a b) {} g d a (.spec b) (fun _ x y => BitVec.ofNat 64 (x.toNat / 2 ^ (y.toNat % 64))) ∧
    ScalarResult (.ssar g d a b) {} g d a (.spec b) (fun _ x y => BitVec.ofInt 64 (x.toInt / 2 ^ (y.toNat % 64))) ∧
    ScalarResult (.smov g d a) {} g d a .none (fun _ x _ => x) ∧
    ScalarResult (.saddi g d a k) {} g d a (.imm k) (fun _ x y => BitVec.ofNat 64 (x.toNat + y.toNat)) ∧
    ScalarResult (.smovi g d k) {} g d 0x78 (.imm k) (fun _ _ y => y) ∧
    ScalarResult (.smin g d a b) { uns := true } g d a (.spec b) (fun s x y => if int s x ≤ int s y then x else y) ∧
    ScalarResult (.smax g d a b) { uns := true } g d a (.spec b) (fun s x y => if int s x ≤ int s y then y else x)

/-- R224, R165, R178: SCMP writes the comparison to its predicate in every lane of the split that issues it, in a Gaffer thread
to the scalar predicate; p0 discards it. A failed check traps, and a false guard writes nothing. -/
def Parts.ScalarCompare : Prop :=
  ∀ (g : BitVec 3) (c : BitVec 4) (p : BitVec 3) (a b : BitVec 7) (s : State), c.toNat ≤ 5 →
    let i : Instr := .scmp g c p a b
    let all := s.self.cur.lanes
    let checks := [s.issueCheck { hmod := { uns := true }, issuer := .both } false (encode i) all,
      operandIf (s.badScalar a) (encode i) 1 all, operandIf (s.badScalar b) (encode i) 2 all]
    let int (x : DWord) : Int := if s.uns then x.toNat else x.toInt
    let x := int (s.readS a)
    let y := int (s.readS b)
    let r : Bool := if c = 0 then x = y else if c = 1 then x ≠ y else if c = 2 then x < y else if c = 3 then x ≤ y
      else if c = 4 then x > y else x ≥ y
    (∀ t, firstTrap checks = some t → exec i s = .next (s.raise t)) ∧
    (firstTrap checks = none → s.uniform g = false → exec i s = .next s.advance) ∧
    (firstTrap checks = none → s.uniform g = true → ∃ t : State, exec i s = .next t.advance ∧
      t = { s with self := { s.self with regs := { s.self.regs with p := t.self.regs.p } } } ∧
      ∀ (k : BitVec 3) (n : Nat), n < 32 → (t.self.regs.pred k).has n =
        if k = p ∧ k ≠ 0 ∧ s.self.cur.mask.has n = true then r else (s.self.regs.pred k).has n)

/-- R223, R224: scalar arithmetic and comparison. -/
def Obligations.Scalars : Prop := Parts.ScalarArithmetic ∧ Parts.ScalarCompare

/-- R225: the checks of a scalar access in their order, and its effect where it finds its place: SLD widens the bytes there,
little-endian, into its s register; SST stores the low bytes of d there and changes no other byte of memory. The TVAL of
XLATE at an address beyond 56 bits is the model's choice (log entry 12), and that of MISALIGNED its reading (log entry 39). -/
def Obligations.ScalarMemory : Prop :=
  ∀ (g : BitVec 3) (d a b : BitVec 7) (s : State) (ld : Bool),
    let i : Instr := if ld then .sld g d a b else .sst g d a b
    let all := s.self.cur.lanes
    let va := (s.readS a + s.readS b).toNat
    let n := 2 ^ (3 - s.hmod.tv.toNat)
    let kind : AccKind := if ld then .read else .write
    s.issueCheck { hmod := { tv := [1, 2, 3], uns := ld }, issuer := .both } false (encode i) all = none →
    (if ld then isS d = true else s.badScalar d = false) → s.badScalar a = false → s.badScalar b = false →
    s.uniform g = true → s.self.queuedPage [va] = false →
    (2 ^ 56 ≤ va → exec i s = .next (s.raise ⟨.xlate, BitVec.ofNat 64 va, all, false, false⟩)) ∧
    (va < 2 ^ 56 → va % n ≠ 0 → exec i s = .next (s.raise ⟨.misaligned, 0, all, false, false⟩)) ∧
    ∀ (s2 : State) (pa ca : Nat) (x : Attr), va < 2 ^ 56 → va % n = 0 →
      s.laneAt ⟨kind, ld, false, false, n, 1, 0⟩ va = (s2, .ok pa ca x) →
      (ld = true →
        let v := leNat ((List.range n).map fun k => s2.loadByte (ca + k))
        let r : DWord := if s.uns ∨ v < 2 ^ (8 * n - 1) then BitVec.ofNat 64 v else BitVec.ofInt 64 (v - 2 ^ (8 * n) : Int)
        exec i s = .next (s2.markLong.putS (d.toNat - 0x40) r).advance) ∧
      (ld = false → s.self.run = none → s.self.version.active = false → ∃ t : State, exec i s = .next t.advance ∧
        t = { s2 with dirty := t.dirty, pois := t.pois, unpushed := t.unpushed } ∧
        ∀ q, t.byteAt q = if ca ≤ q ∧ q < ca + n then BitVec.ofNat 8 ((s.readS d).toNat / 2 ^ (8 * (q - ca)))
          else s2.byteAt q)

/-! ### The end of an instruction, hint words, no-ops -/

/-- R34, R166, R218, R359: past an instruction the PC stands at the next word, the prefix is consumed, every lane executes again,
one more instruction is retired (to the end of the counter), and nothing else changes. In a run, which may yet roll back, none
is retired: the run stands one word further, and has counted one instruction more. Writing an s register changes that register
alone; a register beyond s31 is none. -/
def Parts.EndOfInstruction : Prop :=
  ∀ s : State,
    let a := s.self
    let b := s.advance.self
    s.advance = { s with self := b } ∧ b = { a with cur := b.cur, retired := b.retired, run := b.run } ∧
    b.cur = { a.cur with pc := a.cur.pc + 4, pfx := Pfx.empty, only := none, failed := b.cur.failed } ∧
    b.retired = (if a.run = none ∧ a.retired < 2 ^ 32 - 1 then a.retired + 1 else a.retired) ∧
    b.run = (a.run.map fun r => { r with pos := r.pos + 1, count := r.count + 1 }) ∧
    ∀ (k : Nat) (v : DWord), s.putS k v = { s with self := (s.putS k v).self } ∧
      (s.putS k v).self = { s.self with regs := { s.self.regs with s := (s.putS k v).self.regs.s } } ∧
      ∀ j < 32, (s.putS k v).self.regs.sAt j = if j = k then v else s.self.regs.sAt j

/-- R178, R182, R188: the checks of the integer instructions, of the dot products, which read D (that a queue register or,
outside a run, a latch is refused as their D is the model's choice, log entry 69), and of the instructions that write a
predicate: the first that fails traps. The order of the operands within a check is the model's choice (log entry 66). -/
def Parts.LaneChecks : Prop :=
  ∀ (g : BitVec 3) (c m : BitVec 4) (p : BitVec 3) (d a b : BitVec 7) (k : BitVec 8),
    let part (s : State) : Mask := s.part g
    let uns : Needs := { hmod := { uns := true } }
    (∀ i ∈ [Instr.iadd g d a b, .isub g d a b, .imul g d a b, .and g d a b, .or g d a b, .xor g d a b, .andn g d a b, .shl g d a b,
      .shr g d a b, .sar g d a b, .rotl g d a b], VecTraps i {} part false d a (.spec b)) ∧
    (∀ i ∈ [Instr.iadds g d a b, .isubs g d a b, .imulh g d a b, .imin g d a b, .imax g d a b, .bfe g d a b, .idiv g d a b,
      .irem g d a b], VecTraps i uns part false d a (.spec b)) ∧
    (∀ i ∈ [Instr.imad g d a b, .bfi g d a b], VecTraps i {} part true d a (.spec b)) ∧
    (∀ i ∈ [Instr.dp4 g d a b, .dp4s g d a b, .dp2 g d a b, .dp2s g d a b],
      VecTraps i { hmod := { tv := [1, 2, 3], uns := true } } part true d a (.spec b)) ∧
    (∀ i ∈ [Instr.popc g d a, .clz g d a, .brev g d a, .mov g d a, .ballot g d a], VecTraps i {} part false d a .none) ∧
    VecTraps (.iabs g d a) { hmod := { sat := true } } part false d a .none ∧
    (∀ i ∈ [Instr.iaddi g d a k, .imuli g d a k, .andi g d a k, .ori g d a k, .xori g d a k, .shli g d a k, .shri g d a k,
      .sari g d a k], VecTraps i {} part false d a (.imm k)) ∧
    VecTraps (.movi g d k) {} part false d 0x78 (.imm k) ∧
    VecTraps (.sel g d a b) {} (fun s => s.self.cur.lanes) false d a (.spec b) ∧
    VecTraps (.shfl g d a b) { hmod := { tv := [1, 2, 3] } } part false d a (.spec b) ∧
    (c.toNat ≤ 5 → PredTraps (.icmp g c p a b) { uns := true } g a (.spec b) ∧
      PredTraps (.icmpi g c p a k) { uns := true } g a (.imm k)) ∧
    (c.toNat ≤ 11 → PredTraps (.fcmp g c p a b) {} g a (.spec b)) ∧
    PredTraps (.fclass g p a b) {} g a (.spec b) ∧
    (m.toNat ≤ 2 → PredTraps (.vote g m p a) {} g a .none)

/-- R173, R178: the checks at decode come first and in order; what the end of an instruction leaves. -/
def Obligations.InstructionChecks : Prop := Parts.CheckOrder ∧ Parts.LaneChecks ∧ Parts.EndOfInstruction

/-- R166 to R170, R9, R418: a hint word becomes part of the prefix of the next instruction; the eighth traps at itself, and so
does every one in a context that has not acknowledged BASE; a second HMOD, HSCHED or HCACHE is remembered as an error of the
instruction; HSCHED sets the urgency weight of a group. -/
def Parts.HintWords : Prop :=
  ∀ (s : State) (i : Instr) (f : Pfx → Pfx),
    ((∃ p, i = .himm p ∧ f = fun x => { x with acc := x.acc <<< 24 ||| p.setWidth 64, himm := true }) ∨
      (∃ c o r a u v z, i = .hmod c o r a u v z ∧
        f = fun x => { x with hmod := some ⟨c, o, r, a, u, v, z⟩, twice := x.twice || x.hmod.isSome }) ∨
      (∃ u, i = .hsched u ∧ f = fun x => { x with hsched := true, twice := x.twice || x.hsched }) ∨
      (∃ l, i = .hcache l ∧ f = fun x => { x with hcache := true, twice := x.twice || x.hcache })) →
    let p := s.self.cur.pfx
    (7 ≤ p.count ∨ s.ctx.feat.getLsbD 0 = false →
      exec i s = .next (s.raise ⟨.illegalInsn, (encode i).setWidth 64, s.self.cur.lanes, false, false⟩)) ∧
    (p.count < 7 → s.ctx.feat.getLsbD 0 = true → ∃ t : State, exec i s = .next t ∧ t = { s with self := t.self } ∧
      t.self = { s.self with cur := t.self.cur, run := t.self.run, urg := t.self.urg } ∧
      t.self.cur = { s.self.cur with pc := s.self.cur.pc + 4, pfx := t.self.cur.pfx } ∧
      t.self.cur.pfx = { f p with count := p.count + 1, last := encode i } ∧
      t.self.run = (s.self.run.map fun r => { r with pos := r.pos + 1 }) ∧
      t.self.urg = (match i with
        | .hsched u => if s.self.unit.gaffer then s.self.urg else u
        | _ => s.self.urg))

/-- R172, R174, R216, R219, R220, R418: NOP and HFUNC only move on, HFUNC where BASE is acknowledged; YIELD moves on and waits
while any of its tokens is pending; FEATQ writes the word that its selector names; a reserved word is ILLEGAL_INSN. -/
def Parts.SmallInstructions : Prop :=
  ∀ (s : State) (g : BitVec 3) (d : BitVec 7) (k : BitVec 8),
    let all := s.self.cur.lanes
    let v := (s.imm k 32).toNat
    (s.issueCheck { issuer := .both } false (encode (.nop g)) all = none → exec (.nop g) s = .next s.advance) ∧
    (∀ b, s.self.cur.pfx.count = 0 →
      (s.ctx.feat.getLsbD 0 = true → exec (.hfunc b) s = .next s.advance) ∧
      (s.ctx.feat.getLsbD 0 = false → exec (.hfunc b) s =
        .next (s.raise ⟨.illegalInsn, (encode (.hfunc b)).setWidth 64, all, false, false⟩))) ∧
    (s.issueCheck { run := .never } false (encode (.yield g k)) all = none → s.uniform g = true →
      (v ≤ 255 → exec (.yield g k) s =
        .next (s.advance.mapCur fun p => { p with
          wait := if s.self.tokens &&& BitVec.ofNat 8 v = 0 then .none else .tokens (BitVec.ofNat 8 v) })) ∧
      (255 < v → exec (.yield g k) s = .next (s.raise
        ⟨.illegalOperand, BitVec.ofNat 64 ((encode (.yield g k)).toNat + 5 * 2 ^ 32), all, false, false⟩))) ∧
    (s.issueCheck { issuer := .both } false (encode (.featq g d k)) all = none → isS d = true → s.uniform g = true →
      (v ≤ 3 → ∃ x : DWord, exec (.featq g d k) s = .next (s.putS (d.toNat - 0x40) x).advance ∧
        x.toNat = (if v = 0 then s.ctx.feat.toNat % 2 ^ 64 else if v = 1 then s.ctx.feat.toNat / 2 ^ 64
          else if v = 2 then s.ctx.nlc % 2 ^ 16 + 4 * 2 ^ 16 + 4 * 2 ^ 24 + 128 * 2 ^ 32 else 4)) ∧
      (3 < v → exec (.featq g d k) s = .next (s.raise
        ⟨.illegalOperand, BitVec.ofNat 64 ((encode (.featq g d k)).toNat + 5 * 2 ^ 32), all, false, false⟩))) ∧
    ∀ w : Word, exec (.reservedEncoding w) s =
      .next (s.raise ⟨.illegalInsn, w.setWidth 64, all, false, false⟩)

/-- R166 to R174, R212 to R221: hint words and the instructions that move no data. -/
def Obligations.HintsAndSmallInstructions : Prop := Parts.HintWords ∧ Parts.SmallInstructions

/-! ### Control transfer -/

/-- R23, R27, R159, R212, R213: outside a run a control transfer divides the issuing path into one path per distinct next PC and
return stack, each with just the lanes that go there; a lane that exits, or returns on an empty stack, is in no path any more.
Nothing else of the unit, and nothing outside it, changes. -/
def Parts.ControlTransfers : Prop :=
  ∀ (s : State) (i : Instr) (g : BitVec 3) (goal : Nat → Option (DWord × List DWord)),
    let c := s.self.cur
    let m := s.part g
    let next := (c.pc + 4, c.stack)
    let rel (o : BitVec 22) : DWord := BitVec.ofInt 64 (c.pc.toInt + 4 * o.toInt)
    let target (a : BitVec 7) (n : Nat) : DWord :=
      BitVec.ofNat 64 (c.pc.toNat / 2 ^ 32 % 2 ^ 24 * 2 ^ 32 + ((s.readV [] a).at n).toNat)
    s.self.run = none → (∀ p ∈ s.self.park, ∀ x, p.wait ≠ .trap x) →
    s.issueCheck { issuer := .both, run := .last } false (encode i) m = none →
    ((∃ o, i = .br g o ∧ goal = fun n => some (if m.has n then (rel o, c.stack) else next)) ∨
      (∃ o, i = .call g o ∧ c.stack.length < 8 ∧
        goal = fun n => some (if m.has n then (rel o, (c.pc + 4) :: c.stack) else next)) ∨
      (i = .ret g ∧ goal = fun n => if m.has n then c.stack.head?.map fun pc => (pc, c.stack.tail) else some next) ∨
      (i = .exit g ∧ goal = fun n => if m.has n then none else some next) ∨
      (∃ a, i = .jmpi g a ∧ isQ a = false ∧
        (if s.self.unit.gaffer then s.badScalar a else s.badSource a) = false ∧ s.bounds a 1 m = none ∧
        (∀ n < 32, m.has n = true → (target a n).toNat % 4 = 0) ∧
        goal = fun n => some (if m.has n then (target a n, c.stack) else next))) →
    ∃ t : State, exec i s = .next t ∧ t = { s with self := t.self } ∧
      t.self = { s.self with cur := t.self.cur, splits := t.self.splits, park := t.self.park, retired := t.self.retired } ∧
      ∀ n < 32, c.mask.has n = true → match goal n with
        | some (pc, st) => ∃ p ∈ t.self.paths, p.pc = pc ∧ p.stack = st ∧ p.pfx = Pfx.empty ∧ p.only = none ∧
            p.wait = .none ∧ ∀ k < 32, p.mask.has k = (c.mask.has k && goal k == some (pc, st))
        | none => (∀ p ∈ s.self.splits ++ s.self.park, p.mask.has n = false) → t.self.live.has n = false

/-- R23, R24, R27, R29, R213: a transfer of a whole split keeps its slot; a ninth call traps CALL_DEPTH; a CALLI goes on when
the word before its target is an HFUNC within the group's registers, and traps REG_BUDGET beyond them, ILLEGAL_INSN with the
target where the word is no HFUNC, MISALIGNED at an address that is no word's, and the trap of the fetch where that word
cannot be fetched, an XLATE with the target as TVAL. TVAL is 0 where no rule names one (the model's reading, log entry 39);
that it is the target for every XLATE of that fetch is the model's reading, too (log entry 67). -/
def Parts.CallsAndTargets : Prop :=
  ∀ (s s1 : State) (g : BitVec 3) (o : BitVec 22) (a : BitVec 7) (tg : DWord) (w : Word),
    let c := s.self.cur
    let m := s.part g
    let trap (cause : Cause) (v : DWord) : State := s.raise ⟨cause, v, m, false, false⟩
    s.self.run = none → m = c.mask → m ≠ 0 →
    (s.issueCheck { issuer := .both, run := .last } false (encode (.br g o)) m = none →
      exec (.br g o) s = .next ((s.mapCur fun p => { p with
        pc := p.pc + 4 * o.signExtend 64, pfx := Pfx.empty, only := none, failed := [], wait := .none }).mapSelf Agent.retire1)) ∧
    (s.issueCheck { issuer := .both, run := .last } false (encode (.call g o)) m = none → 8 ≤ c.stack.length →
      exec (.call g o) s = .next (trap .callDepth 0)) ∧
    (s.issueCheck { issuer := .both, run := .last } false (encode (.calli g a)) m = none → isQ a = false →
      (if s.self.unit.gaffer then s.badScalar a else s.badSource a) = false → s.bounds a 1 m = none →
      (∀ n < 32, m.has n = true → s.absTarget ((s.readV [] a).at n) = tg) →
      (tg.toNat % 4 ≠ 0 → exec (.calli g a) s = .next (trap .misaligned 0)) ∧
      (tg.toNat % 4 = 0 → s.fetchAt (tg - 4).toNat m = .word s1 w →
        (∀ b : BitVec 5, decode w = .ok (.hfunc b) →
          (s.self.unit.gaffer = true ∨ 8 * (b.toNat + 1) ≤ s.self.regs.v.length) →
          (8 ≤ c.stack.length → exec (.calli g a) s = .next (s1.raise ⟨.callDepth, 0, m, false, false⟩)) ∧
          (c.stack.length < 8 → exec (.calli g a) s = .next ((s1.mapCur fun _ => { c with
            pc := tg, stack := (c.pc + 4) :: c.stack, pfx := Pfx.empty, only := none, failed := [],
            wait := .none }).mapSelf Agent.retire1))) ∧
        (∀ b : BitVec 5, decode w = .ok (.hfunc b) → s.self.unit.gaffer = false →
          s.self.regs.v.length < 8 * (b.toNat + 1) →
          exec (.calli g a) s = .next (s1.raise ⟨.regBudget, 0, m, false, false⟩)) ∧
        ((∀ b : BitVec 5, decode w ≠ .ok (.hfunc b)) →
          exec (.calli g a) s = .next (s1.raise ⟨.illegalInsn, tg, m, false, false⟩))) ∧
      (tg.toNat % 4 = 0 → ∀ x : Trap, s.fetchAt (tg - 4).toNat m = .stop (.trap s1 x) →
        exec (.calli g a) s = .next (s1.raise ⟨x.cause, if x.cause = .xlate then tg else x.val, m, false, false⟩)))

/-- R214 to R217: branches, calls and returns. -/
def Obligations.Control : Prop := Parts.ControlTransfers ∧ Parts.CallsAndTargets

/-! ### Loads and stores -/

/-- R227, R229, R115, R50: an LD whose lanes all find their places gives each participating lane the value there: the element
decoded, or the bytes, little-endian, extended as W says, over W's registers; no other register and no memory changes. -/
def Obligations.Loads : Prop :=
  ∀ (g : BitVec 3) (d : BitVec 7) (t : BitVec 3) (x : BitVec 7) (w : BitVec 3) (c : BitVec 2) (s u : State) (l : List LaneAcc),
    let i : Instr := .ld g d t x w c
    let m := s.part g
    let rows := if w = 4 then 2 else if w = 5 then 4 else 1
    let bytes := if w = 2 ∨ w = 7 then 2 else if w = 3 then 4 else if w = 4 then 8 else if w = 5 then 16 else 1
    firstTrap [s.issueCheck { hmod := { rnd := w == 0, tv := [7] } } false (encode i) m,
      operandIf (s.badLoadDest w d) (encode i) 0 m, operandIf (s.badSource x) (encode i) 3 m, s.bounds d rows m,
      s.bounds x 1 m] = none →
    s.Placed ⟨.read, true, w == 0, s.hmod.tv == 7, bytes, 1, 0⟩ (encode i) t x m u l → s.self.run = none →
    ∃ q : State, exec i s = .next q ∧ u.OnlyLoads q d rows m ∧
      ∀ a ∈ l, ∀ pa ca at_, a.out = .ok pa ca at_ → ∀ k < rows,
        let v := leNat ((List.range bytes).map fun j => u.loadByte (ca + j))
        (q.readData [] d k).at a.lane =
          if w = 0 then ((u.elemAt a.va pa ca at_).decode s.rm).1
          else if w = 6 then (BitVec.ofNat 8 v).signExtend 32 else if w = 7 then (BitVec.ofNat 16 v).signExtend 32
          else BitVec.ofNat 32 (v / 2 ^ (32 * k))

/-- R227, R229, R128, R63: an ST whose lanes all find their places stores each participating lane's value there, in lane order,
and changes no other byte of memory and no register but the flags of FPC. -/
def Obligations.Stores : Prop :=
  ∀ (g : BitVec 3) (d : BitVec 7) (t : BitVec 3) (x : BitVec 7) (w : BitVec 3) (c : BitVec 2) (s u : State) (l : List LaneAcc),
    let i : Instr := .st g d t x w c
    let m := s.part g
    let rows := if w = 4 then 2 else if w = 5 then 4 else 1
    let bytes := if w = 2 ∨ w = 7 then 2 else if w = 3 then 4 else if w = 4 then 8 else if w = 5 then 16 else 1
    let raw (n : Nat) : Nat := ((List.range 4).map fun k => ((s.readData [] d k).at n).toNat * 2 ^ (32 * k)).sum
    firstTrap [s.issueCheck { hmod := { rnd := w == 0, sat := w == 0, tv := [7] } } false (encode i) m,
      operandIf (s.badStoreData w d) (encode i) 0 m, operandIf (s.badSource x) (encode i) 3 m, s.bounds d rows m,
      s.bounds x 1 m] = none →
    s.Placed ⟨.write, false, w == 0, s.hmod.tv == 7, bytes, 1, 0⟩ (encode i) t x m u l → s.self.run = none → isQ d = false →
    s.self.version.active = false →
    ∃ q : State, exec i s = .next q ∧
      ({ u with dirty := q.dirty, pois := q.pois, unpushed := q.unpushed } : State).OnlySelf q ∧
      (∃ fl : Flags, q.self.regs = { u.self.regs with fpc := u.self.regs.fpc ||| fl.setWidth 32 }) ∧
      ∀ b, q.byteAt b = storedOver (l.flatMap fun a => match a.out with
        | .ok _ ca at_ =>
          if w = 0 then bytesFrom ca (elemSize at_.fmt) (encodeElem at_.fmt s.rm s.sat ((s.readData [] d 0).at a.lane)).1
          else bytesFrom ca bytes (raw a.lane)
        | _ => []) u.byteAt b

/-- R227, R228, R142: outside a run at TL 0, with no lane that traps and some that miss, an LD loads the lanes that found their
places and parks the group at its first prefix word with the missed lanes to execute, on their entries of the merge table or,
where that is full, to issue again; an ST stores those lanes and puts the
missed ones at the end of the replay queue, which has room, with their addresses and bytes. -/
def Obligations.MissedLanes : Prop :=
  ∀ (g : BitVec 3) (d : BitVec 7) (t : BitVec 3) (x : BitVec 7) (c : BitVec 2) (s u : State) (l : List LaneAcc) (ld : Bool),
    let i : Instr := if ld then .ld g d t x 3 c else .st g d t x 3 c
    let m := s.part g
    let sh : AccShape := ⟨if ld then .read else .write, ld, false, s.hmod.tv == 7, 4, 1, 0⟩
    firstTrap [s.issueCheck { hmod := { tv := [7] } } false (encode i) m,
      operandIf (if ld then s.badLoadDest 3 d else s.badStoreData 3 d) (encode i) 0 m,
      operandIf (s.badSource x) (encode i) 3 m, s.bounds d 1 m, s.bounds x 1 m] = none →
    isQ x = false → isQ d = false → (s.treg t).preCheck 4 (offsets m (s.readV [] x)) (encode i) m = none →
    s.self.queuedPage ((offsets m (s.readV [] x)).map fun p => (s.treg t).addr p.2) = false →
    s.places sh t x m = (u, l) → (∀ a ∈ l, a.isOk = true ∨ a.isMiss = true) → l.any LaneAcc.isMiss = true →
    s.self.run = none → s.self.version.active = false →
    (ld = true → ∃ q : State, exec i s = .next q ∧ q.self.cur.pc = s.self.cur.first ∧ q.self.cur.pfx = Pfx.empty ∧
      (∀ n < 32, (q.self.cur.only.map fun k => Mask.has k n) = some (l.any fun a => a.isMiss && a.lane == n)) ∧
      (q.self.cur.wait = .stuck [] ∨ ∃ ks, q.self.cur.wait = .parked ks ∧ ks ≠ []) ∧ q.mem = u.mem ∧ q.dirty = u.dirty ∧
      ∀ a ∈ l, ∀ pa ca at_, a.out = .ok pa ca at_ →
        (q.readData [] d 0).at a.lane = BitVec.ofNat 32 (leNat ((List.range 4).map fun j => u.loadByte (ca + j)))) ∧
    (ld = false → s.self.replay.length < 16 → ∃ (q : State) (r : Replay), exec i s = .next q ∧
      q.self.replay = s.self.replay ++ [r] ∧ q.self.cur.pc = s.self.cur.pc + 4 ∧ q.self.regs = s.self.regs ∧
      r.word = encode i ∧ r.ver = false ∧
      r.lanes = ((l.filter LaneAcc.isMiss).map fun a => 
        ReplayLane.mk a.lane a.va (leBytes 4 ((s.readData [] d 0).at a.lane).toNat)) ∧
      ∀ b, q.byteAt b = storedOver (l.flatMap fun a => match a.out with
        | .ok _ ca _ => bytesFrom ca 4 ((s.readData [] d 0).at a.lane).toNat
        | _ => []) u.byteAt b)

/-- R104, R105, R229 to R231: LDS reads the issuer's scratchpad, STS writes it, MCST writes one word to the scratchpads of its
mask, each at the lane's offset; outside a run they change no other byte of any scratchpad. -/
def Parts.ScratchpadAccess : Prop :=
  ∀ (g : BitVec 3) (d x : BitVec 7) (w : BitVec 3) (c : BitVec 2) (k : BitVec 4) (s : State),
    let m := s.part g
    let rows := if w = 4 then 2 else if w = 5 then 4 else 1
    let bytes := if w = 2 ∨ w = 7 then 2 else if w = 3 then 4 else if w = 4 then 8 else if w = 5 then 16 else 1
    let off (n : Nat) : Nat := ((s.readV [] x).at n).toNat
    let own := s.self.unit.gang
    let raw (n : Nat) : Nat := ((List.range 4).map fun k => ((s.readData [] d k).at n).toNat * 2 ^ (32 * k)).sum
    let lanes := (List.range 32).filter m.has
    let stored (q : State) (dest : Nat → Bool) (n : Nat) (v : Nat → Nat) : Prop :=
      ({ s with crew := { s.crew with gangs := q.crew.gangs } } : State).OnlySelf q ∧ q.self.regs = s.self.regs ∧
      (q.crew.gangs.map Gang.size) = s.crew.gangs.map Gang.size ∧
      ∀ gg < s.crew.gangs.length, ∀ b, q.scrByte gg b =
        if dest gg then storedOver (lanes.flatMap fun j => bytesFrom (off j) n (v j)) (s.scrByte gg) b else s.scrByte gg b
    s.self.run = none → isQ x = false → w ≠ 0 → s.MemoryForm →
    (let i : Instr := .lds g d 0 x w c;
      firstTrap [s.issueCheck {} false (encode i) m, operandIf (s.badLoadDest w d) (encode i) 0 m,
        operandIf (s.badSource x) (encode i) 3 m, s.bounds d rows m, s.bounds x 1 m] = none →
      s.InScratchpad true bytes x m →
      ∃ q : State, exec i s = .next q ∧ s.OnlyLoads q d rows m ∧ ∀ n < 32, m.has n = true → ∀ k < rows,
        let v := leNat ((List.range bytes).map fun j => s.scrByte own (off n + j));
        (q.readData [] d k).at n = if w = 6 then (BitVec.ofNat 8 v).signExtend 32
          else if w = 7 then (BitVec.ofNat 16 v).signExtend 32 else BitVec.ofNat 32 (v / 2 ^ (32 * k))) ∧
    (let i : Instr := .sts g d 0 x w c;
      firstTrap [s.issueCheck {} false (encode i) m, operandIf (s.badStoreData w d) (encode i) 0 m,
        operandIf (s.badSource x) (encode i) 3 m, s.bounds d rows m, s.bounds x 1 m] = none → isQ d = false →
      s.InScratchpad false bytes x m →
      ∃ q : State, exec i s = .next q ∧ stored q (fun gg => gg == own) bytes raw) ∧
    (let i : Instr := .mcst g d 0 x k;
      firstTrap [s.issueCheck {} false (encode i) m, operandIf (s.badSource d) (encode i) 0 m,
        operandIf (s.badSource x) (encode i) 3 m, s.bounds d 1 m, s.bounds x 1 m] = none → isQ d = false → k ≠ 0 →
      (∀ b < 4, k.getLsbD b = true → ∃ gg, s.gang b = some gg ∧ ∀ n < 32, m.has n = true →
        off n < gg.size ∧ off n % 4 = 0) →
      ∃ q : State, exec i s = .next q ∧
        stored q (fun gg => k.getLsbD gg) 4 fun n => ((s.readV [] d).at n).toNat)

/-- R234, R390, R142, R144, R145: LDA reads and STL stores one word in each participating lane, when all lanes find their
places; an STL waits at its first prefix word while the release may not complete, and publishes what it covers at its scope. An
acquire narrower than FABRIC leaves the horizons; how far a wider one raises its die's is the model's choice (log entry 19). -/
def Parts.AcquireAndRelease : Prop :=
  ∀ (g : BitVec 3) (d : BitVec 7) (t : BitVec 3) (x : BitVec 7) (c : BitVec 4) (s u : State) (l : List LaneAcc) (ld : Bool),
    let i : Instr := if ld then .lda g d t x c else .stl g d t x c
    let m := s.part g
    let s0 := if ld then s else s.released c.toNat
    firstTrap [s.issueCheck { hmod := { tv := [7] }, run := .never } false (encode i) m,
      operandIf (if ld then s.badDest false d else s.badSource d) (encode i) 0 m,
      operandIf (s.badSource x) (encode i) 3 m, s.bounds d 1 m, s.bounds x 1 m] = none →
    s0.Placed ⟨if ld then .read else .write, ld, false, s.hmod.tv == 7, 4, 1, 0⟩ (encode i) t x m u l → isQ d = false →
    s.self.version.active = false →
    (ld = true → isV d = true ∨ isO d = true → ∃ q : State, exec i s = .next q ∧
      ({ u with dies := q.dies } : State).OnlyLoads q d 1 m ∧
      (c.toNat < 8 → q.dies = u.dies) ∧ (∀ e < 10, (u.dieAt e).horizon ≤ (q.dieAt e).horizon) ∧
      ∀ a ∈ l, ∀ pa ca at_, a.out = .ok pa ca at_ →
        (q.readData [] d 0).at a.lane = BitVec.ofNat 32 (leNat ((List.range 4).map fun j => u.loadByte (ca + j)))) ∧
    (ld = false → ¬ s.MayRelease c.toNat → exec i s = .next (s.mapSelf fun a => a.hold .poll)) ∧
    (ld = false → s.MayRelease c.toNat → ∃ q : State, exec i s = .next q ∧
      ({ u with dirty := q.dirty, pois := q.pois, unpushed := q.unpushed } : State).OnlySelf q ∧ q.self.regs = u.self.regs ∧
      ∀ b, q.byteAt b = storedOver (l.flatMap fun a => match a.out with
        | .ok _ ca _ => bytesFrom ca 4 ((s.readV [] d).at a.lane).toNat
        | _ => []) u.byteAt b)

/-- R128, R236, R237: the lanes of an atomic on global memory act one after another in increasing order, each on the word that
the lanes below left; ATOM writes the old words to D, RED, which has no exch and no cas, writes nothing but memory. -/
def Obligations.Atomics : Prop :=
  ∀ (g : BitVec 3) (d : BitVec 7) (t : BitVec 3) (x : BitVec 7) (o : BitVec 4) (s u : State) (l : List LaneAcc) (ret : Bool),
    let i : Instr := if ret then .atom g d t x o 0 else .red g d t x o 0
    let m := s.part g
    let s0 := if 2 ≤ s.hmod.order.toNat then s.released (s.scopeOr 5) else s
    let new (old a b : Word) : Word :=
      if o = 0 then old + a else if o = 1 then old - a else if o = 2 then (if a.toInt < old.toInt then a else old)
      else if o = 3 then (if old.toInt < a.toInt then a else old) else if o = 4 then (if a.toNat < old.toNat then a else old)
      else if o = 5 then (if old.toNat < a.toNat then a else old) else if o = 6 then old &&& a
      else if o = 7 then old ||| a else if o = 8 then old ^^^ a else if o = 9 then a
      else if o = 10 then (if old = a then b else old)
      else if o = 11 then BitVec.ofNat 32 (fp32.add .rne false s.zc old.toNat a.toNat).1
      else BitVec.ofNat 32 (fp32.minMax (o == 13) false old.toNat a.toNat)
    let word (mem : Nat → Byte) (ca : Nat) : Word := BitVec.ofNat 32 (leNat ((List.range 4).map fun j => mem (ca + j)))
    let act (mem : Nat → Byte) (a : LaneAcc) : Nat → Byte := match a.out with
      | .ok _ ca _ => storedOver (bytesFrom ca 4
          (new (word mem ca) ((s.readData [] d 0).at a.lane) ((s.readData [] d 1).at a.lane)).toNat) mem
      | _ => mem
    firstTrap [s.issueCheck
        { hmod := { tv := [7], order := if ret then [1, 2, 3] else [2], scope := true }, run := .never } false (encode i) m,
      operandIf (if o = 10 then !isV d else !(isV d || isO d)) (encode i) 0 m, operandIf (s.badSource x) (encode i) 3 m,
      s.bounds d (if o = 10 then 2 else 1) m, s.bounds x 1 m] = none → i.wellFormed = true →
    (s.ctx.det = true → o.toNat < 11 ∨ s.scopeOr 5 ≤ 1) → s.self.version.active = false →
    (2 ≤ s.hmod.order.toNat → s.MayRelease (s.scopeOr 5)) →
    s0.Placed ⟨.write, true, false, s.hmod.tv == 7, 4, 1, 0⟩ (encode i) t x m u l →
    ∃ q : State, exec i s = .next q ∧ (∀ b, q.byteAt b = (l.foldl act u.byteAt) b) ∧
      ({ u with dirty := q.dirty, pois := q.pois, unpushed := q.unpushed, dies := q.dies } : State).OnlyLoads q d 1 m ∧
      (ret = false → q.self.regs = u.self.regs) ∧
      (ret = true → ∀ (pre post : List LaneAcc) (a : LaneAcc) (pa ca : Nat) (at_ : Attr), l = pre ++ a :: post →
        a.out = .ok pa ca at_ → (q.readData [] d 0).at a.lane = word (pre.foldl act u.byteAt) ca)

/-- R236, R237: the same of an atomic on the issuer's scratchpad. -/
def Parts.ScratchpadAtomics : Prop :=
  ∀ (g : BitVec 3) (d x : BitVec 7) (s : State) (ret : Bool),
    let i : Instr := if ret then .atom g d 0 x 0 1 else .red g d 0 x 0 1
    let m := s.part g
    let own := s.self.unit.gang
    let off (n : Nat) : Nat := ((s.readV [] x).at n).toNat
    let word (mem : Nat → Byte) (a : Nat) : Word := BitVec.ofNat 32 (leNat ((List.range 4).map fun j => mem (a + j)))
    let act (mem : Nat → Byte) (n : Nat) : Nat → Byte :=
      storedOver (bytesFrom (off n) 4 (word mem (off n) + (s.readData [] d 0).at n).toNat) mem
    let before (n : Nat) : List Nat := (List.range n).filter m.has
    firstTrap [s.issueCheck
        { hmod := { tv := [7], order := if ret then [1, 2, 3] else [2], scope := true }, run := .never } false (encode i) m,
      operandIf (!(isV d || isO d)) (encode i) 0 m, operandIf (s.badSource x) (encode i) 3 m, s.bounds d 1 m,
      s.bounds x 1 m] = none →
    (2 ≤ s.hmod.order.toNat → s.MayRelease (s.scopeOr 2)) → s.InScratchpad true 4 x m → s.MemoryForm →
    ∃ q : State, exec i s = .next q ∧
      (∀ gg < s.crew.gangs.length, ∀ b, q.scrByte gg b =
        if gg = own then ((before 32).foldl act (s.scrByte own)) b else s.scrByte gg b) ∧
      (ret = true → ∀ n < 32, m.has n = true →
        (q.readData [] d 0).at n = word ((before n).foldl act (s.scrByte own)) (off n))

/-- R104, R230, R236: loads, stores and atomics on the scratchpad. -/
def Obligations.Scratchpads : Prop := Parts.ScratchpadAccess ∧ Parts.ScratchpadAtomics

/-- R115, R118, R232, R233: ABIND loads its translation register from a leaf of the page table: BASE, the frame, the attributes
as the walk finds them and HBOUND, and sets A there (D too where W is 1); a handle must name an object that the context has
open. PFX checks its binding and changes nothing. Where LIMIT ends is the model's choice (log entry 18), and so is the TVAL of
XLATE for a pointer beyond 56 bits (log entry 12). -/
def Parts.Binding : Prop :=
  ∀ (g t : BitVec 3) (x : BitVec 7) (s : State) (e : BitVec 64) (entry size : Nat),
    let m := s.part g
    let v := s.self.regs.sAt (x.toNat - 0x40)
    let bound (va hb : Nat) (q : State) : Prop :=
      q = { s with self := q.self, dirty := q.dirty } ∧ s.self = { q.self with regs := s.self.regs } ∧
      (∃ lim, 0 < lim ∧ lim ≤ size ∧ q.self.regs = { s.self.regs with
          a := s.self.regs.a.setIfInBounds t.toNat ⟨va, leafPhys e size va, lim, leafAttr e size, true, hb⟩ }) ∧
      ∀ b, q.byteAt b = if b = entry then s.byteAt b ||| (if e.getLsbD 3 then 0xC0 else 0x40) else s.byteAt b
    s.issueCheck {} false (encode (.abind g t x)) m = none → s.issueCheck {} false (encode (.abindH g t x)) m = none →
    isS x = true →
    (m = 0 → exec (.abind g t x) s = .next s.advance ∧ exec (.abindH g t x) s = .next s.advance) ∧
    (m ≠ 0 →
      (2 ^ 56 ≤ v.toNat → exec (.abind g t x) s = .next (s.raise ⟨.xlate, v, m, false, false⟩)) ∧
      (v.toNat < 2 ^ 56 → s.failedKey v.toNat .read = false → s.walk s.ctx v.toNat = .leaf e entry size →
        (size = 2 ^ 16 ∨ size = 2 ^ 21 ∨ size = 2 ^ 30) →
        ∃ q : State, exec (.abind g t x) s = .next q.advance ∧ bound v.toNat (2 ^ 56) q) ∧
      (∀ o : PuntyObj, s.handleObj (v.toNat % 2 ^ 32) = some o → 0 < o.openOf s.ctx.id →
        s.failedKey o.base .read = false → s.walk s.ctx o.base = .leaf e entry size →
        (size = 2 ^ 16 ∨ size = 2 ^ 21 ∨ size = 2 ^ 30) →
        ∃ q : State, exec (.abindH g t x) s = .next q.advance ∧ bound o.base o.size q) ∧
      ((s.handleObj (v.toNat % 2 ^ 32) = none ∨ ∃ o, s.handleObj (v.toNat % 2 ^ 32) = some o ∧ o.openOf s.ctx.id = 0) →
        exec (.abindH g t x) s = .next (s.raise ⟨.xlate, BitVec.ofNat 64 (v.toNat % 2 ^ 32), m, false, false⟩))) ∧
    ∀ (y : BitVec 7) (w : BitVec 3) (c : BitVec 2), isQ y = false →
      firstTrap [s.issueCheck {} false (encode (.pfx g t y w c)) m, operandIf (s.badSource y) (encode (.pfx g t y w c)) 3 m,
        s.bounds y 1 m] = none →
      ((s.treg t).valid = false → exec (.pfx g t y w c) s = .next (s.raise
        ⟨.illegalOperand, BitVec.ofNat 64 ((encode (.pfx g t y w c)).toNat + 4 * 2 ^ 32), m, false, false⟩)) ∧
      ((s.treg t).valid = true → (∀ n < 32, m.has n = true →
          let k := ((s.readV [] y).at n).toInt;
          0 ≤ k ∧ k < (s.treg t).hbound ∧ (s.treg t).base + k < 2 ^ 56) →
        exec (.pfx g t y w c) s = .next s.advance)

/-- R115: an access below LIMIT uses the frame and attributes of the translation register and reads no page table; one at or
beyond LIMIT, and a write to a migrating page, translates. -/
def Parts.BoundTranslation : Prop :=
  ∀ (s : State) (sh : AccShape) (t : TransReg) (x : Nat), s.failedKey (t.base + x) sh.kind = false →
    (x < t.limit → ¬ (sh.kind = .write ∧ t.attr.mig = true) → t.attr.denies sh.kind = false →
      s.laneVia sh t x = s.placeCheck sh (t.base + x) (t.frame + x) t.attr) ∧
    (x < t.limit → ¬ (sh.kind = .write ∧ t.attr.mig = true) → t.attr.denies sh.kind = true →
      ∃ u, s.laneVia sh t x = (u, .fail 3 .xlate (t.base + x)) ∧ u = { s with dies := u.dies }) ∧
    (t.limit ≤ x ∨ (sh.kind = .write ∧ t.attr.mig = true) → s.laneVia sh t x = s.laneAt sh (t.base + x))

/-- R115, R232, R233: ABIND, PFX and the accesses through a bound register. -/
def Obligations.Translations : Prop := Parts.Binding ∧ Parts.BoundTranslation

/-- R142, R144, R145, R239: a FENCE that releases waits at its first prefix word while the release may not complete; else it
completes, publishes what it covers at its scope as a release, and touches nothing more but, as an acquire, the horizon of its
die. -/
def Parts.Fences : Prop :=
  ∀ (g : BitVec 3) (s : State),
    let i : Instr := .fence g
    let o := s.hmod.order.toNat
    s.issueCheck { hmod := { order := [1, 2, 3], scope := true }, issuer := .both, run := .never } (o == 0) (encode i)
      s.self.cur.lanes = none → s.uniform g = true →
    let s0 := if 2 ≤ o then s.released (s.scopeOr 5) else s
    (2 ≤ o → ¬ s.MayRelease (s.scopeOr 5) → exec i s = .next (s.mapSelf fun a => a.hold .poll)) ∧
    (o = 1 ∨ s.MayRelease (s.scopeOr 5) → ∃ q : State, exec i s = .next q.advance ∧ q = { s0 with dies := q.dies } ∧
      (o = 2 ∨ s.scopeOr 5 < 8 → q = s0) ∧
      ∀ d < 10, ∃ h, (s.dieAt d).horizon ≤ h ∧ q.dieAt d = { s.dieAt d with horizon := h })

/-- R234, R239: LDA, STL and FENCE. -/
def Obligations.OrderedAccesses : Prop := Parts.AcquireAndRelease ∧ Parts.Fences

/-- R240, R241: a WAITV on its scratchpad completes at once when the word of every participating lane meets the condition; else
the split waits at the WAITV, with the deadline, in 1/16 ns from the issue, that C = 1 gives. Tested again it completes when the
condition holds, and waits on otherwise; once its deadline has passed PROGRESS is raised in the unmet lanes. While the unit runs
a run or stands still, or its crew is being saved, no wait ends (R30, R36, R370). -/
def Obligations.MemoryWaits : Prop :=
  ∀ (g : BitVec 3) (d x : BitVec 7) (w : BitVec 3) (c : BitVec 2) (s : State),
    let i : Instr := .waitv g d 0 x w c
    let m := s.part g
    let met (n : Nat) : Bool :=
      let a := BitVec.ofNat 32 (leNat ((List.range 4).map fun j =>
        s.scrByte s.self.unit.gang (((s.readV [] x).at n).toNat + j)))
      let b := (s.readV [] d).at n
      if w = 0 then a = b else if w = 1 then a ≠ b else if w = 2 then a.toInt < b.toInt else if w = 3 then b.toInt ≤ a.toInt
      else if w = 4 then a.toNat < b.toNat else b.toNat ≤ a.toNat
    let now := (s.dieAt s.crew.socket).ptime
    let held : HeldInsn := ⟨s.self.cur.pc, s.self.cur.pfx, encode i⟩
    i.wellFormed = true → s.hmod.tv = 1 → s.hmod.order = 0 →
    firstTrap [s.issueCheck { hmod := { tv := [1] }, run := .never } false (encode i) m, operandIf (s.badSource d) (encode i) 0 m,
      operandIf (s.badSource x) (encode i) 3 m, s.bounds d 1 m, s.bounds x 1 m] = none →
    (c = 1 → s.self.cur.pfx.himm = true) → isQ d = false → s.InScratchpad true 4 x m →
    ((∀ n < 32, m.has n = true → met n = true) → exec i s = .next s.advance) ∧
    ((∃ n < 32, m.has n = true ∧ met n = false) → exec i s = .next (s.mapSelf fun a => a.hold (.waitv held
      (if c = 1 then some (now + s.self.cur.pfx.acc.toNat) else none)))) ∧
    ∀ (s0 : State) (u : AgentKey) (slot : Nat) (dl : Option Nat), s0.focus u slot = some s0 →
      s0.self.cur.wait = .waitv held dl →
      s = (s0.mapCur fun p => { p with pc := held.addr, pfx := held.pfx, wait := .none }) →
      (s0.mayEnd = false → exec (.waitvRecheck u slot) s0 = .next s0 ∧ exec (.waitvDeadline u slot) s0 = .next s0) ∧
      (s0.mayEnd = true → (∀ n < 32, m.has n = true → met n = true) → exec (.waitvRecheck u slot) s0 = .next s.advance ∧
        (∀ t, dl = some t → t ≤ now → exec (.waitvDeadline u slot) s0 = .next s.advance)) ∧
      (s0.mayEnd = true → (∃ n < 32, m.has n = true ∧ met n = false) →
        exec (.waitvRecheck u slot) s0 = .next (s.mapSelf fun a => a.hold (.waitv held dl)) ∧
        (∀ t, dl = some t → t ≤ now → ∃ k : Mask, exec (.waitvDeadline u slot) s0 = .next (s.raise ⟨.progress, 0, k, false, false⟩) ∧
          ∀ n < 32, k.has n = (m.has n && !met n)))

/-! ### Barriers and copies -/

/-- R124, R249 to R251: BINIT, BARV, BEXP, BWAIT and BTEST on a barrier of the crew in front. An update that leaves PEND = 0 and
REM = 0 completes the phase; a poisoned barrier is changed by none, and raises BARRIER_POISON at a BWAIT; an arrival on a
barrier with REM = 0 poisons it; a wait that is not over issues again. A bad EXP of BINIT is refused before the place of the
barrier is checked (log entry 48). No other byte of a scratchpad changes. That BTEST gives 2
of a barrier that is poisoned and has also advanced past the phase is the model's choice (log entry 68). -/
def Parts.Barriers : Prop :=
  ∀ (s : State) (d a b : BitVec 5) (r : ScrRef),
    let x := s.crew.bar r
    let v := s.sreg b
    let all := s.self.cur.lanes
    let ready (i : Instr) (order : List (BitVec 2)) (reads : Bool) : Prop :=
      s.FxReady i { hmod := if order.isEmpty then {} else { order := order, scope := true }, issuer := .both, run := .never } ∧
      s.ref (s.sreg a) (encode i) 1 32 reads = .ok r
    let past : Bool := decide (1 ≤ (x.phase + 2 ^ 32 - v.toNat % 2 ^ 32) % 2 ^ 32) &&
      decide ((x.phase + 2 ^ 32 - v.toNat % 2 ^ 32) % 2 ^ 32 < 2 ^ 31)
    let only (q : State) : Prop :=
      q.crew = { s.crew with gangs := q.crew.gangs, agents := q.crew.agents } ∧ q.mem = s.mem ∧ q.dirty = s.dirty ∧
      ∀ g < s.crew.gangs.length, ∀ o, ¬ (g = r.gang ∧ r.off ≤ o ∧ o < r.off + 17) → q.crew.scr g o = s.crew.scr g o
    let settled (pend : Int) (rem : Nat) : Bar :=
      if pend = 0 ∧ rem = 0 then ⟨0, x.exp, x.exp, (x.phase + 1) % 2 ^ 32, false⟩ else ⟨pend, x.exp, rem, x.phase, false⟩
    s.crew.key ≠ CrewKey.none → s.MemoryForm →
    (s.FxReady (.binit a b) { issuer := .both, run := .never } → s.crew.refOf s.self.unit (s.sreg a).toNat ≠ none →
      v = 0 ∨ 65535 < v.toNat → exec (.binit a b) s = .next (s.raise
        ⟨.illegalOperand, BitVec.ofNat 64 ((encode (.binit a b)).toNat + 2 * 2 ^ 32), all, false, false⟩)) ∧
    (ready (.binit a b) [] false →
      (1 ≤ v.toNat ∧ v.toNat ≤ 65535 → ∃ q : State, exec (.binit a b) s = .next q.advance ∧ only q ∧
        q.crew.bar r = ⟨0, v.toNat, v.toNat, 0, false⟩) ∧
      (v = 0 ∨ 65535 < v.toNat → exec (.binit a b) s = .next (s.raise
        ⟨.illegalOperand, BitVec.ofNat 64 ((encode (.binit a b)).toNat + 2 * 2 ^ 32), all, false, false⟩))) ∧
    (ready (.barv d a) [2] true →
      (¬ s.MayRelease (s.scopeOr 2) → exec (.barv d a) s = .next (s.mapSelf fun u => u.hold .poll)) ∧
      (s.MayRelease (s.scopeOr 2) →
        (x.poison = true → exec (.barv d a) s =
          .next ((s.released (s.scopeOr 2)).putD d (BitVec.ofNat 64 x.phase)).advance) ∧
        (x.poison = false → x.rem = 0 → ∃ q : State, exec (.barv d a) s =
          .next (q.raise ⟨.barrierPoison, 0, all, false, false⟩) ∧ only q ∧ q.self = s.self ∧
          q.crew.bar r = { x with poison := true }) ∧
        (x.poison = false → 0 < x.rem → ∃ q : State, exec (.barv d a) s = .next (q.putD d (BitVec.ofNat 64 x.phase)).advance ∧
          only q ∧ q.crew.bar r = settled x.pend (x.rem - 1)))) ∧
    (ready (.bexp a b) [] true →
      (x.poison = true → exec (.bexp a b) s = .next s.advance) ∧
      (x.poison = false → ∃ q : State, exec (.bexp a b) s = .next q.advance ∧ only q ∧
        q.crew.bar r = settled (BitVec.ofInt 64 (x.pend + v.toInt)).toInt x.rem)) ∧
    (ready (.bwait a b) [1] true →
      (x.poison = true → exec (.bwait a b) s = .next (s.raise ⟨.barrierPoison, 0, all, false, false⟩)) ∧
      (x.poison = false → past = true → ∃ q : State, exec (.bwait a b) s = .next q.advance ∧ q = { s with dies := q.dies }) ∧
      (x.poison = false → past = false → exec (.bwait a b) s = .next (s.mapSelf fun u => u.hold .poll))) ∧
    (ready (.btest d a b) [1] true → ∃ q : State, q = { s with dies := q.dies } ∧
      exec (.btest d a b) s = .next (q.putD d (if x.poison then 2 else if past then 1 else 0)).advance)

/-- R252, R22, R142: a CBAR that releases arrives and waits; the arrival of the last member, retired members without a queued
store counting as arrived, lets every member go on at its next word and ends the count of arrivals. -/
def Parts.CrewBarrier : Prop :=
  ∀ s : State,
    let others := s.crew.agents.all fun a => (a.gone && a.replay.isEmpty) || s.crew.cbar.contains a.unit
    s.FxReady .cbar { issuer := .both, run := .never } → s.self.whole = true → s.self.run = none → s.self.gone = false →
    (s.self.replay ≠ [] → exec .cbar s = .next (s.mapSelf fun u => u.hold .poll)) ∧
    (s.self.replay = [] → others = false → ∃ q : State, exec .cbar s = .next q ∧
      q = { s.publish 4 with self := q.self, crew := { s.crew with cbar := s.self.unit :: s.crew.cbar } } ∧
      q.self = { s.self with cur := q.self.cur } ∧
      q.self.cur.wait = .cbar ⟨s.self.cur.pc, s.self.cur.pfx, encode .cbar⟩) ∧
    (s.self.replay = [] → others = true → ∃ q : State, exec .cbar s = .next q ∧ q.crew.cbar = [] ∧
      q.self.cur.pc = s.self.cur.pc + 4 ∧ q.self.cur.wait = .none ∧ q.self.regs = s.self.regs ∧
      (∀ a ∈ s.crew.agents, ∀ h, a.cur.wait = .cbar h → ∃ b ∈ q.crew.agents, b.unit = a.unit ∧ b.regs = a.regs ∧
        b.cur.pc = h.addr + 4 ∧ b.cur.wait = .none))

/-- R124, R249 to R252: barriers of scratchpads and of the crew. -/
def Obligations.BarrierObjects : Prop := Parts.Barriers ∧ Parts.CrewBarrier

/-- R123, R243 to R245, R248: the copy instructions check their control block in the order of R245 and issue one copy of its
kind, whose DONE and STATUS read 0; with .y the unit waits on it, with its continuation. With 64 copies held by the cluster the
instruction issues again. -/
def Parts.CopyIssue : Prop :=
  ∀ (s : State) (i : Instr) (kind : Nat) (a b : BitVec 5) (y : BitVec 1) (r : ScrRef),
    ((i = .cpy a b y ∧ kind = 0) ∨ (i = .cpyo a b y ∧ kind = 1) ∨ (i = .cpyg a b y ∧ kind = 2) ∨ (i = .cpys a b y ∧ kind = 3) ∨
      (i = .cpym a b y ∧ kind = 4) ∨ (i = .cpye a b y ∧ kind = 5)) →
    s.FxReady i { hmod := { scope := true, rnd := kind == 5, sat := kind == 5 }, feat := if kind = 5 then 1 else 0,
                  issuer := .both, run := .never } →
    s.ref (s.sreg a) (encode i) 1 64 true = .ok r → s.MemoryForm →
    let block := s.crew.scrBytes r.gang r.off 0x40
    let rows := fieldAt block 0x10 4
    let rowBytes := fieldAt block 0x14 4
    let cores := fieldAt block 0x24 1
    let trap (c : Cause) (v : Nat) : Prop :=
      exec i s = .next (s.raise ⟨c, BitVec.ofNat 64 v, s.self.cur.lanes, false, false⟩)
    let c : Copy := { id := s.crew.nextCopy, kind := kind, block := block, place := r, done := 0, status := 0
                      issuer := s.self.unit, cont := if y = 1 then some (s.sreg b) else none, scope := s.scopeOr 2
                      rnd := s.rm.code, sat := s.sat, keys := [] }
    let bad : Bool := 16 ≤ cores || !zeroAt block 0x25 11 || rows = 0 || rowBytes = 0 || 2 ^ 24 < rowBytes ||
      (kind = 5 && rowBytes ≠ 4096) || (kind = 4 && cores = 0) || (kind ≠ 4 && cores ≠ 0)
    (bad = true → trap .illegalOperand ((encode i).toNat + 5 * 2 ^ 32)) ∧
    (c.badFields s.crew s.self.unit = false →
      (fieldAt block 0x20 4 ≠ 2 ^ 32 - 1 ∧ fieldAt block 0x20 4 % 32 ≠ 0 → trap .misaligned 0) ∧
      (c.misaligned = false →
        (∀ o, c.outside s.crew s.self.unit = some o → trap .xlate (BitVec.ofInt 64 o).toNat) ∧
        (c.outside s.crew s.self.unit = none →
          (y = 1 → (s.sreg b).toNat % 4 ≠ 0 → trap .illegalOperand ((encode i).toNat + 2 * 2 ^ 32)) ∧
          (y = 0 ∨ (s.sreg b).toNat % 4 = 0 →
            (64 ≤ s.copiesHeld → exec i s = .next (s.mapSelf fun u => u.hold .poll)) ∧
            (s.copiesHeld < 64 → ∃ q : State, exec i s = .next q ∧ q.crew.copies = s.crew.copies ++ [c] ∧
              q.crew.nextCopy = s.crew.nextCopy + 1 ∧ q.crew.scrNum r.gang (r.off + 0x30) 8 = 0 ∧
              q.crew.scrNum r.gang (r.off + 0x38) 4 = 0 ∧ q.mem = s.mem ∧ q.dirty = s.dirty ∧
              q.self = { s.advance.self with cur := { s.advance.self.cur with
                wait := if y = 1 then .copy c.id (s.sreg b) else s.self.cur.wait } } ∧
              ∀ g < s.crew.gangs.length, ∀ o, ¬ (g = r.gang ∧ r.off + 0x30 ≤ o ∧ o < r.off + 0x3C) →
                q.crew.scr g o = s.crew.scr g o)))))

/-- R125, R126, R248: a copy within the scratchpads of the crew in front that waits on no page moves the bytes of its next
destination sector and counts them in DONE; at its last sector it ends with STATUS 3, and else it runs on with STATUS 1. Where
source and destination overlap, that a sector is read as it stands when it is copied is the model's choice (log entry 44). -/
def Parts.CopySector : Prop :=
  ∀ (s : State) (c : Copy) (x y : ScrRef),
    let n := min (c.rowBytes - c.done % c.rowBytes) (256 - (y.off + c.done / c.rowBytes * c.dpitch.toNat + c.done % c.rowBytes) % 256)
    let from_ := x.off + c.done / c.rowBytes * c.spitch.toNat + c.done % c.rowBytes
    let to_ := y.off + c.done / c.rowBytes * c.dpitch.toNat + c.done % c.rowBytes
    s.MemoryForm → s.crew.key ≠ CrewKey.none → s.ctx.id = s.crew.key.ctx → s.ctx.id ≠ CtxId.none →
    s.crew.copies.find? (fun z => z.id == c.id) = some c → c.kind = 3 → c.keys = [] → 0 < c.rowBytes → 0 ≤ c.spitch →
    0 ≤ c.dpitch → s.crew.refOf c.issuer c.src = some x → s.crew.refOf c.issuer c.dst = some y → c.bar = none →
    (∀ g ∈ s.crew.gangs, g.pois = []) → c.place.gang < s.crew.gangs.length →
    (c.place.gang ≠ y.gang ∨ to_ + n ≤ c.place.off ∨ c.place.off + 64 ≤ to_) →
    c.done + n < 2 ^ 64 →
    ∃ q : State, exec (.copySectorCount s.crew.key c.id) s = .next q ∧
      (∀ k < n, q.crew.scr y.gang (to_ + k) = s.crew.scr x.gang (from_ + k)) ∧
      q.crew.scrNum c.place.gang (c.place.off + 0x30) 8 = c.done + n ∧
      q.crew.scrNum c.place.gang (c.place.off + 0x38) 4 = (if c.done + n = c.rows * c.rowBytes then 3 else 1) ∧
      (c.done + n = c.rows * c.rowBytes → q.crew.copies = s.crew.copies.filter fun z => z.id != c.id) ∧
      (c.done + n ≠ c.rows * c.rowBytes → ∀ z ∈ q.crew.copies, z.id = c.id → z.done = c.done + n)

/-- R123 to R126, R243 to R248: copies, from issue to their last sector. -/
def Obligations.Copies : Prop := Parts.CopyIssue ∧ Parts.CopySector

/-! ### Queue registers and runs -/

/-- R121, R253, R254: outside a run QCFG attaches a queue register to the stream of its descriptor, QDRN detaches it, once the
entries pushed onto it have been written; in a run either takes effect at the trailer. That a COUNT or AREG outside its range
raises ILLEGAL_OPERAND is the model's choice (log entry 53). The load engine fetches the next entry of an attached load stream
ahead: its elements, the fault that the pop will take, or, where a lane misses, a wait on the entries that it joins in the merge
table (R340, R342). -/
def Obligations.QueueRegisters : Prop :=
  ∀ (s : State) (d a : BitVec 5) (r : ScrRef),
    let bs := s.scrBytes r.gang r.off 32
    let bad : Bool := fieldAt bs 8 4 = 0 || 2 ^ 31 < fieldAt bs 8 4 || 1 < fieldAt bs 0x10 1 ||
      !(fieldAt bs 0x11 1 = 0 || fieldAt bs 0x11 1 = 3) || 7 < fieldAt bs 0x12 1 || !zeroAt bs 0x13 13
    let stream : QueueReg := ⟨true, fieldAt bs 0 8, fieldAt bs 8 4, signedOf 32 (fieldAt bs 0x0C 4), fieldAt bs 0x10 1 = 1,
      fieldAt bs 0x11 1 = 3, fieldAt bs 0x12 1, 0, []⟩
    let regs (q : QueueReg) : State :=
      ({ s with self := { s.self with
        regs := { s.self.regs with q := s.self.regs.q.setIfInBounds d.toNat q }
        streams := s.self.streams.filter fun x => x.q != d.toNat } } : State).advance
    d.toNat ≤ 3 →
    (s.FxReady (.qcfg d a) {} → s.ref (s.sreg a) (encode (.qcfg d a)) 1 32 true = .ok r →
      (bad = true → exec (.qcfg d a) s = .next (s.raise
        ⟨.illegalOperand, BitVec.ofNat 64 ((encode (.qcfg d a)).toNat + 5 * 2 ^ 32), s.self.cur.lanes, false, false⟩)) ∧
      (bad = false → s.self.run = none → s.self.draining d.toNat = false → exec (.qcfg d a) s = .next (regs stream)) ∧
      (bad = false → s.self.run = none → s.self.draining d.toNat = true →
        exec (.qcfg d a) s = .next (s.mapSelf fun u => u.hold .poll))) ∧
    (s.FxReady (.qdrn d) {} →
      (s.self.run = none → s.self.draining d.toNat = false → exec (.qdrn d) s = .next (regs QueueReg.none)) ∧
      (s.self.run = none → s.self.draining d.toNat = true → exec (.qdrn d) s = .next (s.mapSelf fun u => u.hold .poll)) ∧
      (∀ z, s.self.run = some z → ∃ q : State, exec (.qdrn d) s = .next q ∧ q.self.regs = s.self.regs ∧
        (q.self.run.map Run.qops) = some (z.qops ++ [⟨d.toNat, none⟩]))) ∧
    ∀ (s1 : State) (x : Except (List LaneAcc) (List Elem)),
      let q := s.self.regs.qAt d.toNat
      let k := q.next + q.ahead.length
      let ahead (f : Fetched) : State := { s1 with self := { s.self with regs := { s.self.regs with
        q := s.self.regs.q.setIfInBounds d.toNat { q with ahead := q.ahead ++ [f] } } } }
      s.self.run = none → s.self.tl = 0 → s.crew.area = none → q.attached = true → q.store = false → k < q.count →
      (∀ f ∈ q.ahead, ∃ l, f = .data l) → (∀ y ∈ s.self.streams, y.q ≠ d.toNat) → s.entryQueued q k = false →
      (s.mapCur fun p => { p with failed := [] }).fetchEntry q k = (s1, x) →
      (∀ es, x = .ok es → exec (.queueStreamFetch s.selfKey d.toNat) s = .next (ahead (.data es))) ∧
      ∀ l, x = .error l →
        (∀ f, heldFault l = some f → exec (.queueStreamFetch s.selfKey d.toNat) s = .next (ahead f)) ∧
        (heldFault l = none → ∀ (s2 : State) (ks : List MergeKey),
          ({ s1 with self := s.self } : State).joinLanes .read 8 l = (s2, ks) → ks ≠ [] → ∃ va,
            exec (.queueStreamFetch s.selfKey d.toNat) s =
              .next { s2 with self := { s2.self with streams := s2.self.streams ++ [⟨d.toNat, k, va, ks⟩] } })

/-- R30, R31, R166, R177: RUNB opens a run when the word after its body is a trailer and none of its tokens is pending: the
registers are kept, the latches are zero, and the RUNB, which retires with the run, is counted in it (R34, R359); with a token
pending it issues again. A TRL outside a run, or not at its place, is ILLEGAL_INSN. -/
def Parts.RunHeader : Prop :=
  ∀ (s s1 : State) (n : BitVec 5) (a : BitVec 8) (t : BitVec 3) (v : BitVec 1) (w : Word),
    s.self.cur.pfx.count = 0 →
    (s.issueCheck { run := .never } false (encode (.runb n a)) s.self.cur.lanes = none →
      s.fetchAt (s.self.cur.pc + BitVec.ofNat 64 (4 * (n.toNat + 1))).toNat s.self.cur.lanes = .word s1 w →
      ((∀ t v, decode w ≠ .ok (.trl t v)) → exec (.runb n a) s = .next (s1.raise
        ⟨.illegalInsn, (encode (.runb n a)).setWidth 64, s.self.cur.lanes, false, false⟩)) ∧
      (decode w = .ok (.trl t v) → s.self.tokens &&& a ≠ 0 →
        exec (.runb n a) s = .next (s1.mapSelf fun u => u.hold .poll)) ∧
      (decode w = .ok (.trl t v) → s.self.tokens &&& a = 0 → ∃ q : State, exec (.runb n a) s = .next q ∧
        q = { s1 with self := q.self } ∧ q.self = { s1.self with cur := q.self.cur, run := q.self.run } ∧
        q.self.cur.pc = s1.self.cur.pc + 4 ∧
        q.self.run = some ⟨s1.self.cur.pc, n.toNat, 1, s1.self.regs, Vector.replicate 4 (Vector.replicate 32 0), [], none, [],
          false, 1⟩)) ∧
    (s.self.run = none →
      exec (.trl t v) s = .next (s.raise ⟨.illegalInsn, (encode (.trl t v)).setWidth 64, s.self.cur.lanes, false, false⟩)) ∧
    (∀ r, s.self.run = some r → r.pos ≠ r.n + 1 →
      exec (.trl t v) s = .next (s.raise ⟨.illegalInsn, (encode (.trl t v)).setWidth 64, s.self.cur.lanes, false, false⟩))

/-- R33, R36, R215, R359: at its place the trailer ends the run: its stores reach memory and the scratchpads in program order, its
instructions retire, the trailer with them, and the split goes on after it. The trailer's token becomes pending only when V is 1
and the run held a long-latency result; when, is timing (log entry 20). RESULT_WRITEBACK clears a token, and nothing else but
the wait of a split for tokens of which none is pending any more. -/
def Parts.RunTrailer : Prop :=
  ∀ (s : State) (t : BitVec 3) (v : BitVec 1) (r : Run),
    s.self.cur.pfx.count = 0 → s.self.run = some r → r.pos = r.n + 1 → r.qops = [] → r.xfer = none →
    s.self.version.active = false → s.MemoryForm →
    (∃ q : State, exec (.trl t v) s = .next q ∧ q.self.run = none ∧ q.self.regs = s.self.regs ∧
      q.self.retired = min (2 ^ 32 - 1) (s.self.retired + r.count + 1) ∧
      q.self.cur = { s.self.cur with pc := s.self.cur.pc + 4, pfx := Pfx.empty, only := none, failed := [] } ∧
      (q.self.tokens = s.self.tokens ∨
        (v = 1 ∧ r.long = true ∧ q.self.tokens = s.self.tokens ||| BitVec.ofNat 8 (2 ^ t.toNat))) ∧
      (∀ b, q.byteAt b = storedOver ((r.stores.reverse.filter fun h => h.gang.isNone).map fun h => (h.addr, h.byte)) s.byteAt b) ∧
      ∀ g < s.crew.gangs.length, g < 4 → ∀ b, q.crew.scr g b =
        storedOver ((r.stores.reverse.filter fun h => h.gang == some g).map fun h => (h.addr, h.byte)) (s.crew.scr g) b) ∧
    ∀ (k : Nat), k < 8 → s.self.tokens.getLsbD k = true → ∃ q : State,
      exec (.resultWriteback s.selfKey k) s = .next q ∧ q.mem = s.mem ∧ q.dirty = s.dirty ∧
      q.self = ({ s.self with tokens := q.self.tokens } : Agent).mapPaths (fun p => match p.wait with
        | .tokens m => if q.self.tokens &&& m = 0 then { p with wait := .none } else p
        | _ => p) ∧
      ∀ j < 8, q.self.tokens.getLsbD j = (s.self.tokens.getLsbD j && j != k)

/-- R30 to R33, R215: the header and the trailer of a run. -/
def Obligations.Runs : Prop := Parts.RunHeader ∧ Parts.RunTrailer

/-! ### Task queues, RENQ, FETCHW and versions -/

/-- R271 to R275: QPOP, QPUSH and QSTAT on a queue that the context owns; a queue that is not configured, or is another context's,
gives NOQUEUE. A pop of an open empty queue and a push to an open full one wait; a closed queue yields its entries, then
CLOSED. An entry leaves or joins exactly when the instruction completes. QPOP raises the horizon of its die to the one that
the entry carries (R390); QPUSH is a release at PACKAGE scope. -/
def Obligations.TaskQueues : Prop :=
  ∀ (s : State) (d a b : BitVec 5) (r : ScrRef),
    let num := (s.sreg a).toNat
    let found := s.queues.find? fun x => x.num == num
    let none_ : Prop := ∀ t, found = some t → t.owner ≠ s.ctx.id
    let swap (t : TaskQueue) (es : List QueueEntry) : List TaskQueue :=
      s.queues.map fun x => if x.num = num then { t with entries := es } else x
    let wait := s.mapSelf fun u => u.hold .poll
    let p := s.publish 6
    let ready (i : Instr) : Prop := s.FxReady i { issuer := .both, run := .never }
    let full (t : TaskQueue) : Prop :=
      t.cap ≤ (t.entries.filter fun e => e.src.isNone).length + t.resv * (if s.pod.domain = [] then 1 else s.pod.domain.length)
    (ready (.qpop d a b) → s.MemoryForm → num < 4096 → s.ref (s.sreg b) (encode (.qpop d a b)) 2 32 false = .ok r →
      (none_ → exec (.qpop d a b) s = .next (s.putD d 2).advance) ∧
      ∀ t, found = some t → t.owner = s.ctx.id →
        (t.entries = [] → t.closed = true → exec (.qpop d a b) s = .next (s.putD d 1).advance) ∧
        (t.entries = [] → t.closed = false → exec (.qpop d a b) s = .next wait) ∧
        (∀ e es, t.entries = e :: es → e.bytes.length = 32 → ∃ q : State, exec (.qpop d a b) s = .next (q.putD d 0).advance ∧
          q = { s with queues := swap t es, crew := q.crew, dies := q.dies } ∧ q.crew = { s.crew with gangs := q.crew.gangs } ∧
          q.crew.scrBytes r.gang r.off 32 = e.bytes ∧
          (∀ j < 10, j ≠ s.crew.socket → q.dieAt j = s.dieAt j) ∧
          (s.crew.socket < 10 → q.dieAt s.crew.socket = { s.dieAt s.crew.socket with
            horizon := max (s.dieAt s.crew.socket).horizon e.horizon }) ∧
          ∀ g < s.crew.gangs.length, ∀ o, ¬ (g = r.gang ∧ r.off ≤ o ∧ o < r.off + 32) → q.crew.scr g o = s.crew.scr g o)) ∧
    (ready (.qpush d a b) → num < 4096 → s.ref (s.sreg b) (encode (.qpush d a b)) 2 32 true = .ok r →
      (s.self.replay ≠ [] → exec (.qpush d a b) s = .next wait) ∧
      (s.self.replay = [] → none_ → exec (.qpush d a b) s = .next (p.putD d 2).advance) ∧
      (s.self.replay = [] → ∀ t, found = some t → t.owner = s.ctx.id →
        (t.closed = true → exec (.qpush d a b) s = .next (p.putD d 1).advance) ∧
        (t.closed = false → full t → exec (.qpush d a b) s = .next (p.mapSelf fun u => u.hold .poll)) ∧
        (t.closed = false → ¬ full t → exec (.qpush d a b) s =
          .next (({ p with queues := swap t (t.entries ++ [⟨s.scrBytes r.gang r.off 32, none, 0⟩]) } : State).putD d 0).advance))) ∧
    (ready (.qstat d a) →
      (4096 ≤ num → exec (.qstat d a) s = .next (s.raise
        ⟨.illegalOperand, BitVec.ofNat 64 ((encode (.qstat d a)).toNat + 1 * 2 ^ 32), s.self.cur.lanes, false, false⟩)) ∧
      (num < 4096 → none_ → exec (.qstat d a) s = .next (s.putD d 0xFFFFFFFFFFFFFFFF#64).advance) ∧
      (num < 4096 → ∀ t, found = some t → t.owner = s.ctx.id → exec (.qstat d a) s = .next (s.putD d
        (BitVec.ofNat 64 (t.closed.toNat * 2 ^ 63 + t.drops % 256 * 2 ^ 48 + t.cap % 2 ^ 24 * 2 ^ 24 +
          t.entries.length % 2 ^ 24))).advance))

/-- R144, R272 to R275, R389, R390, R398: a RENQ to a part outside the pod domain, or without a route through a pod port, is
UNREACHABLE. One to the issuing part, with a reserved slot free, sends its entry on its way; one to another part, once the link to
the hub has a credit of VC 2, leaves it with the hub, which accepts and counts it, or has it wait there, without a free counter or
behind an access of its unit that waits (whether a slot is free there is a free choice); each carries the horizon of its die.
Until then it waits, not yet injected. With .ack the sender waits for the answer. At its destination an entry joins its queue, or
is dropped and counted there, and one from another part is acknowledged (in the form of log entry 55). The answer is the status
that D gets. -/
def Obligations.RemoteEnqueue : Prop :=
  ∀ (s : State) (d a b : BitVec 5) (k : BitVec 1) (r : ScrRef),
    let i : Instr := .renq d a b k
    let v := (s.sreg a).toNat
    let dest := if v / 2 ^ 24 = 1 then s.pod.part else v / 4096 % 4096
    let members := if s.pod.domain = [] then [s.pod.part] else s.pod.domain
    let num := v % 4096
    let held : HeldInsn := ⟨s.self.cur.pc, s.self.cur.pfx, encode i⟩
    let packet : RenqPacket := ⟨s.nextPacket, s.pod.part, dest, s.ctx.id, num, s.scrBytes r.gang r.off 32, k == 1,
      (s.dieAt s.crew.socket).horizon⟩
    let heldSlots (t : TaskQueue) : Nat := (t.entries.filter fun e => e.src == some dest).length +
      (s.renqs.filter fun f => f.packet.dest == dest && f.packet.queue == num).length
    let wait : State := ({ s with free := s.free + 1 } : State).mapSelf fun u => u.hold (.slot held)
    let goesOn (q : State) : Prop := q.queues = s.queues ∧ q.self.regs = s.self.regs ∧
      (k = 0 → q.self.cur.pc = s.self.cur.pc + 4) ∧ (k = 1 → q.self.cur.wait = .renq held s.nextPacket)
    let accepts (s0 : State) (p : RenqPacket) (t : TaskQueue) (q : State) (status : Nat) : Prop :=
      (status = 0 ∧ t.owner = p.ctx ∧ t.closed = false ∧ q.queues = s0.queues.map fun x =>
          if x.num = t.num then { t with entries := t.entries ++ [⟨p.entry, some p.srcPart, p.horizon⟩] } else x) ∨
      (status = (if t.owner = p.ctx then 1 else 2) ∧ (t.owner ≠ p.ctx ∨ t.closed = true) ∧ q.queues = s0.queues.map fun x =>
          if x.num = t.num then { t with drops := min 255 (t.drops + 1) } else x)
    (s.FxReady i { issuer := .both, run := .never } → v < 2 ^ 25 → (v / 2 ^ 24 = 1 → v / 4096 % 4096 = 0) →
      s.ref (s.sreg b) (encode i) 2 32 true = .ok r → s.self.replay = [] →
      (members.contains dest = false ∨ (dest ≠ s.pod.part ∧ s.pod.outPort dest = none) →
        exec i s = .next (s.putD d 3).advance) ∧
      (members.contains dest = true → dest = s.pod.part → ∀ t, s.ownedQueue s.ctx.id num = some t →
        (heldSlots t < t.resv → s.unaccepted s.selfKey = false → ∃ (q : State) (f : RenqFlight), exec i s = .next q ∧
          q.renqs = s.renqs ++ [f] ∧ f.from_ = s.selfKey ∧ f.packet = packet ∧ goesOn q) ∧
        (t.resv ≤ heldSlots t ∨ s.unaccepted s.selfKey = true →
          exec i s = .next (s.mapSelf fun u => u.hold (.slot held)))) ∧
      (members.contains dest = true → dest ≠ s.pod.part → (s.pod.outPort dest).isSome = true →
        (s.unaccepted s.selfKey = true ∨ s.canSend (.interposer s.crew.socket 0) 2 = false → exec i s = .next wait) ∧
        (s.unaccepted s.selfKey = false → s.canSend (.interposer s.crew.socket 0) 2 = true → ∃ q : State,
          exec i s = .next q ∧ (q = wait ∨ (goesOn q ∧
            (q.renqs = if k = 1 then s.renqs ++ [⟨packet, s.selfKey⟩] else s.renqs) ∧
            (s.hub.waitsFor s.selfKey = false → s.fenceRoom s.selfKey dest = true →
              q.hub.enq = s.hub.enq ++ [(s.selfKey, packet)] ∧ q.hub.waiting = s.hub.waiting ∧
              q.fenceCount s.selfKey dest = s.fenceCount s.selfKey dest + 1) ∧
            (s.hub.waitsFor s.selfKey = true ∨ s.fenceRoom s.selfKey dest = false →
              q.hub.enq = s.hub.enq ∧ q.hub.waiting = s.hub.waiting ++ [.entry s.selfKey packet] ∧
              q.fences = s.fences)))))) ∧
    (∀ (p : RenqPacket) (t : TaskQueue), p.dest = s.pod.part → p.srcPart ≠ s.pod.part → s.flits = [] →
      (∀ n, s.pod.outPort p.srcPart = some n → s.pod.cbfc.testBit n = false) →
      (s.queues.find? fun x => x.num == p.queue) = some t → ∃ (q : State) (status : Nat),
        exec (.renqDelivery p) s = .next q ∧ q = { s with queues := q.queues, outbox := q.outbox } ∧ accepts s p t q status ∧
        q.outbox = s.outbox ++ .fabricAck p.srcPart p.id [] :: if p.ack then [.enqueueAck p.srcPart p.id status] else []) ∧
    (∀ (f : RenqFlight) (t : TaskQueue), f.packet.dest = s.pod.part → f.packet.srcPart = s.pod.part → f.packet.ack = false →
      s.renqs.find? (fun g => g.packet == f.packet) = some f →
      s.renqs.find? (fun g => g.from_ == f.from_ && g.packet.queue == f.packet.queue && g.packet.dest == f.packet.dest) =
        some f → (s.queues.find? fun x => x.num == f.packet.queue) = some t → ∃ (q : State) (status : Nat),
        exec (.renqDelivery f.packet) s = .next q ∧ accepts s f.packet t q status ∧
        q.renqs = s.renqs.filter fun g => g.packet.id != f.packet.id) ∧
    ∀ (f : RenqFlight) (h : HeldInsn) (status : Nat), f.from_ = s.selfKey → f.packet.dest ≠ s.pod.part →
      s.renqs.find? (fun g => g.packet.id == f.packet.id && g.packet.dest != s.pod.part) = some f →
      s.self.cur.wait = .renq h f.packet.id → decode h.word = .ok (.renq d a b k) →
      ∃ q : State, exec (.renqAck f.packet.id status) s = .next q ∧
        q.self.cur = { s.self.cur with wait := .result h d (BitVec.ofNat 64 status) } ∧ q.self.regs = s.self.regs ∧
        q.renqs = s.renqs.filter fun g => g.packet.id != f.packet.id

/-- R40, R147, R276 to R278, R363: FETCHW leaves a request with its unit's mailbox; the distributor answers it, for a persistent
crew, with the first candidate crew, which is then withdrawn, or EMPTY. TASKA opens a version, TASKE commits it: its bytes
become plain memory. A mailbox given to TASKE must be READY. -/
def Obligations.TaskVersions : Prop :=
  ∀ (s : State) (a : BitVec 5) (r : ScrRef),
    let tag (v : Version) : State := ({ s with self := { s.self with version := v } } : State).advance
    (s.FxReady (.fetchw a) { issuer := .both, run := .never } → s.ref (s.sreg a) (encode (.fetchw a)) 1 32 false = .ok r →
      (s.crew.fetch = none → ∃ q : FetchReq, exec (.fetchw a) s =
        .next ({ s with crew := { s.crew with fetch := some q } } : State).advance ∧ q.unit = s.self.unit ∧ q.box = r ∧
        q.stamp = (s.dieAt s.crew.socket).ptime ∧
        (s.self.unit.gaffer = false → q.core = 4 * s.crew.lcl + s.self.unit.gang)) ∧
      (s.crew.fetch ≠ none → exec (.fetchw a) s = .next (s.mapSelf fun u => u.hold .poll))) ∧
    (s.FxReady (.taska a) { feat := 4, issuer := .both, run := .never } →
      (s.self.version.open_ = false → exec (.taska a) s = .next (tag ⟨s.sreg a, true, false, [], []⟩)) ∧
      (s.self.version.open_ = true →
        exec (.taska a) s = .next (s.raise ⟨.version, 0, s.self.cur.lanes, false, false⟩))) ∧
    (s.FxReady (.taske a) { issuer := .both, run := .never } →
      (a = 0 → s.self.version.open_ = false → exec (.taske a) s = .next s.advance) ∧
      (a = 0 → s.self.version.open_ = true → s.self.replay ≠ [] →
        exec (.taske a) s = .next (s.mapSelf fun u => u.hold .poll)) ∧
      (a = 0 → s.self.version.active = true → s.self.replay = [] → s.self.version.bytes.wf = true →
        ∃ q : State, exec (.taske a) s = .next q.advance ∧ q.self = { s.self with version := Version.none } ∧
          q.mem = s.mem ∧ ∀ b, q.byteAt b = (s.self.version.bytes.read b).getD (s.byteAt b)) ∧
      (a ≠ 0 → s.ref (s.sreg a) (encode (.taske a)) 1 32 true = .ok r → s.scrNum r.gang r.off 4 ≠ 1 →
        exec (.taske a) s = .next (s.raise
          ⟨.illegalOperand, BitVec.ofNat 64 ((encode (.taske a)).toNat + 1 * 2 ^ 32), s.self.cur.lanes, false, false⟩))) ∧
    ∀ (die : Nat) (q : FetchReq) (own : Launch), s.MemoryForm → s.crew.key ≠ CrewKey.none → s.ctx.id = s.crew.key.ctx →
      s.ctx.id ≠ CtxId.none → s.fetchesOn die = [s.crew.key] → s.crew.fetch = some q →
      q.box.gang < s.crew.gangs.length → s.ctx.launch s.crew.key.launch = some own → own.persist = true →
      (∀ l ∈ s.ctx.launches, l.trec = false ∧ l.trep = false) →
      (s.firstFor s.ctx s.frontCrew = none → ∃ t : State, exec (.distributorCycle die) s = .next t ∧ t.crew.fetch = none ∧
        t.crew.scrNum q.box.gang q.box.off 4 = 2) ∧
      ∀ x, s.firstFor s.ctx s.frontCrew = some x → ∃ t : State, exec (.distributorCycle die) s = .next t ∧
        t.crew.fetch = none ∧ t.crew.scrNum q.box.gang q.box.off 4 = 1 ∧
        t.crew.scrNum q.box.gang (q.box.off + 8) 4 = x.launch.num % 2 ^ 32 ∧
        t.crew.scrNum q.box.gang (q.box.off + 12) 4 = x.key.1 % 2 ^ 32 ∧
        t.crew.scrNum q.box.gang (q.box.off + 16) 4 = x.key.2 % 2 ^ 32 ∧
        t.crew.scrNum q.box.gang (q.box.off + 24) 8 = x.launch.argva % 2 ^ 64 ∧
        ∀ l ∈ t.ctx.launches, l.num = x.launch.num → x.key ∈ l.withdrawn

/-! ### The Punty -/

/-- R118 to R120, R279 to R283, R405: the directory's instructions at PACKAGE scope. A DOPEN that finds its object takes one open
reference and returns the handle; DOPEN.w waits at the directory for a bind of an unbound name, which then completes it. DCLOSE
releases one reference, and reclaims an object that nothing names or holds: its slot's generation advances and its owner is
told. DINFO describes an open object; a DBIND whose every entry passes moves its names at once. A failure changes nothing and
gives its status. The FMT that DINFO gives where nothing is mapped is a free value (log entry 23). -/
def Parts.Directory : Prop :=
  ∀ (s : State) (d a b : BitVec 5) (k : BitVec 1) (r : ScrRef),
    let c := s.ctx.id
    let word (status handle : Nat) : DWord := BitVec.ofNat 64 (status * 2 ^ 56 + handle)
    let pub := s.publish 6
    let refs (o : PuntyObj) (x : CtxId) : Nat := ((o.opens.find? fun e => e.1 == x).map (·.2)).getD 0
    let total := (s.punty.objs.map fun o => (o.opens.map (·.2)).sum).sum
    let fails (i : Instr) (status : Nat) : Prop := exec i s = .next (s.putD d (word status 0)).advance
    (s.FxReady (.dopen d a k) { issuer := .both, run := .never } → s.ref (s.sreg a) (encode (.dopen d a k)) 1 16 true = .ok r →
      let found := s.punty.names.find? fun n => n.name == s.scrNum r.gang r.off 16
      (found = none → fails (.dopen d a k) 2) ∧
      (∀ n, found = some n → n.owner ≠ c → fails (.dopen d a k) 4) ∧
      (∀ n, found = some n → n.owner = c → n.bound = none → (k = 0 → fails (.dopen d a k) 1) ∧
        (k = 1 → exec (.dopen d a k) s = .next (s.mapSelf fun u => u.hold
          (.bind ⟨s.self.cur.pc, s.self.cur.pfx, encode (.dopen d a k)⟩ n.name)))) ∧
      (∀ n oid o, found = some n → n.owner = c → n.bound = some oid →
        (s.punty.objs.find? fun x => x.owner == c && x.oid == oid) = some o →
        (262144 ≤ total → fails (.dopen d a k) 3) ∧
        (total < 262144 → ∃ q : State, exec (.dopen d a k) s = .next (q.putD d (word 0 (o.gen * 2 ^ 24 + o.slot))).advance ∧
          q = { s with punty := q.punty } ∧ q.punty = { s.punty with objs := q.punty.objs } ∧
          q.punty.objs.length = s.punty.objs.length ∧
          ∀ (j : Nat) (x y : PuntyObj), s.punty.objs[j]? = some x → q.punty.objs[j]? = some y → y = { x with opens := y.opens } ∧
            refs y c = refs x c + (if x.slot = o.slot then 1 else 0) ∧ ∀ z, z ≠ c → refs y z = refs x z))) ∧
    (s.FxReady (.dclose d a) { issuer := .both, run := .never } → (s.sreg a).toNat < 2 ^ 32 → s.self.replay = [] →
      (∀ st, s.punty.openObj c (s.sreg a).toNat = .error st → exec (.dclose d a) s = .next (pub.putD d (word st 0)).advance) ∧
      (∀ o, s.punty.openObj c (s.sreg a).toNat = .ok o → ∃ q : State,
        exec (.dclose d a) s = .next (q.putD d (word 0 0)).advance ∧
        q = { pub with punty := q.punty, outbox := q.outbox } ∧ q.punty.names = s.punty.names ∧
        ((o.opens.map (·.1)).Nodup → (∀ x ∈ s.punty.objs, x.slot = o.slot → x = o) →
          let named := s.punty.names.any fun n => n.owner == o.owner && n.bound == some o.oid
          ((1 < (o.opens.map (·.2)).sum ∨ named = true) → q.outbox = s.outbox ∧
            ∃ y ∈ q.punty.objs, y = { o with opens := y.opens } ∧ refs y c + 1 = refs o c) ∧
          ((o.opens.map (·.2)).sum = 1 → named = false →
            q.outbox = s.outbox ++ [.event 8 4 (o.oid + o.owner.word.toNat * 2 ^ 32)] ∧
            q.punty.objs = s.punty.objs.filter (fun x => x.slot != o.slot) ∧
            q.punty.gens.find? (fun g => g.1 == o.slot) = some (o.slot, (o.gen + 1) % 256))))) ∧
    (s.FxReady (.dinfo d a b) { issuer := .both, run := .never } → s.MemoryForm → (s.sreg a).toNat < 2 ^ 32 →
      s.ref (s.sreg b) (encode (.dinfo d a b)) 2 32 false = .ok r →
      (∀ st, s.punty.openObj c (s.sreg a).toNat = .error st →
        exec (.dinfo d a b) s = .next (s.putD d (word st 0)).advance) ∧
      (∀ o, s.punty.openObj c (s.sreg a).toNat = .ok o → ∃ q : State,
        exec (.dinfo d a b) s = .next (q.putD d (word 0 0)).advance ∧ q.punty = s.punty ∧ q.mem = s.mem ∧ q.dirty = s.dirty ∧
        q.crew.scrNum r.gang r.off 8 = o.base % 2 ^ 64 ∧ q.crew.scrNum r.gang (r.off + 8) 8 = o.size % 2 ^ 64 ∧
        q.crew.scrNum r.gang (r.off + 0x10) 4 = o.oid % 2 ^ 32 ∧
        q.crew.scrNum r.gang (r.off + 0x15) 1 =
          (s.punty.names.any fun n => n.owner == o.owner && n.bound == some o.oid).toNat ∧
        q.crew.scrNum r.gang (r.off + 0x16) 2 = 0 ∧
        q.crew.scrNum r.gang (r.off + 0x18) 8 = (o.opens.map (·.2)).sum % 2 ^ 64)) ∧
    (s.FxReady (.dbind d a 0) { issuer := .both, run := .never } → s.ref (s.sreg a) (encode (.dbind d a 0)) 1 32 true = .ok r →
      s.self.replay = [] → ∀ n l, s.scrNum r.gang r.off 4 = n → 1 ≤ n → n ≤ 16 → r.off + 32 + 32 * n ≤ s.crew.sizeOf r →
      bindList (s.scrBytes r.gang r.off (32 + 32 * n)) = some l →
      (∀ f, s.punty.checkList c false [] 0 0 l = some f → exec (.dbind d a 0) s = .next (pub.putD d (word f.1 0)).advance) ∧
      (s.punty.checkList c false [] 0 0 l = none → ∃ q : State, exec (.dbind d a 0) s = .next (q.putD d (word 0 0)).advance ∧
        q.punty.names = (s.punty.names.map fun x =>
          match l.find? fun e => e.name == x.name with
          | none => x
          | some e => { x with bound := if e.oid = 0 then none else some e.oid }) ∧
        ((∀ e ∈ l, s.binders c e.name = []) → q = { pub with punty := q.punty, outbox := q.outbox }) ∧
        (∀ (e : BindEntry) (o : PuntyObj) (u : AgentKey) (p : Path) (h : HeldInsn) (d0 a0 : BitVec 5), l = [e] → e.oid ≠ 0 →
          s.binders c e.name = [(u, p)] → p.wait = .bind h e.name → decode h.word = .ok (.dopen d0 a0 1) →
          (s.punty.objs.find? fun x => x.owner == c && x.oid == e.oid) = some o → total < 262144 →
          u.crew = s.crew.key → u.unit ≠ s.self.unit → s.crew.key ≠ CrewKey.none →
          q.crew.agents = s.crew.agents.map fun x => if x.unit = u.unit then
            x.mapPaths (fun y => if y = p then { y with wait := .result h d0 (word 0 (o.gen * 2 ^ 24 + o.slot)) } else y) else x)))

/-- R118, R280, R283: what the checks of the directory's instructions say. A handle whose slot holds its generation and that the
context has open names its object; another generation is STALE, and a handle the context has not open NOTOPEN. An entry of a
bind list fails with NONAME, DENIED, NOOBJ or DUP, in this order, and the first failing entry decides. -/
def Parts.DirectoryChecks : Prop :=
  ∀ (p : Punty) (c : CtxId),
    (∀ (h : Nat) (o : PuntyObj), (p.objs.find? fun x => x.slot == h % 2 ^ 24) = some o →
      p.openObj c h = if o.gen * 2 ^ 24 + o.slot ≠ h then .error 5
        else if ((o.opens.find? fun e => e.1 == c).map (·.2)).getD 0 = 0 then .error 8 else .ok o) ∧
    (∀ (seen : List Nat) (i : Nat), p.checkList c false seen 0 i [] = none) ∧
    ∀ (seen : List Nat) (i : Nat) (e : BindEntry) (es : List BindEntry),
      let n := p.names.find? fun x => x.name == e.name
      let st := if n = none then 2 else if n.any (fun x => x.owner != c) then 4
        else if e.oid ≠ 0 ∧ ∀ o ∈ p.objs, ¬ (o.owner = c ∧ o.oid = e.oid) then 6 else if e.name ∈ seen then 7 else 0
      p.checkList c false seen 0 i (e :: es) = if st ≠ 0 then some (st, i, e.oid)
        else p.checkList c false (e.name :: seen) 0 (i + 1) es

/-- R118 to R120, R279 to R283: the directory. -/
def Obligations.PuntyDirectory : Prop := Parts.Directory ∧ Parts.DirectoryChecks

/-! ### Time, the ordered class, reductions -/

/-- R286: TSTAMP and TSERR read the issuer's die; TWAIT completes at once when its target is past, else waits, and goes on when
PTIME reaches the target. No wait ends while a run of its unit is in flight, while its group stands still, or while its crew is
being saved (R30, R36, R370). -/
def Parts.TimeInstructions : Prop :=
  ∀ (s : State) (d a : BitVec 5),
    let die := s.dieAt s.crew.socket
    let ready (i : Instr) : Prop := s.FxReady i { issuer := .both, run := .never }
    (ready (.tstamp d) → exec (.tstamp d) s = .next (s.putD d (BitVec.ofNat 64 die.ptime)).advance) ∧
    (ready (.tserr d) → exec (.tserr d) s = .next (s.putD d (BitVec.ofNat 64
      (die.err % 2 ^ 32 + die.healthy.toNat * 2 ^ 32 + s.pod.synced.toNat * 2 ^ 33))).advance) ∧
    (ready (.twait a) →
      ((s.sreg a).toNat ≤ die.ptime → exec (.twait a) s = .next s.advance) ∧
      (die.ptime < (s.sreg a).toNat → exec (.twait a) s = .next (s.mapSelf fun u => u.hold
        (.twait ⟨s.self.cur.pc, s.self.cur.pfx, encode (.twait a)⟩ (s.sreg a).toNat)))) ∧
    ∀ (s0 : State) (u : AgentKey) (slot : Nat) (h : HeldInsn) (t : Nat), s0.focus u slot = some s → s.self.cur.wait = .twait h t →
      (t ≤ die.ptime → s.mayEnd = true → exec (.twaitTargetReached u slot) s0 =
        .next (s.mapCur fun p => { p with pc := h.addr, pfx := h.pfx, wait := .none }).advance) ∧
      (die.ptime < t ∨ s.mayEnd = false → exec (.twaitTargetReached u slot) s0 = .next s0)

/-- R286, R387, R388: a time exchange never takes PTIME back, and slews it by at most 100 ppm but for the one step of every die to
the reference when PODSYNC is first set; HEALTHY falls with an error beyond the bound, on every die, and returns with the second
exchange in a row within it. An exchange on a pod link answers with PTIME in a control flit; a part follows the link of its time
parent and the interposer's reference, no other link. A die that has exchanged nothing for 1 ms is not healthy. -/
def Parts.TimeExchanges : Prop :=
  ∀ (s : State) (e : Nat) (x : TimeExchange), e < 10 →
    let d := s.dieAt e
    let sync := if (x.port = none ∧ s.pod.parent = 0xFF) ∨ x.port = some s.pod.parent
      then x.chain && (s.pod.parent == 0xFF || s.pod.podPorts.testBit s.pod.parent) else s.pod.synced
    let bound := if sync then 400 else 24
    let follows (q : State) : Prop :=
      q.pod = { s.pod with synced := sync, stepped := s.pod.stepped || sync } ∧
      (∀ j < 10, (s.dieAt j).ptime ≤ (q.dieAt j).ptime) ∧
      (sync = false ∨ s.pod.stepped = true →
        (∀ j < 10, j ≠ e → q.dieAt j = if bound < (s.dieAt j).err then { s.dieAt j with healthy := false, good := 0 }
          else s.dieAt j) ∧
        (q.dieAt e).ptime ≤ d.ptime + (d.ptime - d.exchanged) / 10000) ∧
      (sync = true → s.pod.stepped = false → ∀ j < 10, (q.dieAt j).ptime = max (s.dieAt j).ptime x.reference) ∧
      (q.dieAt e).err = x.err ∧
      (bound < x.err → (q.dieAt e).healthy = false ∧ (q.dieAt e).good = 0) ∧
      (x.err ≤ bound → (q.dieAt e).good = d.good + 1 ∧ (q.dieAt e).healthy = (d.healthy || decide (1 ≤ d.good)))
    (x.port = none → ∃ q : State, exec (.timeExchange e x) s = .next q ∧ follows q ∧
      q = { s with pod := q.pod, dies := q.dies }) ∧
    (∀ n < 32, x.port = some n → s.pod.podPorts.testBit n = true → s.pod.cbfc.testBit n = false → s.flits = [] →
      ∃ q : State, exec (.timeExchange e x) s = .next q ∧ q.outbox = s.outbox ++ [.time n d.ptime] ∧
        (n = s.pod.parent → follows q) ∧ (n ≠ s.pod.parent → q = { s with outbox := q.outbox })) ∧
    (d.exchanged + 16000000 ≤ d.ptime → ∃ q : State, exec (.timeHealthTimeout e) s = .next q ∧
      (q.dieAt e) = { d with healthy := false, good := 0 } ∧ ∀ j < 10, j ≠ e → q.dieAt j = s.dieAt j)

/-- R286, R387, R388: pod time. -/
def Obligations.PodTime : Prop := Parts.TimeInstructions ∧ Parts.TimeExchanges

/-- R141, R142, R144, R287, R390, R397: an OSEND checks its part, its alignment and its address at issue, and waits for the
stores of its unit. It leaves one packet stamped max(PTIME, horizon + 1), which is its die's new horizon; while the ordered
class is disabled its work waits for injection, and the issuer goes on. Its release publishes at POD scope, and its fence markers
follow when the hub accepts the packet (R398). The TVAL of XLATE at an address beyond 56 bits is the
model's choice (log entry 12), and that of MISALIGNED its reading (log entry 39). -/
def Parts.OrderedSends : Prop :=
  ∀ (s : State) (d a b : BitVec 5),
    let i : Instr := .osend d a b
    let va := s.sreg a
    let part := (s.sreg b).toNat
    let stamp := max (s.dieAt s.crew.socket).ptime ((s.dieAt s.crew.socket).horizon + 1)
    let body : OrdBody := .write va ((s.sreg d).setWidth 32)
    let trap (c : Cause) (v : DWord) : Prop := exec i s = .next (s.raise ⟨c, v, s.self.cur.lanes, false, false⟩)
    s.FxReady i { feat := 3, issuer := .both, run := .never } →
    (4096 ≤ part → trap .illegalOperand (BitVec.ofNat 64 ((encode i).toNat + 2 * 2 ^ 32))) ∧
    (part < 4096 → va.toNat % 4 ≠ 0 → trap .misaligned 0) ∧
    (part < 4096 → va.toNat % 4 = 0 → 2 ^ 56 ≤ va.toNat → trap .xlate va) ∧
    (part < 4096 → va.toNat % 4 = 0 → va.toNat < 2 ^ 56 →
      (s.self.replay ≠ [] → exec i s = .next (s.mapSelf fun u => u.hold .poll)) ∧
      (s.self.replay = [] → s.hub.ordctl.getLsbD 16 = false → exec i s = .next ({ s.publish 9 with
        work := s.work ++ [⟨s.selfKey, s.crew.socket, [part], s.ctx.id, body⟩] } : State).advance) ∧
      (s.self.replay = [] → s.hub.ordctl.getLsbD 16 = true → s.work = [] → s.crew.socket < 10 →
        ∃ q : State, exec i s = .next q.advance ∧
        q = { s.publish 9 with dies := q.dies } ∧ (∀ j < 10, j ≠ s.crew.socket → q.dieAt j = s.dieAt j) ∧
        q.dieAt s.crew.socket = { s.dieAt s.crew.socket with horizon := stamp, unpassed := (s.dieAt s.crew.socket).unpassed ++
          [⟨stamp, s.pod.part, s.crew.socket, part, 0, s.ctx.id, some s.selfKey, body⟩] }))

/-- R144, R281, R284, R390, R396 to R398: a DBIND.o, a release at POD scope, waits until the hub has accepted what its unit sent
before; then, with the ordered class enabled, one whose list passes here leaves one packet for each part of the pod domain, all
with one stamp. A DOPEN of POD scope leaves a probe and waits on it. With the class disabled, both wait. -/
def Parts.OrderedDirectory : Prop :=
  ∀ (s : State) (d a : BitVec 5) (k : BitVec 1) (r : ScrRef) (n : Nat) (l : List BindEntry),
    let die := s.dieAt s.crew.socket
    let stamp := max die.ptime (die.horizon + 1)
    let members := if s.pod.domain = [] then [s.pod.part] else s.pod.domain
    let packet (dest : Nat) (body : OrdBody) : OrdPacket :=
      ⟨stamp, s.pod.part, s.crew.socket, dest, 0, s.ctx.id, some s.selfKey, body⟩
    let sends (q : State) (ps : List OrdPacket) : Prop :=
      (∀ j < 10, j ≠ s.crew.socket → q.dieAt j = s.dieAt j) ∧
      q.dieAt s.crew.socket = { die with horizon := stamp, unpassed := die.unpassed ++ ps }
    let on := s.hub.ordctl.getLsbD 16
    s.crew.socket < 10 →
    (s.FxReady (.dbind d a 1) { feat := 3, issuer := .both, run := .never } →
      s.ref (s.sreg a) (encode (.dbind d a 1)) 1 32 true = .ok r → s.self.replay = [] → s.scrNum r.gang r.off 4 = n → 1 ≤ n →
      n ≤ 16 → r.off + 32 + 32 * n ≤ s.crew.sizeOf r → bindList (s.scrBytes r.gang r.off (32 + 32 * n)) = some l →
      s.punty.checkList s.ctx.id false [] 0 0 l = none →
      (s.unaccepted s.selfKey = true → exec (.dbind d a 1) s = .next (s.mapSelf fun u => u.hold .poll)) ∧
      (s.unaccepted s.selfKey = false → on = false →
        exec (.dbind d a 1) s = .next ((s.released 9).mapSelf fun u => u.hold .poll)) ∧
      (s.unaccepted s.selfKey = false → on = true → ∃ q : State, exec (.dbind d a 1) s = .next (q.putD d 0).advance ∧
        q = { s.released 9 with dies := q.dies } ∧ sends q (members.map fun m => packet m (.bind l)))) ∧
    (s.FxReady (.dopen d a k) { hmod := { scope := true }, issuer := .both, run := .never } → s.hmod.scope = 9 →
      s.ref (s.sreg a) (encode (.dopen d a k)) 1 16 true = .ok r →
      (on = false → exec (.dopen d a k) s = .next (s.mapSelf fun u => u.hold .poll)) ∧
      (on = true → ∃ q : State, exec (.dopen d a k) s = .next q ∧ q = { s with self := q.self, dies := q.dies } ∧
        q.self = s.self.hold (.probe ⟨s.self.cur.pc, s.self.cur.pfx, encode (.dopen d a k)⟩ stamp) ∧
        sends q [packet s.pod.part (.probe s.selfKey s.self.cur.slot (s.scrNum r.gang r.off 16))]))

/-- R284, R287, R390, R396: what enters the ordered class. -/
def Obligations.OrderedClass : Prop := Parts.OrderedSends ∧ Parts.OrderedDirectory

/-- R288 to R290: a REDP whose descriptor names its core and whose words lie in a scratchpad leaves one contribution on its way,
and goes on; a REDW at the root of a complete round writes the result at ROFF * 32, gives D its mask and closes the round; of an
incomplete one it waits, and at its deadline it closes the round with the mask of the absent contributors and no result. -/
def Parts.Reductions : Prop :=
  ∀ (s : State) (d a b : BitVec 5) (o : BitVec 4) (r : ScrRef), o.toNat < 8 →
    let v := (s.sreg a).toNat
    let rid := v % 4096
    let first := v / 2 ^ 12 % 2 ^ 9
    let count := v / 2 ^ 21 % 2 ^ 5 + 1
    let len := v / 2 ^ 26 % 2 ^ 5 + 1
    let roff := v / 2 ^ 32 % 2 ^ 14 * 32
    let round := v / 2 ^ 48 % 2 ^ 8
    let core := 4 * s.crew.lcl + (if s.self.unit.gaffer then 0 else s.self.unit.gang)
    let fine : Prop := v < 2 ^ 56 ∧ v / 2 ^ 46 % 4 ≤ 1 ∧ first + count ≤ 4 * s.ctx.nlc
    let cs := s.roundOf s.ctx.id rid round
    let valid (i : Nat) : Option (List Word) := ((cs.find? fun c => c.ix == i).filter fun c => c.op == o.toNat).map (·.words)
    let extra : Nat := (if cs.any fun c => c.op != o.toNat then 2 ^ 62 else 0) +
      (if ((cs.map (·.ix)).eraseDups).length = cs.length then 0 else 2 ^ 63)
    let redp : Instr := .redp a b o
    let redw : Instr := .redw d a b o
    (s.FxReady redp { feat := 5, run := .never } → fine → first ≤ core → core < first + count →
      s.ref (s.sreg b) (encode redp) 2 4 false = .ok r → r.off + 4 * len ≤ s.crew.sizeOf r → s.self.replay = [] →
      exec redp s = .next ({ s.publish 6 with
        redps := s.redps ++ [⟨s.nextPacket, s.crew.key, r, len, rid, round, core - first, o.toNat⟩]
        nextPacket := s.nextPacket + 1 } : State).advance) ∧
    (s.FxReady redp { feat := 5, run := .never } → ¬ (fine ∧ first ≤ core ∧ core < first + count) →
      exec redp s = .next (s.raise
        ⟨.illegalOperand, BitVec.ofNat 64 ((encode redp).toNat + 1 * 2 ^ 32), s.self.cur.lanes, false, false⟩)) ∧
    (s.FxReady redw { feat := 5, run := .never } → fine → core = first → s.redwOn s.ctx.id rid round = none →
      roff + 4 * len ≤ s.crew.sizeOf ⟨s.self.unit.gang, 0⟩ → s.ctx.id ≠ CtxId.none →
      s.self.unit.gang < s.crew.gangs.length → s.MemoryForm →
      ((∀ i < count, (valid i).isSome = true) → ∃ q : State, exec redw s = .next (q.putD d (BitVec.ofNat 64 extra)).advance ∧
        (∀ x ∈ q.rounds, ¬ (x.ctx = s.ctx.id ∧ x.rid = rid ∧ x.round = round)) ∧ (rid, round) ∈ q.ctx.marks ∧
        q.self = s.self ∧
        ∀ e < len, (∀ i < count, e < ((valid i).getD []).length) → q.crew.scrNum s.self.unit.gang (roff + 4 * e) 4 =
          (redWord o.toNat (v / 2 ^ 46 % 4 == 1) (v.testBit 31)
            ((List.range count).map fun i => ((valid i).getD []).getD e 0)).toNat) ∧
      ((∃ i < count, valid i = none) → exec redw s = .next (s.mapSelf fun u => u.hold
        (.redw ⟨s.self.cur.pc, s.self.cur.pfx, encode redw⟩ v (if b = 0 then none else some (s.sreg b).toNat))))) ∧
    ∀ (s0 : State) (u : AgentKey) (slot : Nat) (h : HeldInsn) (t : Nat), s0.focus u slot = some s →
      s.self.cur.wait = .redw h v (some t) → decode h.word = .ok redw → t ≤ (s.dieAt s.crew.socket).ptime →
      s.mayEnd = true → s.ctx.id ≠ CtxId.none → ∃ q : State, exec (.redwDeadline u slot) s0 = .next q ∧ q.self.cur.pc = h.addr + 4 ∧
        q.self.cur.wait = .none ∧ q.crew = s.crew ∧ (rid, round) ∈ q.ctx.marks ∧
        (d ≠ 0 → (q.self.regs.sAt d.toNat).toNat =
          ((List.range count).map fun i => if valid i = none then 2 ^ i else 0).sum + extra)

/-- R288, R289: the combines of a round element by element in the order of the contributor index: sequential, or pairwise with
distances 1, 2, 4, 8, 16; integers wrap. R288 works one element out both ways. A contribution read after issue joins its
round, and is dropped when that round is the one last closed, at whatever number of open rounds (R300). -/
def Parts.ReductionOrder : Prop :=
  (∀ (zc : Bool) (x y : Nat), x < 2 ^ 32 → y < 2 ^ 32 →
    redPair 3 zc x y = (x + y) % 2 ^ 32 ∧ redPair 0 zc x y = (fp32.add .rne false zc x y).1) ∧
  (∀ (op : Nat) (zc : Bool) (x0 x1 x2 x3 x4 : Nat), 3 ≤ op → op ≤ 5 →
    redElem op true zc [x0, x1, x2, x3, x4] =
      redPair op zc (redPair op zc (redPair op zc (redPair op zc x0 x1) x2) x3) x4 ∧
    redElem op false zc [x0, x1, x2, x3, x4] =
      redPair op zc (redPair op zc (redPair op zc x0 x1) (redPair op zc x2 x3)) x4) ∧
  redElem 0 false false [0x3F800000, 0x33800000, 0x33800000, 0x33800000] = 0x3F800001 ∧
  redElem 0 true false [0x3F800000, 0x33800000, 0x33800000, 0x33800000] = 0x3F800000 ∧
  ∀ (s : State) (f : RedpFlight) (c : Crew), s.redps.find? (fun g => g.id == f.id) = some f → s.crewAt f.crew = some c →
    s.redwOn f.crew.ctx f.rid f.round = none →
    ((s.rounds.any fun r => r.ctx == f.crew.ctx && r.rid == f.rid && r.round == f.round) = true →
      (∀ x ∈ s.ctxAt f.crew.ctx, (f.rid, f.round) ∉ x.marks) →
      ∃ q : State, exec (.redpArrival f.id) s = .next q ∧ q.redps = s.redps.filter (fun g => g.id != f.id) ∧
      q.rounds = s.rounds.map fun r => if r.ctx = f.crew.ctx ∧ r.rid = f.rid ∧ r.round = f.round then
        { r with contribs := r.contribs ++ [⟨f.ix, f.op, (List.range f.len).map fun j =>
          BitVec.ofNat 32 (leNat ((c.scrBytes f.src.gang f.src.off (4 * f.len)).drop (4 * j) |>.take 4))⟩] } else r) ∧
    (∀ x, s.ctxAt f.crew.ctx = some x → (f.rid, f.round) ∈ x.marks → exec (.redpArrival f.id) s =
      .next { s with redps := s.redps.filter fun g => g.id != f.id })

/-- R288, R289: reductions over cores. -/
def Obligations.ReductionRounds : Prop := Parts.Reductions ∧ Parts.ReductionOrder

/-! ### The Marver -/

/-- R79, R92, R259, R267: MSWAP, MZERO, MRED and MTRN queue one operation of their kind with no block; MTRN's sub-position is at
most 3. Everything outside the queue stands as it was. -/
def Parts.MarverPlainIssue : Prop :=
  ∀ (s : State) (a b : BitVec 5) (st : BitVec 1) (bar : Option ScrRef),
    let v := if a = 0 then 0 else (s.sreg a).toNat
    s.crew.marver.stopped = false →
    (if b = 0 then bar = none else ∃ r, bar = some r ∧ ∀ w, s.ref (s.sreg b) w 2 32 false = .ok r) →
    (s.EngineReady (.mswap b) true 0 b true → s.Queues (.mswap b) 3 bar [] 0) ∧
    (s.EngineReady (.mzero b) true 0 b true → s.Queues (.mzero b) 8 bar [] 0) ∧
    (s.EngineReady (.mred b st) true 0 b true → s.Queues (.mred b st) 11 bar [] st.toNat) ∧
    (s.EngineReady (.mtrn a b) true 0 b true →
      (v ≤ 3 → s.Queues (.mtrn a b) 9 bar [] v) ∧
      (3 < v → exec (.mtrn a b) s = .next (s.raise
        ⟨.illegalOperand, BitVec.ofNat 64 ((encode (.mtrn a b)).toNat + 2 ^ 32), s.self.cur.lanes, false, false⟩)))

/-- R259, R261 to R267: an MSTAT, MSTRM, MWAVE, MBACK, MDRAIN or MPRM reads its block once, at issue. A block with a field out of
its range is ILLEGAL_OPERAND with the first such field's offset, an extent beyond its scratchpad XLATE; else one operation is
queued with the bytes of the block, and nothing outside the queue changes. -/
def Parts.MarverBlockIssue : Prop :=
  ∀ (s : State) (a b : BitVec 5) (st : BitVec 1) (bar : Option ScrRef) (r : ScrRef)
    (i : Instr) (eop feat align size arg : Nat) (bad : MOp → List (Nat × Bool)) (out : MOp → Option Nat),
    ((i = .mstat a b ∧ eop = 2 ∧ feat = 0 ∧ align = 64 ∧ size = 64 ∧ arg = 0 ∧ bad = statBad s.crew ∧ out = statOut s.crew) ∨
     (i = .mstrm a b st ∧ eop = 4 ∧ feat = 0 ∧ align = 64 ∧ size = 64 ∧ arg = st.toNat ∧ bad = strmBad s.crew ∧
        out = strmOut s.crew) ∨
     (i = .mwave a b ∧ eop = 5 ∧ feat = 2 ∧ align = 64 ∧ size = 320 ∧ arg = 0 ∧ bad = waveBad s.crew false ∧
        out = waveOut s.crew) ∨
     (i = .mback a b ∧ eop = 6 ∧ feat = 2 ∧ align = 64 ∧ size = 320 ∧ arg = 0 ∧ bad = waveBad s.crew true ∧
        out = waveOut s.crew) ∨
     (i = .mdrain a b ∧ eop = 7 ∧ feat = 0 ∧ align = 64 ∧ size = 64 ∧ arg = 0 ∧ bad = drainBad s.crew ∧
        out = fun o => s.crew.extentOut (fieldAt o.block 0 8)
          [0, ((fieldAt o.block 0x10 2 - 1 : Nat) : Int) * signedOf 32 (fieldAt o.block 8 4)]
          (fieldAt o.block 0x14 2 * (if fieldAt o.block 0xC 1 = 1 then 4 else 2))) ∨
     (i = .mprm a b ∧ eop = 10 ∧ feat = 0 ∧ align = 16 ∧ size = 16 ∧ arg = 0 ∧ bad = prmBad s.crew ∧
        out = fun o => s.crew.extentOut (fieldAt o.block 0 8) [0] (4 * fieldAt o.block 8 4))) →
    s.EngineReady i true feat b true →
    (a = 0 → exec i s = .next (s.raise
      ⟨.illegalOperand, BitVec.ofNat 64 ((encode i).toNat + 2 ^ 32), s.self.cur.lanes, false, false⟩)) ∧
    (a ≠ 0 → s.crew.marver.stopped = false →
      (if b = 0 then bar = none else ∃ x, bar = some x ∧ ∀ w, s.ref (s.sreg b) w 2 32 false = .ok x) →
      s.ref (s.sreg a) (encode i) 1 align false = .ok r → r.off + size ≤ s.crew.sizeOf r →
      s.crew.scrPoison r.gang r.off size = false →
      let bs := s.crew.scrBytes r.gang r.off size
      let o : MOp := ⟨0, eop, 0, none, 0, false, bs, arg, 0, 0, .queued, false, []⟩
      let trap (c : Cause) (v : Nat) : Prop :=
        exec i s = .next (s.raise ⟨c, BitVec.ofNat 64 v, s.self.cur.lanes, false, false⟩)
      (∀ f, ((bad o).find? fun e => e.2).map (·.1) = some f → trap .illegalOperand (5 * 2 ^ 32 + f)) ∧
      ((∀ e ∈ bad o, e.2 = false) →
        (∀ v, out o = some v → trap .xlate v) ∧ (out o = none → s.Queues i eop bar bs arg)))

/-- R178, R242, R259, R260: an operand value that an engine instruction refuses is ILLEGAL_OPERAND with its field, in field order,
before ENGINE_FAULT and before any check of a place (log entry 48): a reference in A of a bad form, a slot above 15, a bad value
for MCF, a sub-position above 3, a barrier reference in B of a bad form. Nothing is asked of STOP. -/
def Parts.MarverOperands : Prop :=
  ∀ (s : State) (d a b : BitVec 5) (st : BitVec 1) (i : Instr),
    let formed (f : BitVec 5) : Prop := s.crew.refOf s.self.unit (s.sreg f).toNat ≠ none
    let v := (s.sreg a).toNat
    let refused (field : Nat) : Prop := exec i s = .next (s.raise
      ⟨.illegalOperand, BitVec.ofNat 64 ((encode i).toNat + field * 2 ^ 32), s.self.cur.lanes, false, false⟩)
    (i = .mrule a b → a ≠ 0 → s.EngineReady i false 0 0 true →
      (¬ formed a → refused 1) ∧ (formed a → b ≠ 0 → 15 < (s.sreg b).toNat → refused 2)) ∧
    (i = .mcfg d a → a ≠ 0 → s.EngineReady i false 0 0 false →
      2 ^ 7 ≤ v ∨ (1 ≤ v % 16 ∧ v % 16 ≤ 3) ∨ 9 < v % 16 → refused 1) ∧
    (i = .mtrn a b → s.EngineReady i true 0 b true →
      (a ≠ 0 → 3 < v → refused 1) ∧ (a = 0 ∨ v ≤ 3 → b ≠ 0 → ¬ formed b → refused 2)) ∧
    ((i = .mswap b ∨ i = .mzero b ∨ i = .mred b st) → s.EngineReady i true 0 b true → b ≠ 0 → ¬ formed b → refused 2) ∧
    ((i = .mstat a b ∨ i = .mstrm a b st ∨ i = .mdrain a b ∨ i = .mprm a b ∨ i = .mwave a b ∨ i = .mback a b) → a ≠ 0 →
      s.EngineReady i true (if i = .mwave a b ∨ i = .mback a b then 2 else 0) b true →
      (¬ formed a → refused 1) ∧ (formed a → b ≠ 0 → ¬ formed b → refused 2))

/-- R178, R256 to R267: the issue of the Marver's operations. -/
def Obligations.MarverIssue : Prop := Parts.MarverPlainIssue ∧ Parts.MarverBlockIssue ∧ Parts.MarverOperands

/-- R82, R86, R260, R268 to R270: the engine instructions that finish their work at once. MRULE loads a checked image into its
slot, and waits while an operation is in the queue; MCFG gives the old MCF and writes the new; MWAIT and MFENCE give MST when
the operations that they await are over, and hold the thread until then; MSTEP gives MST, clears its flags and then resumes or
discards the stopped operation. It resumes at MST.STEP, or at a step supplied, rounded down to a drain point; a wave that goes
back computes its earlier columns again and writes none of them (log entry 43). While an operation is stopped, every other engine
instruction raises ENGINE_FAULT, unless one of its operand values is refused (log entry 48). -/
def Obligations.MarverControl : Prop :=
  ∀ (s : State) (d a b : BitVec 5) (st : BitVec 1) (r : ScrRef),
    let m := s.crew.marver
    let trap (i : Instr) (c : Cause) (v : Nat) : Prop :=
      exec i s = .next (s.raise ⟨c, BitVec.ofNat 64 v, s.self.cur.lanes, false, false⟩)
    let formed (f : BitVec 5) : Prop := s.crew.refOf s.self.unit (s.sreg f).toNat ≠ none
    let mst : DWord := m.mst.setWidth 64
    let clear : BitVec 32 := m.mst &&& 0xFFFFCFE0#32
    let mine := (m.queue.filter fun o => o.thread == s.self.unit.ix).map (·.id)
    let held (i : Instr) (ids : List Nat) : Prop := exec i s =
      .next (s.mapSelf fun u => u.hold (.mfence ⟨s.self.cur.pc, s.self.cur.pfx, encode i⟩ ids))
    let resumed (o : MOp) (v : Nat) : State := s.withMarver { m with
      mst := clear &&& 0xFFFFBFFF#32
      queue := m.queue.map fun x => if x.id = o.id then { o with state := .running, keys := [], skip := v, step :=
        if o.eop = 5 ∨ o.eop = 6 then (if v < o.step then 0 else o.step) else v } else x }
    s.crew.key ≠ CrewKey.none →
    (∀ i, (i = .mrule a b ∧ a ≠ 0 ∧ formed a ∧ (b = 0 ∨ (s.sreg b).toNat ≤ 15) ∨
        (i = .mcfg d a ∧ (a = 0 ∨ (s.sreg a).toNat < 2 ^ 7 ∧
          ((s.sreg a).toNat % 16 = 0 ∨ 4 ≤ (s.sreg a).toNat % 16 ∧ (s.sreg a).toNat % 16 ≤ 9))) ∨
        i = .mwait d ∨ i = .mfence d) → m.stopped = true →
      s.EngineReady i false 0 0 (i == .mrule a b) → trap i .engineFault m.mst.toNat) ∧
    (∀ i, (i = .mswap b ∨ i = .mzero b ∨ i = .mred b st ∨ (i = .mtrn a b ∧ (a = 0 ∨ (s.sreg a).toNat ≤ 3)) ∨
        a ≠ 0 ∧ formed a ∧ (i = .mstat a b ∨ i = .mstrm a b st ∨
          i = .mdrain a b ∨ i = .mprm a b ∨ i = .mwave a b ∨ i = .mback a b)) →
      (b = 0 ∨ formed b) → m.stopped = true →
      s.EngineReady i true (if i = .mwave a b ∨ i = .mback a b then 2 else 0) b true → trap i .engineFault m.mst.toNat) ∧
    (s.EngineReady (.mrule a b) false 0 0 true → m.stopped = false → a ≠ 0 →
      s.ref (s.sreg a) (encode (.mrule a b)) 1 4 false = .ok r → r.off + 64 ≤ s.crew.sizeOf r →
      s.crew.scrPoison r.gang r.off 64 = false →
      let img := s.crew.scrBytes r.gang r.off 64
      let slot := if b = 0 then 0 else (s.sreg b).toNat
      (15 < slot → trap (.mrule a b) .illegalOperand ((encode (.mrule a b)).toNat + 2 * 2 ^ 32)) ∧
      (slot ≤ 15 → m.queue ≠ [] → exec (.mrule a b) s = .next (s.mapSelf fun u => u.hold .poll)) ∧
      (slot ≤ 15 → m.queue = [] → (∀ k, badRule img = some k → trap (.mrule a b) .engineFault k) ∧
        (badRule img = none → ∃ q : Marver, exec (.mrule a b) s = .next (s.withMarver q).advance ∧
          q = { m with slots := q.slots } ∧ ∀ n, q.slot n = if n = slot then some img else m.slot n))) ∧
    (s.EngineReady (.mcfg d a) false 0 0 false → m.stopped = false →
      let v := (s.sreg a).toNat
      (a = 0 → exec (.mcfg d a) s = .next (s.putD d (m.mcf.setWidth 64)).advance) ∧
      (a ≠ 0 → v < 2 ^ 7 → v % 16 = 0 ∨ 4 ≤ v % 16 ∧ v % 16 ≤ 9 → exec (.mcfg d a) s =
        .next ((s.withMarver { m with mcf := BitVec.ofNat 32 v }).putD d (m.mcf.setWidth 64)).advance) ∧
      (a ≠ 0 → 2 ^ 7 ≤ v ∨ (1 ≤ v % 16 ∧ v % 16 ≤ 3) ∨ 9 < v % 16 →
        trap (.mcfg d a) .illegalOperand ((encode (.mcfg d a)).toNat + 2 ^ 32))) ∧
    (s.EngineReady (.mwait d) false 0 0 false → m.stopped = false →
      (mine = [] → exec (.mwait d) s = .next (s.putD d mst).advance) ∧ (mine ≠ [] → held (.mwait d) mine)) ∧
    (s.EngineReady (.mfence d) false 0 0 false → m.stopped = false →
      (m.queue = [] → exec (.mfence d) s = .next (s.putD d mst).advance) ∧
      (m.queue ≠ [] → held (.mfence d) (m.queue.map (·.id)))) ∧
    (s.EngineReady (.mstep d) false 0 0 false →
      exec (.mstep d) s = .next ((s.withMarver { m with mst := clear }).putD d mst).advance) ∧
    (s.EngineReady (.mstepRes d) false 0 0 true →
      (m.stopped = false → trap (.mstepRes d) .illegalOperand ((encode (.mstepRes d)).toNat + 5 * 2 ^ 32)) ∧
      ∀ o, m.stopped = true → m.queue.find? (fun x => x.state == .stopped) = some o →
        exec (.mstepRes d) s = .next ((resumed o (bitsOf m.mst.toNat 31 19)).putD d mst).advance) ∧
    (s.EngineReady (.mstepResat d a) false 0 0 true →
      let v := if a = 0 then 0 else (s.sreg a).toNat % 2 ^ 32
      (m.stopped = false → trap (.mstepResat d a) .illegalOperand ((encode (.mstepResat d a)).toNat + 5 * 2 ^ 32)) ∧
      (m.stopped = true → bitsOf m.mst.toNat 31 19 < v →
        trap (.mstepResat d a) .illegalOperand ((encode (.mstepResat d a)).toNat + 2 ^ 32)) ∧
      ∀ o, m.stopped = true → m.queue.find? (fun x => x.state == .stopped) = some o → v ≤ bitsOf m.mst.toNat 31 19 →
        let g := if o.eop = 5 ∨ o.eop = 6 then 32 else 16
        exec (.mstepResat d a) s = .next ((resumed o (v / g * g)).putD d mst).advance) ∧
    (s.EngineReady (.mstepDis d) false 0 0 true →
      (m.stopped = false → trap (.mstepDis d) .illegalOperand ((encode (.mstepDis d)).toNat + 5 * 2 ^ 32)) ∧
      ∀ o, m.stopped = true → m.queue.find? (fun x => x.state == .stopped) = some o → ∃ q : State,
        exec (.mstepDis d) s = .next (q.putD d mst).advance ∧
        q = { s with crew := { s.crew with marver := q.crew.marver, gangs := q.crew.gangs } } ∧
        q.crew.marver = { m with
          mst := (clear &&& 0xFFFFBFFF#32) ||| 0x1000#32
          queue := m.queue.filter fun x => x.id != o.id
          edges := q.crew.marver.edges } ∧
        (o.barrier = none → q.crew.gangs = s.crew.gangs) ∧
        ∀ k, o.barrier = some k → k.gang < s.crew.gangs.length →
          (q.crew.bar k).poison = true ∧ ∀ g < s.crew.gangs.length, ∀ n, ¬ (g = k.gang ∧ n = k.off + 16) →
            q.crew.scr g n = s.crew.scr g n)

/-- R77, R79, R80, R92, R98, R267: a queued operation starts when the operations before it allow; an operation that has run to
its end leaves the queue and arrives on its barrier, which shows its writes to the host where its scope is PACKAGE or wider.
MSWAP exchanges STA and SHD with their records, MZERO clears ACC, and MTRN fills ACC rows from STA's columns, 16 rows between
drain points. -/
def Parts.MarverOperations : Prop :=
  ∀ (s : State) (o : MOp),
    let k := s.crew.key
    let m := s.crew.marver
    let before := m.queue.takeWhile fun e => e.id != o.id
    let after (v : MOp) : List MOp := m.queue.map fun x => if x.id = o.id then v else x
    k ≠ CrewKey.none → s.ctx.id = k.ctx → s.ctx.id ≠ CtxId.none → m.queue.find? (fun x => x.id == o.id) = some o →
    s.crew.area = none → s.MemoryForm → o.keys = [] → o.failed = false →
    (o.state = .queued → m.stopped = false → o.step = 0 →
      (before ≠ [] → (o.eop = 3 ∨ o.eop = 7 ∨ o.eop = 8) → exec (.marverOpStart k o.id) s = .next s) ∧
      (before = [] → o.eop = 3 → exec (.marverOpStart k o.id) s = .next (s.withMarver { m with
        sta := m.shd, shd := m.sta, staRec := m.shdRec, shdRec := m.staRec
        queue := after { o with state := .running, step := 1 } })) ∧
      (before = [] → o.eop = 8 → exec (.marverOpStart k o.id) s = .next (s.withMarver { m with
        acc := [], queue := after { o with state := .running, step := 1 } }))) ∧
    (o.state = .running → o.eop = 9 → o.step % 16 = 0 → o.step < 128 → m.mst.toNat % 2 ^ 5 = 31 →
      (∀ x ∈ m.queue, x.state = .running → x = o) → ∃ q : Marver,
        exec (.marverDrainPoint k) s = .next (s.withMarver q) ∧ q = { m with acc := q.acc, mst := m.mst, queue := q.queue } ∧
        q.queue = after { o with step := o.step + 16 } ∧
        ∀ row < 128, ∀ n < 128, q.accAt row n =
          if o.step ≤ row ∧ row < o.step + 16 then (m.cell n row o.arg).1 else m.accAt row n) ∧
    (o.state = .running → o.total ≤ o.step → ∃ q : State, exec (.marverOpComplete k o.id) s = .next q ∧
      q.crew.marver.queue = m.queue.filter (fun x => x.id != o.id) ∧ q.crew.marver.acc = m.acc ∧ q.crew.marver.sta = m.sta ∧
      q.mem = s.mem ∧ q.dirty = s.dirty ∧ q.self.regs = s.self.regs ∧
      (o.barrier ≠ none → 6 ≤ o.scope → ∀ u ∈ q.unpushed, u ∈ s.unpushed ∧
        u.writer ≠ { s.crew.writer ⟨true, 0, o.thread⟩ with engine := some (2 * o.id) }) ∧
      (o.barrier = none → q.crew.marver.mst = m.mst ∧ q.crew.gangs = s.crew.gangs) ∧
      ∀ r, o.barrier = some r → r.gang < s.crew.gangs.length →
        let x := s.crew.bar r
        (x.poison = true → q.crew.marver.mst = m.mst ||| 0x1000#32 ∧ q.crew.gangs = s.crew.gangs) ∧
        (x.poison = false → 0 < x.rem → q.crew.marver.mst = m.mst ∧ q.crew.bar r =
          if x.pend = 0 ∧ x.rem = 1 then ⟨0, x.exp, x.exp, (x.phase + 1) % 2 ^ 32, false⟩ else { x with rem := x.rem - 1 }))

/-- R83 to R87: the rule of the edit distance, as its image spells it: for every left, upper and diagonal value and every row and
column element, V is the least of L + 1, U + 1 and D plus 0 or 1 as A and B are equal or not, on wrapped 32-bit integers, and the
code names the diagonal before the upper and the upper before the left. -/
def Parts.MarverRule : Prop :=
  ∀ (zc : Bool) (l u d a b : Word),
    let img := ([0x6C000000, 0x301A6800, 0x0502E800, 0x2CCEB000, 0x058AE800, 0x04956800, 0x1E5E5000, 0, 0, 1, 1, 0, 0, 0, 0,
      0] : List Nat).flatMap (leBytes 4)
    let x := (l + 1).toInt
    let y := (u + 1).toInt
    let z := (d + if a = b then 0 else 1).toInt
    badRule img = none ∧
    (runRule img zc ⟨l, u, d, a, b, 0⟩).v = BitVec.ofInt 32 (min x (min y z)) ∧
    (runRule img zc ⟨l, u, d, a, b, 0⟩).tb = if z ≤ x ∧ z ≤ y then 2 else if y ≤ x then 1 else 0

/-- R79, R81, R98: how an operation runs. Its start, and each drain point, take it on step by step to its next drain point:
every 32 columns of a wave, every 16 rows of another. A step leaves the Marver that it gives and its count; a miss keeps the
step and waits on its merge entries; an engine error stops the operation, with MST.STOP and the step. -/
def Parts.MarverRuns : Prop :=
  ∀ (s : State) (o : MOp) (f : Nat),
    let k := s.crew.key
    let m := s.crew.marver
    let before := m.queue.takeWhile fun e => e.id != o.id
    let put (q : Marver) (v : MOp) : Marver := { q with queue := q.queue.map fun x => if x.id = o.id then v else x }
    s.crew.area = none → m.stopped = false →
    (k ≠ CrewKey.none → m.queue.find? (fun x => x.id == o.id) = some o → o.state = .queued → o.keys = [] →
      ((o.eop = 2 ∧ ∀ e ∈ before, e.eop ≠ 2 ∧ e.eop ≠ 3) ∨
        (o.eop ∈ [4, 5, 6, 9, 10, 11] ∧ ∀ e ∈ before, e.eop = 2 ∧ e.state = .running) ∨ before = []) →
      exec (.marverOpStart k o.id) s = .next ((s.withMarver (put m { o with state := .running })).opRun k o.id 16)) ∧
    (s.Running o → o.keys = [] → (∀ x ∈ m.queue, x.state = .running → x = o) →
      exec (.marverDrainPoint k) s = .next (s.opRun k o.id 16)) ∧
    (s.Running o →
      (∀ (s1 : State) (q : Marver) (n : Nat), s.nextStep o = (s1, .done q n) → s1.crew.key = k →
        let t := s1.withMarver (put q { o with step := n, keys := [] })
        s.opRun k o.id (f + 1) =
          if o.total ≤ n ∨ n % (if o.eop = 5 ∨ o.eop = 6 then 32 else 16) = 0 then t else t.opRun k o.id f) ∧
      (∀ (s1 : State) (ks : List MergeKey), s.nextStep o = (s1, .wait ks) → s1.crew.key = k →
        s.opRun k o.id (f + 1) = s1.withMarver (put s1.crew.marver { o with keys := ks })) ∧
      (∀ s1 : State, s.nextStep o = (s1, .fail) → s1.crew.key = k → s1.crew.marver = m →
        s.opRun k o.id (f + 1) = s1.withMarver { put m { o with state := .stopped, failed := false, keys := [] } with
          mst := BitVec.ofNat 32 (m.mst.toNat % 2 ^ 14 + 2 ^ 14 + o.eop % 16 * 2 ^ 15 + max o.step o.skip % 2 ^ 13 * 2 ^ 19) }))

/-- R62, R81, R258, R261, R262: what an operation reads. In a scratchpad the bytes at its offset, which must lie in it and not be
poisoned; in memory the bytes of a raw page, where any other format is an engine error and a page that is not there a wait. An
element of a stated format is its bytes unscaled; one of format 0 is decoded by its page, with the scale of its block. -/
def Parts.MarverReads : Prop :=
  ∀ (s : State) (c : Crew) (x : Context) (fmt es ea n : Nat) (off : Int),
    let g := ea / 2 ^ 32 % 4
    let base : Int := if 2 ^ 63 ≤ ea then ea % 2 ^ 32 else ea % 2 ^ 56
    let a := base + off
    let read := s.engBytes c x ea off n
    let cls (f : Nat) : Nat := if f < 2 then 2 else if f < 4 then 1 else 0
    let number (f raw : Nat) : Machine.Num := if f < 2 then fp32.unpack raw else if f = 2 then fp32.unpack (widen fp16 raw)
      else if f = 3 then fp32.unpack (widen bf16 raw) else (B8.ofBits f).decode raw
    (2 ^ 63 ≤ ea → a < 0 ∨ (c.sizeOf ⟨g, 0⟩ : Int) < a + n → read = (s, .error none)) ∧
    (2 ^ 63 ≤ ea → 0 ≤ a → a + n ≤ (c.sizeOf ⟨g, 0⟩ : Int) → read =
      (s, if c.scrPoison g a.toNat n then .error none else .ok ((List.range n).map fun i => c.scr g (a.toNat + i)))) ∧
    (ea < 2 ^ 63 → 0 < n → 0 ≤ a → a + n ≤ 2 ^ 56 → a.toNat % 65536 + n ≤ 65536 → ∀ (s1 : State) (pa : Nat) (at_ : Attr) (ca : Nat → Nat),
      s.translate x .read a.toNat = (s1, .ok pa at_) → formatOk at_.fmt at_.geom = true →
      (∀ i < n, canonical (pa + i) = some (ca i) ∧ s1.poisonedAt (ca i) = false) →
      read = (s1, if at_.fmt ≠ 0 ∨ at_.geom ≠ 0 then .error none else .ok ((List.range n).map fun i => s1.byteAt (ca i)))) ∧
    (ea < 2 ^ 63 → 0 < n → 0 ≤ a → a < 2 ^ 56 → ∀ (s1 : State) (y : Xl), s.translate x .read a.toNat = (s1, y) →
      y = .absent ∨ y = .migrating → ∃ q ks, read = (q, .error (some ks))) ∧
    (fmt ≠ 0 → n ≠ 0 → ∀ s1 bs, s.engBytes c x ea off (n * es) = (s1, .ok bs) → s.engElems c x fmt es ea off n =
      (s1, .ok ((List.range n).map fun i => (cls fmt, number fmt (leNat (slice bs (i * es) es)), 0)))) ∧
    (n ≠ 0 → s.engElems c x 0 es ea off n =
      engMap (fun t i => t.pageElem c x (base + off + (i * es : Nat))) (List.range n) s) ∧
    (∀ s1 pa ca at_, 0 ≤ a → s.engAt c.socket x .read srcMarver a = (s1, .ok pa ca at_) →
      let y := a.toNat % at_.size
      let raw := s1.numAt ca (2 ^ cls at_.fmt)
      let scale (b : Nat) : Option Nat := canonical (samePage at_.ilv pa y (31 * (at_.size / 32) + blockIndex at_.geom b))
      (a.toNat % 2 ^ cls at_.fmt ≠ 0 ∨ (at_.geom ≠ 0 ∧ 31 * (at_.size / 32) ≤ y) → s.pageElem c x a = (s1, .error none)) ∧
      (a.toNat % 2 ^ cls at_.fmt = 0 → at_.geom = 0 →
        s.pageElem c x a = (s1, .ok (cls at_.fmt, number at_.fmt raw, 0))) ∧
      (a.toNat % 2 ^ cls at_.fmt = 0 → at_.geom ≠ 0 → y < 31 * (at_.size / 32) → ∀ sa, scale y = some sa →
        (s1.poisonedAt sa = true → s.pageElem c x a = (s1, .error none)) ∧
        (s1.poisonedAt sa = false → ∀ neg man exp, number at_.fmt raw = .fin neg man exp →
          let sc := (s1.byteAt sa).toNat
          (0 < sc → sc < 255 → s.pageElem c x a = (s1, .ok (cls at_.fmt, .fin neg man (exp + sc - 128), 0))) ∧
          (sc = 0 → ∃ e, s.pageElem c x a = (s1, .ok (cls at_.fmt, .fin neg 0 e, 0))) ∧
          (sc = 255 → s.pageElem c x a = (s1, .ok (cls at_.fmt, .nan 0x7FC00000, 0))))))

/-- R76, R88, R92: a weight's internal form has LOADED = 1, its class, its sign, and nothing in its two low bits, and gives the
number back: an infinity, a NaN and a zero as they are, a finite number with its exact value. -/
def Parts.MarverWeights : Prop :=
  ∀ (z : Machine.Num) (w : BitVec 40), z.weight = w →
    w.getLsbD 2 = true ∧ w.toNat % 4 = 0 ∧
    (∀ r, z = .nan r → 0x7F800000 < r % 2 ^ 31 → r < 2 ^ 32 → weightNum w = z ∧ w.toNat / 8 % 4 = 3) ∧
    (∀ n, z = .inf n → weightNum w = z ∧ w.toNat / 8 % 4 = 2 ∧ w.getLsbD 39 = n) ∧
    (∀ n e, z = .fin n 0 e → weightNum w = .fin n 0 0 ∧ w.toNat / 8 % 4 = 0 ∧ w.getLsbD 39 = n) ∧
    (∀ n m e, z = .fin n m e → m ≠ 0 → m < 2 ^ 24 → -512 ≤ e + Nat.log2 m → e + Nat.log2 m < 512 →
      (∃ m1 e1, weightNum w = .fin n m1 e1) ∧ (weightNum w).value = z.value ∧ w.toNat / 8 % 4 = 1 ∧ w.getLsbD 39 = n)

/-- R88, R90, R262: MSTAT. Weight (k, n) of chain h goes to array row (first row of h) + k / E, column n, sub-position k mod E of
SHD; every other sub-position is unloaded, and the record of SHD is the block's with the tile's class. A tile that does not fit its
class, or a weight of another class, is an engine error. -/
def Parts.MarverTile : Prop :=
  ∀ (s s1 s2 : State) (o : MOp) (cls : Nat) (rows : List (List (Nat × Machine.Num × Flags))),
    let m := s.crew.marver
    let ea := fieldAt o.block 0 8
    let stride := signedOf 64 (fieldAt o.block 8 8)
    let count := fieldAt o.block 0x10 4
    let n := fieldAt o.block 0x14 4
    let pitch := signedOf 32 (fieldAt o.block 0x18 4)
    let fmt := fieldAt o.block 0x1C 1
    let mode := fieldAt o.block 0x1D 1
    let es := 2 ^ cls
    let e := 4 / es
    let span := 128 / 2 ^ mode
    let fits := count ≤ e * span ∧ ea % es = 0 ∧ (mode = 0 ∨ fieldAt o.block 8 8 % es = 0) ∧ fieldAt o.block 0x18 4 % es = 0
    s.Running o → o.eop = 2 → mode ≤ 2 → 0 < count → n ≤ 128 → cls ≤ 2 →
    s.engClass s.crew s.ctx fmt ea = (s1, .ok cls) →
    (¬ fits → s.nextStep o = (s1, .fail)) ∧
    (fits → engMap (fun t i => t.engElems s.crew s.ctx fmt es ea ((i / count : Nat) * stride + (i % count : Nat) * pitch) n)
        (List.range (2 ^ mode * count)) s1 = (s2, .ok rows) →
      ((∃ r ∈ rows, ∃ w ∈ r, w.1 ≠ cls) → s.nextStep o = (s2, .fail)) ∧
      ((∀ r ∈ rows, ∀ w ∈ r, w.1 = cls) → ∃ q : Marver, s.nextStep o = (s2, .done q 1) ∧
        q = { m with shd := q.shd, shdRec := ⟨count, n, mode, some cls⟩, mst := q.mst } ∧
        (∀ i < 32, q.mst.getLsbD i = true ↔
          m.mst.getLsbD i = true ∨ ∃ r ∈ rows, ∃ w ∈ r, w.2.2.getLsbD i = true) ∧
        ∀ a < 128, ∀ c < 128, ∀ p < 4, Sparse.get 0 q.shd (4 * (128 * a + c) + p) =
          let j := a % span * e + p
          if p < e ∧ c < n ∧ j < count then
            ((((rows[a / span * count + j]?).getD [])[c]?).map fun w => w.2.1.weight).getD (Machine.Num.fin false 0 0).weight
          else 0))

/-- R88 to R90, R92, R263: MSTRM and MRED. A step takes one activation row of every chain past STA and sets the ACC row of each
chain at that step, where the column of the chain has a loaded cell: the partial, or nothing with .start, goes through the cells
of its column by rising array row. Rows of another class than STA's are an engine error; so is, by the model's choice (log entry
77), a row past the span of STA's mode. -/
def Parts.MarverProducts : Prop :=
  ∀ (s s1 : State) (o : MOp) (xs : List (List (Nat × Machine.Num × Flags))),
    let m := s.crew.marver
    let r := m.staRec
    let cls := r.cls.getD 2
    let span := 128 / 2 ^ r.mode
    let fmt := fieldAt o.block 0x18 1
    let fmtClass := if fmt < 2 then 2 else if fmt < 4 then 1 else 0
    let column (h n : Nat) : List (List (Nat × Machine.Num)) := (List.range span).filterMap fun a =>
      let ws := (List.range 4).filterMap fun p =>
        let w := Sparse.get 0 m.sta (4 * (128 * (h * span + a) + n) + p)
        if w.getLsbD 2 then some (a * (4 / 2 ^ cls) + p, weightNum w) else none
      if ws = [] then none else some ws
    let new (h n : Nat) : Option (Word × Flags) :=
      chainSum o.zc ((((xs[h]?).getD []).map fun w => w.2.1).toArray)
        (if o.arg = 1 then none else some (m.accAt (h * span + o.step) n)) (column h n)
    s.Running o → (o.eop = 4 ∨ o.eop = 11) → r.mode ≤ 2 → cls ≤ 2 → Sparse.wf 0 m.sta = true → Sparse.wf 0 m.acc = true →
    (o.eop = 4 → span ≤ o.step → s.nextStep o = (s, .fail)) ∧
    (o.eop = 4 → o.step < span → fmt ≠ 0 → r.cls.isSome = true → cls ≠ fmtClass → s.nextStep o = (s, .fail)) ∧
    ((o.eop = 11 ∧ s1 = s ∧ xs = List.replicate (2 ^ r.mode) (List.replicate r.k (cls, .fin false 1 0, 0)) ∨
        o.eop = 4 ∧ o.step < span ∧ (fmt ≠ 0 → r.cls.isSome = true → cls = fmtClass) ∧
          engMap (fun t (h : Nat) => t.engElems s.crew s.ctx fmt (2 ^ cls) (fieldAt o.block 0 8)
            ((h : Int) * signedOf 64 (fieldAt o.block 8 8) + (o.step : Int) * signedOf 32 (fieldAt o.block 0x14 4)) r.k)
            (List.range (2 ^ r.mode)) s = (s1, .ok xs)) →
      ((∃ x ∈ xs, ∃ w ∈ x, r.cls ≠ some w.1) → s.nextStep o = (s1, .fail)) ∧
      ((∀ x ∈ xs, ∀ w ∈ x, r.cls = some w.1) → ∃ q : Marver, s.nextStep o = (s1, .done q (o.step + 1)) ∧
        q = { m with acc := q.acc, mst := q.mst } ∧
        (∀ i < 32, q.mst.getLsbD i = true ↔ m.mst.getLsbD i = true ∨ (∃ x ∈ xs, ∃ w ∈ x, w.2.2.getLsbD i = true) ∨
          ∃ h < 2 ^ r.mode, ∃ n < 128, ∃ v, new h n = some v ∧ v.2.getLsbD i = true) ∧
        ∀ row < 128, ∀ n < 128, q.accAt row n =
          if row % span = o.step then ((new (row / span) n).map (·.1)).getD (m.accAt row n) else m.accAt row n))

/-- R73 to R75, R89: the sum of a chain. An empty column gives nothing. A cell adds the exact sum of its products to the partial
and rounds once to nearest; an exact zero is +0 unless every term is a negative zero; an infinity times zero, or two infinities
of opposite sign, give the canonical NaN with NV. A partial that is a NaN stays; else the NaN at the lowest K index decides, and
of two at one index the activation's (log entry 78), quieted. -/
def Parts.MarverChains : Prop :=
  ∀ (zc : Bool) (x : Array Machine.Num) (p : Option Word) (col : List (List (Nat × Machine.Num)))
    (fl : Flags) (ws : List (Nat × Machine.Num)),
    let act (w : Nat × Machine.Num) : Machine.Num := (x[w.1]?).getD (.fin false 0 0)
    let nan (z : Machine.Num) : Option Nat := match z with
      | .nan r => some r
      | _ => none
    let negZero (t : Option Machine.Num) : Bool := match t with
      | some (.fin true 0 _) => true
      | _ => false
    let first := col.flatten.findSome? fun w => (nan (act w)).or (nan w.2)
    let partNan : Bool := (p.map fun w => decide (0x7F800000 < w.toNat % 2 ^ 31)).getD false
    let quiet (w : Nat) : Word := BitVec.ofNat 32 w ||| 0x400000
    let sum := chainSum zc x p col
    (col = [] → sum = none) ∧
    (col ≠ [] → partNan = true → ∃ f, sum = some (quiet ((p.getD 0).toNat), f)) ∧
    (col ≠ [] → partNan = false → ∀ r, first = some r → ∃ f, sum = some (quiet r, f)) ∧
    (col ≠ [] → partNan = false → first = none →
      let r := col.foldl (chainCell zc x) (p, 0)
      sum = some (r.1.getD 0, r.2)) ∧
    (partNan = false → (∀ w ∈ ws, nan (act w) = none ∧ nan w.2 = none) → ws ≠ [] →
      let cell := chainCell zc x (p, fl) ws
      let terms := (p.map fun w => some (fp32.unpack w.toNat)).toList ++ ws.map fun w => mulNum (act w) w.2
      let value (t : Option Machine.Num) : ℚ := (t.map Machine.Num.value).getD 0
      let v := (terms.map value).sum
      (none ∈ terms ∨ (some (.inf true) ∈ terms ∧ some (.inf false) ∈ terms) →
        cell = (some 0x7FC00000, fl ||| flagNV)) ∧
      (none ∉ terms → ∀ n, some (.inf n) ∈ terms → some (.inf !n) ∉ terms →
        cell = (some (if n then 0xFF800000 else 0x7F800000), fl)) ∧
      (none ∉ terms → (∀ n, some (.inf n) ∉ terms) →
        (v ≠ 0 → ∃ w f, cell = (some w, fl ||| f) ∧ fp32.RoundsTo .rne false v (w.toNat, f)) ∧
        (v = 0 → cell = (some (if terms.all negZero then 0x80000000 else 0), fl))))

/-- R92, R264: MPRM and the cells that it and MTRN copy. Row m of ACC becomes row idx[m] of the sub-position, or +0 with MST.OOR
for an index of 128 or more. A cell is its weight as FP32: exact where FP32 has the value, +0 where it is unloaded. -/
def Parts.MarverCopies : Prop :=
  ∀ (s s1 : State) (o : MOp) (bs : List Byte) (a n sub : Nat),
    let m := s.crew.marver
    let i := leNat bs
    let w := Sparse.get 0 m.sta (4 * (128 * a + n) + sub)
    (s.Running o → o.eop = 10 → Sparse.wf 0 m.acc = true →
      s.engBytes s.crew s.ctx (fieldAt o.block 0 8) (4 * o.step : Nat) 4 = (s1, .ok bs) → ∃ q : Marver,
        s.nextStep o = (s1, .done q (o.step + 1)) ∧ q = { m with acc := q.acc, mst := q.mst } ∧
        (q.mst.getLsbD 13 = (m.mst.getLsbD 13 || decide (128 ≤ i))) ∧ q.mst.toNat / 2 ^ 14 = m.mst.toNat / 2 ^ 14 ∧
        ∀ row < 128, ∀ c < 128, q.accAt row c =
          if row = o.step then (if i < 128 then (m.cell i c (fieldAt o.block 0xC 1)).1 else 0) else m.accAt row c) ∧
    (w.getLsbD 2 = false → m.cell a n sub = (0, 0)) ∧
    (∀ v < 2 ^ 32, w = (fp32.unpack v).weight → m.cell a n sub =
      (BitVec.ofNat 32 (if 0x7F800000 < v % 2 ^ 31 then v ||| 2 ^ 22 else v), 0)) ∧
    (w.getLsbD 2 = true → ∀ neg man e, weightNum w = .fin neg man e → man ≠ 0 →
      fp32.RoundsTo .rne false (weightNum w).value ((m.cell a n sub).1.toNat, (m.cell a n sub).2))

/-- R265: MDRAIN. ACC[ROW0 + i][COL0 + j] goes to DADDR + i * DPITCH + j * esize, as it is or narrowed to nearest; with CLR the
drained elements become +0. Every destination is translated before any byte is written, and no other byte changes. -/
def Parts.MarverDrain : Prop :=
  ∀ (s s1 : State) (o : MOp) (ps : List EngPlace),
    let m := s.crew.marver
    let row0 := fieldAt o.block 0xE 2
    let rows := fieldAt o.block 0x10 2
    let col0 := fieldAt o.block 0x12 2
    let cols := fieldAt o.block 0x14 2
    let fmt := fieldAt o.block 0xC 1
    let es := if fmt = 1 then 4 else 2
    let sat : Bool := (fieldAt o.block 0xD 1).testBit 0
    let clr : Bool := (fieldAt o.block 0xD 1).testBit 1
    let half : FFmt := if fmt = 2 then fp16 else bf16
    let elem (i j : Nat) : List Byte × Flags :=
      let w := m.accAt (row0 + i) (col0 + j)
      if fmt = 1 then (leBytes 4 w.toNat, 0)
      else (leBytes 2 (narrow half .rne sat w.toNat).1, (narrow half .rne sat w.toNat).2)
    let bytesOf (p : EngPlace) : List (Option Nat × Nat) := match p with
      | .scr g off => (List.range (cols * es)).map fun k => (some g, off + k)
      | .mem l => l.map fun b => (none, b.1)
    let at_ (t : State) (b : Option Nat × Nat) : Byte := match b.1 with
      | some g => t.crew.scr g b.2
      | none => t.byteAt b.2
    s.Running o → o.eop = 7 → s.MemoryForm → row0 + rows ≤ 128 → col0 + cols ≤ 128 →
    engMap (fun t (i : Nat) => t.engPlace s.crew s.ctx .write true (fieldAt o.block 0 8)
      ((i : Int) * signedOf 32 (fieldAt o.block 8 4)) (cols * es)) (List.range rows) s = (s1, .ok ps) →
    (ps.flatMap bytesOf).Nodup → (∀ b ∈ ps.flatMap bytesOf, ∀ g, b.1 = some g → g < s.crew.gangs.length) →
    ∃ (q : Marver) (t : State), s.nextStep o = (t, .done q 1) ∧ q = { m with acc := q.acc, mst := q.mst } ∧
      (∀ i < 32, q.mst.getLsbD i = true ↔
        m.mst.getLsbD i = true ∨ ∃ r < rows, ∃ c < cols, (elem r c).2.getLsbD i = true) ∧
      (∀ r < 128, ∀ c < 128, q.accAt r c = if clr ∧ row0 ≤ r ∧ r < row0 + rows ∧ col0 ≤ c ∧ c < col0 + cols then 0
        else m.accAt r c) ∧
      (ps.flatMap bytesOf).map (at_ t) =
        (List.range rows).flatMap (fun i => (List.range cols).flatMap fun j => (elem i j).1) ∧
      ∀ b, b ∉ ps.flatMap bytesOf → (∀ g, b.1 = some g → g < s.crew.gangs.length) → at_ t b = at_ s1 b

/-- R93, R94, R98, R100, R266: a step of MWAVE or MBACK, up to 32 columns of every plane: from the left forward, from the right
backward. It reads its operands, an absent one as zeros, and writes what the segment gives, a bit where its mask has one; before
the step at which the operation was resumed it keeps the edges alone (log entry 43). -/
def Parts.MarverSegments : Prop :=
  ∀ (s s1 : State) (o : MOp) (img : List Byte) (ins : List (List (List Word))),
    let m := s.crew.marver
    let planes := fieldAt o.block 0 4
    let rows := fieldAt o.block 4 4
    let cols := fieldAt o.block 8 4
    let n := min 32 (cols - o.step)
    let j0 := if o.eop = 6 then cols - o.step - n else o.step
    let addr (k : Nat) : Nat := fieldAt o.block (0x10 + 16 * k) 8
    let stride (k : Nat) : Int := signedOf 64 (fieldAt o.block (0x18 + 16 * k) 8)
    let reqs : List (Nat × Nat × Nat) :=
      if o.eop = 6 then
        [(0, 0, rows), (1, j0, n), (2, j0, n + 1), (3, 0, rows), (8, 0, rows), (9, 0, rows), (10, j0 + 1, n), (11, j0 + 1, n),
          (12, 0, 1)] ++ (List.range rows).map fun i => if j0 = 0 then (6, i * cols, n) else (6, i * cols + j0 - 1, n + 1)
      else [(0, 0, rows), (2, j0, n + 1), (3, 0, rows)] ++
        (if ruleBm img then (List.range rows).map fun i => (1, i * cols + j0, n) else [(1, j0, n)])
    let outs := (List.range planes).zipWith (fun p l =>
      if o.eop = 6 then backPlane m o img p j0 n l else fwdPlane m o img p j0 n l) ins
    let edges (p i w : Nat) : Word := (((outs[p]?).bind fun v => v.edge[i]?).map fun e => if w = 0 then e.1 else e.2).getD 0
    s.Running o → (o.eop = 5 ∨ o.eop = 6) → m.slot (fieldAt o.block 0xC 1) = some img →
    (ruleBwd img ≠ (o.eop == 6) → s.nextStep o = (s, .fail)) ∧
    (ruleBwd img = (o.eop == 6) → 0 < rows → rows ≤ 128 →
      engMap (fun t p => engMap (fun u r => u.waveRead s.crew s.ctx o p r) reqs t) (List.range planes) s = (s1, .ok ins) →
      (o.step < o.skip → ∃ q : Marver, s.nextStep o = (s1, .done q (o.step + n)) ∧ q = { m with edges := q.edges } ∧
        ∀ p < planes, ∀ i < rows, ∀ w < 2, q.edge p i w = edges p i w) ∧
      (o.skip ≤ o.step → ∀ t, s1.wavePuts s.crew s.ctx o (outs.flatMap fun w => w.puts) = (t, .ok ()) → ∃ q : Marver,
        s.nextStep o = (t, .done q (o.step + n)) ∧ q = { m with edges := q.edges, mst := q.mst } ∧
        (∀ p < planes, ∀ i < rows, ∀ w < 2, q.edge p i w = edges p i w) ∧
        ∀ i < 32, q.mst.getLsbD i = true ↔ m.mst.getLsbD i = true ∨ ∃ w ∈ outs, w.fl.getLsbD i = true)) ∧
    (∀ (u : State) (p : Nat) (r : Nat × Nat × Nat), (addr r.1 = 0 → u.waveRead s.crew s.ctx o p r = (u, .ok (List.replicate r.2.2 0))) ∧
      ∀ u1 bs, addr r.1 ≠ 0 →
        u.engBytes s.crew s.ctx (addr r.1) (p * stride r.1 + (4 * r.2.1 : Nat)) (4 * r.2.2) = (u1, .ok bs) →
        u.waveRead s.crew s.ctx o p r =
          (u1, .ok ((List.range r.2.2).map fun i => BitVec.ofNat 32 (leNat (slice bs (4 * i) 4))))) ∧
    (∀ (u t : State) (w : WavePut) (g off : Nat), addr w.k ≠ 0 → u.crew.key = s.crew.key → u.MemoryForm →
      g < u.crew.gangs.length →
      u.engPlace s.crew s.ctx .write true (addr w.k) (w.p * stride w.k + (w.off : Nat)) w.data.length = (t, .ok (.scr g off)) →
      t = u → ∃ q : State, u.wavePuts s.crew s.ctx o [w] = (q, .ok ()) ∧ q.mem = u.mem ∧ q.dirty = u.dirty ∧
        ∀ h < u.crew.gangs.length, ∀ b, q.crew.scr h b =
          if h = g ∧ off ≤ b ∧ b < off + w.data.length then
            let d := (w.data[b - off]?).getD (0, 0)
            (u.crew.scr h b &&& ~~~d.1) ||| (d.2 &&& d.1)
          else u.crew.scr h b)

/-- R93, R266: the cells of a forward segment. V over the columns of the segment, from column j0 on, begins with TOP and with
LEFT or the saved edge; each cell is the rule of its left, upper and diagonal values and its elements. BOTTOM, RIGHT, PLANE and
TRACE get V and TB where R93 puts them, TRACE 0b11 where the rule gives no traceback. -/
def Parts.MarverForward : Prop :=
  ∀ (m : Marver) (o : MOp) (img : List Byte) (p j0 n : Nat) (arow top left : List Word) (cols : List (List Word)),
    let rows := fieldAt o.block 4 4
    let wide := fieldAt o.block 8 4
    let w := fwdPlane m o img p j0 n ([arow, top, left] ++ cols)
    let elem (i j : Nat) : Word := (((if ruleBm img then cols[i]? else cols[0]?).getD [])[j]?).getD 0
    0 < rows → 0 < n → j0 + n ≤ wide → arow.length = rows → top.length = n + 1 → left.length = rows →
    cols.length = (if ruleBm img then rows else 1) → (∀ c ∈ cols, c.length = n) → ∃ V : Nat → Nat → Word,
      let cell (i j : Nat) : CellRun := runRule img o.zc ⟨V (i + 1) j, V i (j + 1), V i j, (arow[i]?).getD 0, elem i j, 0⟩
      let code (i j : Nat) : Nat := if ruleTbe img then (cell i j).tb else 3
      (∀ j ≤ n, V 0 j = (top[j]?).getD 0) ∧
      (∀ i < rows, V (i + 1) 0 = if j0 = 0 then (left[i]?).getD 0 else m.edge p i 0) ∧
      (∀ i < rows, ∀ j < n, V (i + 1) (j + 1) = (cell i j).v) ∧
      (∀ u ∈ w.puts, u.p = p ∧ u.k ∈ [4, 5, 6, 7]) ∧
      (j0 = 0 → w.word 4 0 = some (V rows 0)) ∧ (∀ j < n, w.word 4 (j0 + j + 1) = some (V rows (j + 1))) ∧
      (j0 + n = wide → ∀ i < rows, w.word 5 i = some (V (i + 1) n)) ∧
      (∀ i < rows, ∀ j < n, w.word 6 (i * wide + j0 + j) = some (V (i + 1) (j + 1)) ∧
        w.code (i * wide + j0 + j) = some (code i j % 4)) ∧
      w.edge = (List.range rows).map (fun i => (V (i + 1) n, (0 : Word))) ∧
      ∀ b, w.fl.getLsbD b = true ↔ ∃ i < rows, ∃ j < n, (cell i j).fl.getLsbD b = true

/-- R96, R266: the cells of a backward segment. Each cell adds what comes from the right, from below and from the diagonal, in that
order, where nothing passes the other through and an empty sum is the zero of the rule; it multiplies the sum by the three weights
that its rule gives. What enters at the segment's right end is the incoming operand or the saved gradient edge. -/
def Parts.MarverBackward : Prop :=
  ∀ (m : Marver) (o : MOp) (img : List Byte) (p j0 n : Nat) (arow bcol top left grl grd gbu gbd gc : List Word)
    (plane : List (List Word)),
    let rows := fieldAt o.block 4 4
    let wide := fieldAt o.block 8 4
    let w := backPlane m o img p j0 n ([arow, bcol, top, left, grl, grd, gbu, gbd, gc] ++ plane)
    let given (k : Nat) (l : List Word) (i : Nat) : Option Word := if fieldAt o.block (0x10 + 16 * k) 8 = 0 then none else l[i]?
    let V (i j : Nat) : Word :=
      if i = 0 then (top[j]?).getD 0
      else if j0 = 0 then (if j = 0 then (left[i - 1]?).getD 0 else (((plane[i - 1]?).getD [])[j - 1]?).getD 0)
      else (((plane[i - 1]?).getD [])[j]?).getD 0
    let quiet (a : Word) : Word := if 0x7F800000 < a.toNat % 2 ^ 31 then a ||| 0x400000 else a
    let plus (x y : Option Word) : Option Word := match x, y with
      | none, b => b.map quiet
      | a, none => a.map quiet
      | some a, some b => some (BitVec.ofNat 32 (fp32.add .rne false o.zc a.toNat b.toNat).1)
    let weight (i q k : Nat) : Nat := ((runRule img o.zc
      ⟨V (i + 1) q, V i (q + 1), V i q, (arow[i]?).getD 0, (bcol[q]?).getD 0, V (i + 1) (q + 1)⟩).t.getD k 0).toNat
    0 < rows → 0 < n → j0 + n + o.step = wide → arow.length = rows → bcol.length = n → top.length = n + 1 → left.length = rows →
    grl.length = rows → grd.length = rows → gbu.length = n → gbd.length = n → gc.length = 1 → plane.length = rows →
    (∀ r ∈ plane, r.length = if j0 = 0 then n else n + 1) → ∃ E L U D : Nat → Nat → Word,
      (∀ i < rows, ∀ q < n,
        let right := if q + 1 < n then some (L i (q + 1)) else if o.step = 0 then given 8 grl i else some (m.edge p i 0)
        let below := if i + 1 < rows then some (U (i + 1) q) else given 10 gbu q
        let diag := if i + 1 < rows then
            (if q + 1 < n then some (D (i + 1) (q + 1)) else if o.step = 0 then given 9 grd i else some (m.edge p i 1))
          else if j0 + q + 1 < wide then given 11 gbd q else given 12 gc 0
        E i q = (plus (plus right below) diag).getD (if o.zc then 0 else 0x80000000) ∧
        L i q = BitVec.ofNat 32 (fp32.mul .rne false (E i q).toNat (weight i q 1)).1 ∧
        U i q = BitVec.ofNat 32 (fp32.mul .rne false (E i q).toNat (weight i q 2)).1 ∧
        D i q = BitVec.ofNat 32 (fp32.mul .rne false (E i q).toNat (weight i q 3)).1) ∧
      (∀ u ∈ w.puts, u.p = p ∧ u.k ∈ [13, 14, 15, 16, 17]) ∧
      (∀ i < rows, ∀ q < n, w.word 13 (i * wide + j0 + q) = some (E i q)) ∧
      (∀ q < n, w.word 16 (j0 + q + 1) = some (U 0 q) ∧ w.word 17 (j0 + q) = some (D 0 q)) ∧
      (j0 + n = wide → w.word 17 wide = some 0) ∧
      (j0 = 0 → w.word 16 0 = some 0 ∧ ∀ i < rows, w.word 14 i = some (L i 0) ∧
        w.word 15 i = some (if i + 1 < rows then D (i + 1) 0 else 0)) ∧
      w.edge = (List.range rows).map (fun i => (L i 0, if i + 1 < rows then D (i + 1) 0 else (0 : Word)))

/-- R73 to R100, R262 to R267: what the Marver's operations do. -/
def Obligations.MarverWork : Prop :=
  Parts.MarverOperations ∧ Parts.MarverRule ∧ Parts.MarverRuns ∧ Parts.MarverReads ∧ Parts.MarverWeights ∧ Parts.MarverTile ∧
  Parts.MarverProducts ∧ Parts.MarverChains ∧ Parts.MarverCopies ∧ Parts.MarverDrain ∧ Parts.MarverSegments ∧
  Parts.MarverForward ∧ Parts.MarverBackward

/-! ### System instructions -/

/-- R305, R311, R312, R324: RDSR reads the system register that its operand names. A number that the map does not assign is
ILLEGAL_OPERAND, a level that may not read it ILLEGAL_INSN. -/
def Parts.SystemReads : Prop :=
  ∀ (s : State) (d a : BitVec 5),
    let i : Instr := .rdsr d a
    let n := (s.sreg a).toNat
    let reads (m : Nat) (level priv : Nat) (v : DWord) : Prop := n = m →
      (s.ctx.pl < priv ∨ s.self.seenTl < level → exec i s =
        .next (s.raise ⟨.illegalInsn, (encode i).setWidth 64, s.self.cur.lanes, false, false⟩)) ∧
      (priv ≤ s.ctx.pl → level ≤ s.self.seenTl → exec i s = .next (s.putD d v).advance)
    s.FxReady i (fsNeeds 0 anyTl) →
    (4096 ≤ n ∨ n = 1 ∨ n = 0x16 ∨ n = 0x2F ∨ n = 0x48 ∨ n = 0x99 → exec i s = .next (s.raise
      ⟨.illegalOperand, BitVec.ofNat 64 ((encode i).toNat + 2 ^ 32), s.self.cur.lanes, false, false⟩)) ∧
    reads 0 0 0 (BitVec.ofNat 64 (s.self.seenTl + 4 * s.ctx.pl)) ∧
    reads 0x10 1 0 s.self.t1.epc ∧ reads 0x11 1 0 (s.self.t1.cause.setWidth 64) ∧ reads 0x12 1 0 s.self.t1.val ∧
    reads 0x13 1 0 (if s.self.unit.gaffer then 1 else s.self.t1.mask.setWidth 64) ∧
    reads 0x14 1 0 (if s.self.unit.gaffer then 0x100000000 else s.self.t1.split) ∧ reads 0x15 1 0 s.self.t1.scr ∧
    reads 0x20 2 0 s.self.t2.epc ∧ reads 0x21 2 0 (s.self.t2.cause.setWidth 64) ∧ reads 0x22 2 0 s.self.t2.val ∧
    reads 0x25 2 0 s.self.t2.scr ∧
    reads 0x40 0 0 (s.ctx.id.word.setWidth 64) ∧ reads 0x42 0 0 s.ctx.tvec1 ∧ reads 0x43 0 0 s.ctx.tvec2 ∧
    reads 0x44 0 0 (s.ctx.feat.setWidth 64) ∧ reads 0x45 0 0 ((s.ctx.feat >>> 64).setWidth 64) ∧
    reads 0x46 0 1 (BitVec.ofNat 64 s.ctx.ptroot) ∧ reads 0x47 0 1 (BitVec.ofNat 64 s.ctx.savebase) ∧
    reads 0x80 0 0 (s.boot.featoff.setWidth 64) ∧ reads 0x90 0 2 (BitVec.ofNat 64 s.ctbase) ∧
    ∀ k : Fin 8, reads (0x91 + k) 0 1 (s.partmap[k].setWidth 64)

/-- R305, R308, R309, R311, R315, R316, R324: WRSR writes the register that A names, checked. A TEPC takes a canonical aligned
address, ends the PFX count and gives TMASK the lanes of TSPLIT; a TVEC goes to the descriptor in memory and to every resident
crew of the context too; a PARTMAP is refused where two valid partitions would share a die; a register that nothing writes keeps
its value. That bits above 31 of a value for a 32-bit register are refused is the model's reading (log entry 11). -/
def Parts.SystemWrites : Prop :=
  ∀ (s : State) (a b : BitVec 5),
    let i : Instr := .wrsr a b
    let n := (s.sreg a).toNat
    let v := s.sreg b
    let bad := 2 ^ 56 ≤ v.toNat ∨ v.toNat % 4 ≠ 0
    let refused : Prop := exec i s = .next (s.raise
      ⟨.illegalOperand, BitVec.ofNat 64 ((encode i).toNat + 2 * 2 ^ 32), s.self.cur.lanes, false, false⟩)
    let tvec (lv : Nat) : State :=
      let put (h : Held) : Held := if lv = 1 then { h with tvec1 := v } else { h with tvec2 := v }
      let crew (c : Crew) : Crew := if c.key.ctx = s.ctx.id then { c with held := put c.held } else c
      ({ s with
        ctx := if lv = 1 then { s.ctx with tvec1 := v } else { s.ctx with tvec2 := v }
        crew := crew s.crew
        crews := s.crews.map crew } : State).putPhys (s.ctbase + 64 * s.ctx.id.tag + (if lv = 1 then 0x10 else 0x18))
        (leBytes 8 v.toNat)
    let moved (r : TrapRegs) : TrapRegs :=
      { r with epc := v, cause := r.cause &&& 0xFFFFF8FF#32, mask := BitVec.ofNat 32 (r.split.toNat / 2 ^ 32) }
    s.FxReady i (fsNeeds 0 anyTl) →
    (1 ≤ s.self.seenTl →
      (n = 0x10 → (bad → refused) ∧
        (¬ bad → exec i s = .next (s.mapSelf fun u => { u with t1 := moved u.t1 }).advance)) ∧
      (n = 0x15 → exec i s = .next (s.mapSelf fun u => { u with t1 := { u.t1 with scr := v } }).advance) ∧
      (n = 0x13 → (2 ^ 32 ≤ v.toNat → refused) ∧ (v.toNat < 2 ^ 32 → s.self.unit.gaffer = false →
        exec i s = .next (s.mapSelf fun u => { u with t1 := { u.t1 with mask := v.setWidth 32 } }).advance)) ∧
      (n = 0x12 ∨ n = 0x14 → exec i s = .next s.advance)) ∧
    (2 ≤ s.self.seenTl →
      (n = 0x20 → ¬ bad → exec i s = .next (s.mapSelf fun u => { u with t2 := moved u.t2 }).advance) ∧
      (n = 0x25 → exec i s = .next (s.mapSelf fun u => { u with t2 := { u.t2 with scr := v } }).advance)) ∧
    (n = 0x42 → (s.ctx.pl = 0 → exec i s =
        .next (s.raise ⟨.illegalInsn, (encode i).setWidth 64, s.self.cur.lanes, false, false⟩)) ∧
      (1 ≤ s.ctx.pl → bad → refused) ∧
      (1 ≤ s.ctx.pl → ¬ bad → exec i s = .next (tvec 1).advance)) ∧
    (n = 0x43 → 1 ≤ s.ctx.pl → ¬ bad → exec i s = .next (tvec 2).advance) ∧
    (n = 0x90 → 2 ≤ s.ctx.pl → exec i s = .next ({ s with ctbase := v.toNat } : State).advance) ∧
    (n = 0x40 ∨ n = 0x44 ∨ n = 0x80 → v.toNat < 2 ^ 32 → exec i s = .next s.advance) ∧
    ∀ k : Fin 8, n = 0x91 + k → 2 ≤ s.ctx.pl → v.toNat < 2 ^ 32 →
      let x : BitVec 32 := BitVec.ofNat 32 (v.toNat % 512)
      let clash := x.getLsbD 8 = true ∧ (x &&& 0xFF#32 = 0 ∨
        ∃ j : Fin 8, j ≠ k ∧ s.partmap[j].getLsbD 8 = true ∧ s.partmap[j] &&& x &&& 0xFF#32 ≠ 0)
      (clash → refused) ∧ (¬ clash → ∃ q : State, exec i s = .next q.advance ∧ q = { s with partmap := q.partmap } ∧
        q.partmap[k] = x ∧ ∀ j : Fin 8, j ≠ k → q.partmap[j] = s.partmap[j])

/-- R116, R320, R325, R326: TLBI takes a target's translations out of the TLB, of a page or of the whole context but for global
ones; XRINV clears LIMIT in the context's translation registers whose range overlaps, and counts; a stale target gives status 1 and
changes nothing. Each waits while a run of the context holds stores, and TLBI for the stores of its own unit (R322). -/
def Parts.Invalidation : Prop :=
  ∀ (s : State) (d a b : BitVec 5) (c : Context),
    let ready (i : Instr) : Prop := s.FxReady i (fsNeeds 1 anyTl)
    let names (v : DWord) : Prop := v.toNat < 2 ^ 20 ∧ s.ctxAt (CtxId.ofNat v.toNat) = some c ∧ c.id = CtxId.ofNat v.toNat ∧
      (2 ≤ s.ctx.pl ∨ c.part = s.ctx.part)
    let stale (v : DWord) : Prop := v.toNat < 2 ^ 20 ∧ s.ctxAt (CtxId.ofNat v.toNat) = none
    let va := (s.sreg a).toNat
    let n := (s.sreg b).toNat
    let pub := s.publish 6
    let held (i : Instr) : HeldInsn := ⟨s.self.cur.pc, s.self.cur.pfx, encode i⟩
    let waits (i : Instr) : Prop :=
      (s.self.replay ≠ [] → exec i s = .next (s.mapSelf fun u => u.hold (.sys (held i)))) ∧
      (s.self.replay = [] → s.runsOpen c.id = true → exec i s = .next (pub.mapSelf fun u => u.hold (.sys (held i))))
    let idle : Prop := s.self.replay = [] ∧ s.runsOpen c.id = false
    let trap (i : Instr) (f : Nat) : Prop := exec i s = .next (s.raise
      ⟨.illegalOperand, BitVec.ofNat 64 ((encode i).toNat + f * 2 ^ 32), s.self.cur.lanes, false, false⟩)
    (ready (.tlbiPage d a b) →
      (stale (s.sreg b) → exec (.tlbiPage d a b) s = .next (s.putD d 1).advance) ∧
      (names (s.sreg b) → 2 ^ 56 ≤ va → trap (.tlbiPage d a b) 1) ∧
      (names (s.sreg b) → va < 2 ^ 56 → waits (.tlbiPage d a b)) ∧
      (names (s.sreg b) → va < 2 ^ 56 → idle → ∃ q : State,
        exec (.tlbiPage d a b) s = .next (q.putD d 0).advance ∧ q = { pub with tlb := q.tlb } ∧
        ∀ t, t ∈ q.tlb ↔ t ∈ s.tlb ∧ ¬ (t.ctx = c.id ∧ t.va = va - va % t.size))) ∧
    (ready (.tlbiCtx d b) →
      (stale (s.sreg b) → exec (.tlbiCtx d b) s = .next (s.putD d 1).advance) ∧
      (names (s.sreg b) → waits (.tlbiCtx d b)) ∧
      (names (s.sreg b) → idle → ∃ q : State,
        exec (.tlbiCtx d b) s = .next (q.putD d 0).advance ∧ q = { pub with tlb := q.tlb } ∧
        ∀ t, t ∈ q.tlb ↔ t ∈ s.tlb ∧ ¬ (t.ctx = c.id ∧ t.leaf.getLsbD 5 = false))) ∧
    (ready (.xrinv d a b) → names (s.sreg d) →
      (2 ^ 56 ≤ va → trap (.xrinv d a b) 1) ∧
      (va < 2 ^ 56 → n = 0 ∨ 2 ^ 56 < va + n → trap (.xrinv d a b) 2) ∧
      (va < 2 ^ 56 → 1 ≤ n → va + n ≤ 2 ^ 56 → s.runsOpen c.id = true →
        exec (.xrinv d a b) s = .next (s.mapSelf fun u => u.hold (.sys (held (.xrinv d a b))))) ∧
      (va < 2 ^ 56 → 1 ≤ n → va + n ≤ 2 ^ 56 → s.runsOpen c.id = false → s.crew.key.ctx = c.id → s.ctx.id = c.id →
        c.id ≠ CtxId.none → s.self.run = none → ∃ q : State, exec (.xrinv d a b) s = .next q ∧
        q.ctx = { s.ctx with xr := (s.ctx.xr + 1) % 2 ^ 32 } ∧ q.mem = s.mem ∧ q.dirty = s.dirty ∧ q.tlb = s.tlb ∧
        q.self.regs = { s.self.regs with a := s.self.regs.a.map fun t =>
          if t.valid = true ∧ t.base < va + n ∧ va < t.base + t.limit then { t with limit := 0 } else t } ∧
        q.self.cur.pc = s.self.cur.pc + 4))

/-- R112, R331, R380: CFENCE on a populated, aligned range: .wb and .inv write its dirty bytes to DRAM and change no byte that a
load sees; .drop discards them, so that a load sees what DRAM holds, and clears the poison of its sectors. -/
def Parts.CacheFences : Prop :=
  ∀ (s : State) (i : Instr) (a b : BitVec 5) (drop : Bool),
    let x := (s.sreg a).toNat
    let n := (s.sreg b).toNat
    (i = .cfenceWb a b ∧ drop = false ∨ i = .cfenceInv a b ∧ drop = false ∨ i = .cfenceDrop a b ∧ drop = true) →
    s.FxReady i (fsNeeds (if drop then 2 else 1) anyTl) → 256 ≤ n → n ≤ 2 ^ 40 →
    (x % 256 = 0 → n % 256 = 0 → ∀ h, firstHole x n = some h →
      exec i s = .next (s.raise ⟨.physErr, BitVec.ofNat 64 h, s.self.cur.lanes, false, false⟩)) ∧
    (x % 256 = 0 → n % 256 = 0 → firstHole x n = none → s.self.replay ≠ [] →
      exec i s = .next (s.mapSelf fun u => u.hold (.sys ⟨s.self.cur.pc, s.self.cur.pfx, encode i⟩))) ∧
    (x % 256 = 0 → n % 256 = 0 → firstHole x n = none → s.self.replay = [] → s.MemoryForm →
      ∃ q : State, exec i s = .next q.advance ∧
        q = { s with mem := q.mem, dirty := q.dirty, pois := q.pois, unpushed := q.unpushed } ∧
        (∀ u ∈ q.unpushed, u ∈ s.unpushed ∧ inRange x n u.ca = false) ∧
        (drop = false → (∀ ca, q.byteAt ca = s.byteAt ca) ∧ q.pois = s.pois ∧
          ∀ ca, inRange x n ca = true → q.dirty.read ca = none ∧ q.mem.read ca = s.byteAt ca) ∧
        (drop = true → q.mem = s.mem ∧
          (∀ ca, q.byteAt ca = if inRange x n ca then s.mem.read ca else s.byteAt ca) ∧
          ∀ k, k ∈ q.pois ↔ k ∈ s.pois ∧ inRange x n (256 * k) = false))

/-- R325, R326, R331: TLBI, XRINV and CFENCE. -/
def Obligations.CachesAndTranslations : Prop := Parts.Invalidation ∧ Parts.CacheFences

/-- R330: ENGRST on the one logical cluster where the issuer's crew is resident: the engines of its mask lose the context's
work, the others keep it. Bit 0 stops the Gaffer threads, bit 1 returns the Marver to its state at creation, bit 2 ends every
copy with STATUS 4 and its barrier poisoned, and the issuer of one in form .y goes on at the continuation; bit 3 ends the
FETCHW, bit 4 drops the REDP, OSEND and RENQ work that is not yet injected. Without a crew there the status is 2; a mask of 0 or
above 31 is ILLEGAL_OPERAND. -/
def Parts.EngineReset : Prop :=
  ∀ (s : State) (d a b : BitVec 5) (mask : Nat),
    let i : Instr := .engrst d a b
    let k := s.crew.key
    let l := (s.sreg a).toNat / 2 ^ 20 % 65536
    let apart (x y : ScrRef) (i m j n : Nat) : Prop :=
      x.gang ≠ y.gang ∨ x.off + i + m ≤ y.off + j ∨ y.off + j + n ≤ x.off + i
    s.FxReady i (fsNeeds 2 anyTl) → 2 ≤ s.ctx.pl → (s.sreg a).toNat = 2 ^ 36 + l * 2 ^ 20 → l < s.ctx.nlc → l ≠ 0xFFFF →
    s.crews = [] → k ≠ CrewKey.none → k.ctx = s.ctx.id → (s.sreg b).toNat = mask →
    (mask = 0 ∨ 32 ≤ mask → exec i s = .next (s.raise
      ⟨.illegalOperand, BitVec.ofNat 64 ((encode i).toNat + 2 * 2 ^ 32), s.self.cur.lanes, false, false⟩)) ∧
    (0 < mask → mask < 32 → s.crew.lcl ≠ l → exec i s = .next (s.putD d 2).advance) ∧
    (0 < mask → mask < 32 → s.crew.lcl = l → s.self.unit.gaffer = false → s.self.cur.wait = .none → mask.testBit 2 = true →
      s.MemoryForm → (s.crew.copies.Pairwise fun x y => x.id ≠ y.id ∧ apart x.place y.place 0x38 4 0x38 4) →
      (∀ x ∈ s.crew.copies, x.place.gang < s.crew.gangs.length ∧
        ∀ y ∈ s.crew.copies, ∀ r, y.bar = some r → apart x.place r 0x30 12 0 17) → ∃ q : State,
      exec i s = .next (q.putD d 0).advance ∧ q.mem = s.mem ∧ q.dirty = s.dirty ∧ q.self.cur = s.self.cur ∧
      q.self.regs = s.self.regs ∧ q.crew.copies = [] ∧
      (mask = 4 → ∀ x ∈ s.crew.copies,
        q.crew.scrNum x.place.gang (x.place.off + 0x38) 4 = 4 ∧
        (∀ r, x.bar = some r → (q.crew.bar r).poison = true) ∧
        ∀ u ∈ s.crew.agents, ∀ pc, u.unit = x.issuer → u.cur.wait = .copy x.id pc →
          ∃ v ∈ q.crew.agents, v.unit = u.unit ∧ v.cur.pc = pc ∧ v.cur.wait = .none ∧ v.regs = u.regs)) ∧
    (0 < mask → mask < 32 → s.crew.lcl = l → s.self.unit.gaffer = false → s.self.cur.wait = .none → mask.testBit 2 = false → ∃ q : State,
      exec i s = .next (q.putD d 0).advance ∧ q.mem = s.mem ∧ q.dirty = s.dirty ∧ q.self.cur = s.self.cur ∧
      q.self.regs = s.self.regs ∧ (mask.testBit 4 = false → q.self = s.self ∧ q.work = s.work) ∧
      (mask.testBit 4 = true → (∀ u ∈ q.self :: q.crew.agents, ∀ p ∈ u.paths, p.mask ≠ 0 → ∀ h, p.wait ≠ .slot h) ∧
        q.work = s.work.filter fun w => w.unit.crew ≠ k) ∧
      (mask.testBit 0 = false → mask.testBit 4 = false → q.crew.agents = s.crew.agents) ∧
      (mask.testBit 0 = true → ∀ u ∈ q.crew.agents, u.unit.gaffer = true → u.gone = true ∧ u.replay = []) ∧
      (mask.testBit 1 = false → q.crew.marver = s.crew.marver ∧ q.crew.gangs = s.crew.gangs) ∧
      (mask.testBit 1 = true → q.crew.marver = { Marver.initial with nextId := s.crew.marver.nextId }) ∧
      (mask.testBit 3 = false → q.crew.fetch = s.crew.fetch) ∧ (mask.testBit 3 = true → q.crew.fetch = none) ∧
      q.redps = if mask.testBit 4 then s.redps.filter fun f => f.crew ≠ k else s.redps)

/-- R332: IDLE completes at once with the bits of the events present, or waits with its deadline and its queue; it completes when
one is present and its split may go on. No event named is ILLEGAL_OPERAND, and so is a queue that the context does not own. -/
def Parts.IdleWaits : Prop :=
  ∀ (s : State) (d a b : BitVec 5) (q t : BitVec 1),
    let i : Instr := .idle d a b q t
    let due : Bool := t == 1 && decide ((s.sreg a).toNat ≤ (s.dieAt s.crew.socket).ptime)
    let owned := s.queues.find? fun x => x.num == (s.sreg b).toNat
    let entry : Bool := q == 1 && (owned.map fun x => !x.entries.isEmpty).getD false
    let bits : Nat := due.toNat + 2 * entry.toNat
    let dl := if t = 1 then some (s.sreg a).toNat else none
    let qu := if q = 1 then some (s.sreg b).toNat else none
    let trap (f : Nat) : Prop := exec i s = .next (s.raise
      ⟨.illegalOperand, BitVec.ofNat 64 ((encode i).toNat + f * 2 ^ 32), s.self.cur.lanes, false, false⟩)
    (s.FxReady i (fsNeeds 1 fun tl => tl == 0) →
      (q = 0 → t = 0 → trap 5) ∧
      (q = 1 → 4096 ≤ (s.sreg b).toNat ∨ (∀ x, owned = some x → x.owner ≠ s.ctx.id) → trap 2) ∧
      ((q = 0 ∧ t = 1) ∨ (q = 1 ∧ (s.sreg b).toNat < 4096 ∧ ∃ x, owned = some x ∧ x.owner = s.ctx.id) →
        (bits ≠ 0 → exec i s = .next (s.putD d (BitVec.ofNat 64 bits)).advance) ∧
        (bits = 0 → exec i s = .next (s.mapSelf fun u => u.hold
          (.idle ⟨s.self.cur.pc, s.self.cur.pfx, encode i⟩ dl qu))))) ∧
    ∀ (s0 : State) (u : AgentKey) (slot : Nat) (h : HeldInsn), s0.focus u slot = some s → h.word = encode i →
      s.self.cur.wait = .idle h dl qu →
      (bits = 0 ∨ s.mayEnd = false → exec (.idleWake u slot) s0 = .next s0) ∧
      (bits ≠ 0 → s.mayEnd = true → exec (.idleWake u slot) s0 = .next
        ((s.mapCur fun p => { p with pc := h.addr, pfx := h.pfx, wait := .none }).putD d (BitVec.ofNat 64 bits)).advance)

/-- R330, R332: ENGRST and IDLE. -/
def Obligations.EnginesAndIdle : Prop := Parts.EngineReset ∧ Parts.IdleWaits

/-- R34, R322, R370: a save begun for a crew stops it at once: its runs roll back, and no wait of its paths is left but that for
the answer to a RENQ and that of a system instruction; its area is set, and memory is as it was. -/
def Parts.SaveBegins : Prop :=
  ∀ (s : State) (k : Crew) (area : Nat) (rebind : Bool), s.crewAt k.key = some k →
    let q := s.beginSave k.key area rebind
    (q.crewAt k.key).map Crew.area = some (some (area, rebind)) ∧ q.mem = s.mem ∧ q.dirty = s.dirty ∧
    (k.key ≠ s.crew.key → q.self = s.self) ∧
    ∀ c ∈ q.allCrews, c.key = k.key → ∀ u ∈ c.agents, u.run = none ∧
      ∀ p ∈ u.paths, ∀ h, p.wait.insn = some h → p.wait = .sys h ∨ ∃ n, p.wait = .renq h n

/-- R373, R376: a save writes its area: the header at its base has LAYOUT 1, the crew's name, its logical cluster, its gangs, a
bit for each live Gaffer thread (as log entry 27 reads it), the context's XRINV count, PERSIST, the generation 4, the features
in use and PTIME. The crew and its slot are gone from the part, and its context remembers the save. -/
def Parts.SaveWrites : Prop :=
  ∀ (s : State) (k : Crew) (c : Context) (area : Nat) (rebind : Bool), s.MemoryForm → k.key ≠ CrewKey.none →
    k.key ≠ s.crew.key → (s.allCrews.find? fun x => x.key == k.key) = some k → s.ctxAt k.key.ctx = some c → c.id = k.key.ctx →
    area % 65536 = 0 → firstHole area k.extent = none →
    let q := s.saveCrew k.key area rebind
    let at_ (o n : Nat) : Nat := q.physNum (area + o) n
    at_ 0 4 = 1 ∧ at_ 4 4 = k.key.ctx.word.toNat ∧ at_ 8 4 = k.key.launch % 2 ^ 32 ∧ at_ 0x0C 4 = k.key.sheet % 2 ^ 32 ∧
    at_ 0x10 4 = k.key.crew % 2 ^ 32 ∧ at_ 0x14 2 = k.lcl % 2 ^ 16 ∧ at_ 0x16 1 = k.gangs.length % 256 ∧
    at_ 0x17 1 < 16 ∧ (∀ n < 4, (at_ 0x17 1).testBit n = k.agents.any fun u => u.unit.gaffer && u.unit.ix == n && u.live != 0) ∧
    at_ 0x18 4 = c.xr % 2 ^ 32 ∧
    at_ 0x1C 4 = k.persist.toNat + 0x400 ∧ at_ 0x20 16 = k.featUse.toNat ∧
    at_ 0x30 8 = (s.dieAt k.socket).ptime % 2 ^ 64 ∧
    (∀ x ∈ q.allCrews, x.key ≠ k.key) ∧
    (∀ e ∈ (q.dies.toList.flatMap fun x => x.slots), recValid e.2 = true → recKey e.2 ≠ k.key) ∧
    ∃ (x : Context) (r : SavedCrew), q.ctxAt k.key.ctx = some x ∧ r ∈ x.saved ∧ r.key = k.key ∧ r.area = area ∧
      r.rebind = rebind ∧ r.dseq = k.dseq

/-- R326, R375, R378, R379, R420: a restore places a crew of the name asked for on the cluster of its core-map entry, with the
gangs, PERSIST and features that its area holds and the shape that its declaration gives. Every group of it has a record in the
area, and holds the predicates, the o registers, the trap level and the rotation that the record gives; nothing of it runs, and
its urgency, its tokens and its count of retired instructions start at 0. -/
def Parts.RestorePlaces : Prop :=
  ∀ (s : State) (c : Context) (k : CrewKey) (bs : List Byte) (e : MapEntry) (d : Declared) (slot : Nat),
    k ≠ CrewKey.none → k ≠ s.crew.key → (∀ x ∈ s.crews, x.key ≠ k) →
    ∃ x ∈ (s.restoreCrew c k bs e d slot).allCrews, x.key = k ∧ x.lcl = fieldAt bs 0x14 2 ∧ x.socket = e.socket ∧
      x.cluster = e.cluster ∧ x.slot = slot ∧ x.gangs.length = fieldAt bs 0x16 1 ∧
      x.persist = (fieldAt bs 0x1C 1 % 2 == 1) ∧ x.featUse = BitVec.ofNat 128 (fieldAt bs 0x20 16) ∧
      x.groups = d.groups ∧ x.budget = d.budget ∧ x.gaffers = d.gaffers ∧ x.held = c.held ∧ x.area = none ∧
      ∀ u ∈ x.agents, u.unit.gaffer = false →
        let g := sectionOf bs u.unit.gang
        let r := g.drop (fieldAt g (8 + 4 * u.unit.ix) 4)
        fieldAt g (8 + 4 * u.unit.ix) 4 ≠ 0 ∧ u.unit.gang < fieldAt bs 0x16 1 ∧ u.unit.ix < 32 ∧
        (∀ j : Fin 8, u.regs.p[j] = BitVec.ofNat 32 (fieldAt r (0xDA0 + 4 * j) 4)) ∧
        (∀ j < 16, ∀ n < 32, (u.regs.oAt j).at n = BitVec.ofNat 32 (fieldAt r (0x1000 + 128 * j + 4 * n) 4)) ∧
        u.tl = fieldAt r 9 1 ∧ u.regs.ix = fieldAt r 2 1 ∧ u.run = none ∧ u.tokens = 0 ∧ u.urg = 0 ∧ u.retired = 0

/-- R99, R322, R328, R329, R357, R370: CTXSV of another crew stops it, waits until it may be saved, and saves it; a save of the
issuer's own crew is ILLEGAL_OPERAND, and none resident gives status 2. CTXLD of an area of another context or logical cluster
gives status 3, one without a usable cluster 4 (so, by log entry 71, under a descriptor that R307 refuses); one that fits is
restored, and one that does not waits. A pre-emption request stops a crew in the same way, and the save goes on at its Marver's
drain point; an expired quantum is told to the Headstock. That the area is written in one step is the model's choice (log entry
45). -/
def Parts.SavesAndRestores : Prop :=
  ∀ (s : State) (d a b : BitVec 5) (k : Crew) (area : Nat),
    let l := (s.sreg a).toNat / 2 ^ 20 % 65536
    let own : Prop := (s.sreg a).toNat = 2 ^ 36 + l * 2 ^ 20 ∧ l < s.ctx.nlc ∧ 2 ≤ s.ctx.pl ∧ (s.sreg b).toNat = area
    let fit : Prop := area % 65536 = 0 ∧
      firstHole area (8 * 2 ^ 20 + 1056 * 1024 * (k.groups * k.gangs.length + k.gaffers)) = none
    let onL := s.allCrews.filter fun x => x.key.ctx == s.ctx.id && x.lcl == l
    let sv : Instr := .ctxsv d a b
    let ld : Instr := .ctxld d a b
    let waits (i : Instr) (q : State) : Prop :=
      exec i s = .next (q.mapSelf fun u => u.hold (.sys ⟨s.self.cur.pc, s.self.cur.pfx, encode i⟩))
    s.ctx.id ≠ CtxId.none →
    (s.FxReady sv (fsNeeds 2 anyTl) → own →
      (onL = [] → area % 65536 = 0 → firstHole area (8 * 2 ^ 20) = none → exec sv s = .next (s.putD d 2).advance) ∧
      (onL = [k] → k.key ≠ s.crew.key → area % 65536 ≠ 0 →
        exec sv s = .next (s.raise ⟨.misaligned, 0, s.self.cur.lanes, false, false⟩)) ∧
      (onL = [k] → k.key = s.crew.key → exec sv s = .next (s.raise
        ⟨.illegalOperand, BitVec.ofNat 64 ((encode sv).toNat + 2 ^ 32), s.self.cur.lanes, false, false⟩)) ∧
      (onL = [k] → fit → k.key ≠ s.crew.key →
        (s.ready k = true → k.area = none ∨ k.area = some (area, false) →
          exec sv s = .next ((s.saveCrew k.key area false).putD d 0).advance) ∧
        (s.ready k = false → k.area = none → waits sv (s.beginSave k.key area false)) ∧
        (s.ready k = false → k.area ≠ none → waits sv s) ∧
        (∀ x, k.area = some x → x ≠ (area, false) → waits sv s))) ∧
    (s.FxReady ld (fsNeeds 2 anyTl) → own → area % 65536 = 0 → firstHole area 256 = none →
      firstHole area (max 1 (s.physNum (area + 0x38) 8)) = none →
      let c := s.ctxNow s.ctx
      let bs := s.physBytes area (s.physNum (area + 0x38) 8)
      let kk : CrewKey := ⟨s.ctx.id, fieldAt bs 8 4, fieldAt bs 0x0C 4, fieldAt bs 0x10 4⟩
      let named : Prop := fieldAt bs 0 4 = 1 ∧ fieldAt bs 4 4 = s.ctx.id.word.toNat ∧ fieldAt bs 0x14 2 = l
      let gives (n : DWord) : Prop := exec ld s = .next (s.putD d n).advance
      let h := s.headerOfCrew c kk
      (¬ named → gives 3) ∧
      (named → s.readDescriptor s.ctx.id = none ∨ s.mapEntry c l = none → gives 4) ∧
      ∀ e, named → (s.readDescriptor s.ctx.id).isSome = true → s.mapEntry c l = some e →
        (e.cores.length < fieldAt bs 0x16 1 → gives 4) ∧
        (fieldAt bs 0x16 1 ≤ e.cores.length →
          (fieldAt bs 0x1D 1 ≠ 4 → exec ld s = .next (s.raise
            ⟨.ctxIncompat, BitVec.ofNat 64 (0x100 + fieldAt bs 0x1D 1), s.self.cur.lanes, false, false⟩)) ∧
          (∀ n < 128, fieldAt bs 0x1D 1 = 4 → (fieldAt bs 0x20 16).testBit n = true → c.feat.getLsbD n = false →
            (∀ m < n, (fieldAt bs 0x20 16).testBit m = true → c.feat.getLsbD m = true) →
            exec ld s = .next (s.raise ⟨.ctxIncompat, BitVec.ofNat 64 n, s.self.cur.lanes, false, false⟩)) ∧
          (fieldAt bs 0x1D 1 = 4 → BitVec.ofNat 128 (fieldAt bs 0x20 16) &&& ~~~c.feat = 0 →
            (h.1.fits e (areaShape bs h.2) = true → exec ld s =
              .next ((h.1.restoreCrew c kk bs e (declaredOf bs h.2) 16).putD d 0).advance) ∧
            (h.1.fits e (areaShape bs h.2) = false → exec ld s = .next (h.1.mapSelf fun u => u.hold .poll))))) ∧
    ((s.allCrews.find? fun c => c.key == k.key) = some k → fit →
      (k.area = none → exec (.preemptionRequest k.key area) s =
        .next (if s.ready k then s.saveCrew k.key area true else s.beginSave k.key area true)) ∧
      (k.area ≠ none → exec (.preemptionRequest k.key area) s = .next s) ∧
      (k.area = some (area, true) → k.runnable = none → s.quiet k = true →
        exec (.marverDrainPoint k.key) s = .next (s.saveCrew k.key area true))) ∧
    (s.crewAt k.key = some k →
      let due : Prop := k.quantum ≠ 0 ∧ k.since + 16000 * k.quantum ≤ (s.dieAt k.socket).ptime
      (¬ due → exec (.quantumExpiry k.key area) s = .next s) ∧
      (due → k.persist = true → ∃ q : State, exec (.quantumExpiry k.key area) s = .next q ∧
        q.outbox = s.outbox ++ [.headstock (.quantum k.key)] ∧ q.self = s.self ∧ q.mem = s.mem ∧ q.dirty = s.dirty ∧
        (q.crewAt k.key).map (fun c => (c.since, c.area)) = some ((s.dieAt k.socket).ptime, k.area)))

/-- R98, R99, R289: a crew may be saved once nothing of it is outstanding and its Marver stands at a drain point: no answer to a
FETCHW or a RENQ, no system instruction, no REDP that has not read its words, and no running operation that is to complete first
or stands between two drain points, unless it waits on pages. -/
def Parts.SaveReady : Prop :=
  ∀ (s : State) (k : Crew), s.ready k = true ↔ (k.fetch = none ∧ (∀ f ∈ s.redps, f.crew ≠ k.key) ∧
    (∀ u ∈ k.agents, ∀ p ∈ u.paths, p.mask ≠ 0 → ∀ h, p.wait ≠ .sys h ∧ ∀ n, p.wait ≠ .renq h n) ∧
    ∀ o ∈ k.marver.queue, o.state = .running → o.keys = [] → (o.failed = true → k.marver.stopped = false) →
      o.step < o.total → o.eop ∉ [2, 3, 7, 8] ∧ o.step % (if o.eop = 5 ∨ o.eop = 6 then 32 else 16) = 0)

/-- R99, R328, R329, R357, R370, R373, R378: crews saved and restored. -/
def Obligations.Saves : Prop :=
  Parts.SavesAndRestores ∧ Parts.SaveBegins ∧ Parts.SaveWrites ∧ Parts.RestorePlaces ∧ Parts.SaveReady

/-! ### The host's commands and bring-up -/

/-- R352, R353, R364, R382, R401, R421: the commands that act in a context's address space. WRITE stores its body, READ gives the
bytes it counts, LAUNCH takes over a launch whose checks pass and completes one whose checks fail with that status, LOADOBJ loads
the image that R10 chooses, and REMOVE takes the context off the part with all its crews and translations. Each is answered by one
RESP; a context that is not live gives BADCTX. What a READ gives for a byte whose last store has not been made visible at PACKAGE
scope is the value before it or that store's, a free choice for each sector (log entry 58). -/
def Parts.HostCommands : Prop :=
  ∀ (s : State) (c : Cmd),
    let missing (i : Instr) : Prop := s.ctxAt c.ctx = none → exec i s = .next (s.answers c 3 0 [])
    (s.Receives c 0x01 → missing (.write c) ∧ ∀ (x : Context) (q : State) (ok : Bool), s.ctxAt c.ctx = some x →
      s.virtWrite x c.addr c.body = (q, ok) → exec (.write c) s = .next (q.answers c (if ok then 0 else 4) 0 [])) ∧
    (s.Receives c 0x02 → missing (.read c) ∧ ∀ (x : Context) (q : State) (r : Option (List Byte)), s.ctxAt c.ctx = some x →
      c.body.length = 8 → let n := fieldAt c.body 0 8
      (n = 0 ∨ 4064 < n → exec (.read c) s = .next (s.answers c 6 0 [])) ∧
      (1 ≤ n → n ≤ 4064 → s.hostRead x c.addr n = (q, r) →
        exec (.read c) s = .next (match r with
          | some bs => q.answers c 0 0 bs
          | none => q.answers c 4 0 []))) ∧
    (s.Receives c 0x10 → c.addr = 0 → missing (.launch c) ∧ ∀ (x : Context) (q : State) (n : Nat), s.ctxAt c.ctx = some x →
      0x40 ≤ c.body.length →
      let l := launchOf c.body c.die
      (x.launches.any (fun y => y.num == l.num) = true → exec (.launch c) s = .next (s.answers c 6 0 [])) ∧
      (x.launches.any (fun y => y.num == l.num) = false →
        s.checkLaunch (s.ctxNow x) l c.body = (q, n) →
        (n = 0 → exec (.launch c) s =
          .next ((q.mapCtxAt x.id fun y => { y with launches := y.launches ++ [l] }).answers c 0 0 [])) ∧
        (n ≠ 0 → exec (.launch c) s = .next ((q.complete x l n).answers c 0 0 [])))) ∧
    (s.Receives c 0x23 → c.addr = 0 → missing (.loadobj c) ∧
      ∀ (x : Context) (q t : State) (bs : List Byte) (o : CodeObject) (im y : Image) (ok : Bool), s.ctxAt c.ctx = some x →
      c.body.length = 64 → zeroAt c.body 0x20 32 = true →
      let dst := fieldAt c.body 0x10 8
      let n := fieldAt c.body 0x18 8
      let text := dst + 0x10000
      let data := text + (im.text.length + 65535) / 65536 * 65536
      dst % 65536 = 0 → 0 < n → dst + n ≤ 2 ^ 56 → dst / 2 ^ 32 = (dst + n - 1) / 2 ^ 32 →
      s.virtRead x (fieldAt c.body 0 8) (fieldAt c.body 8 8) = (q, some bs) → objectOf bs = some o →
      (chosenImage x o (x.choose o)).1 = some im → text + im.text.length ≤ dst + n →
      data + im.data.length ≤ dst + n → im.relocate text data = some y →
      let ws := [(dst, y.heads.flatMap (placeHead text)), (text, y.text), (data, y.data)]
      State.storeAll x ws q = (t, ok) →
      (ok = true → exec (.loadobj c) s = .next ((t.mapCtxAt x.id fun z => { z with
        loaded := (z.loaded.filter fun h => !ws.any fun w => decide (h.addr < w.1 + w.2.length) && decide (w.1 < h.addr + 64)) ++
          (List.range y.heads.length).map fun k => ⟨dst + 64 * k, y.mask⟩
        choices := (o.chash, x.choose o) :: z.choices.filter fun h => h.1 != o.chash }).answers c 0 im.heads.length [])) ∧
      (ok = false → exec (.loadobj c) s = .next ((t.scramble x dst n).answers c 4 0 []))) ∧
    (s.Receives c 0x11 → c.addr = 0 → missing (.remove c) ∧ ∀ x, s.ctxAt c.ctx = some x → c.body = [] → s.crews = [] →
      s.ctxs = [] → ∃ q : State, exec (.remove c) s = .next (q.answers c 0 0 []) ∧ q.allCtxs = [] ∧
        (x.id = c.ctx → (∀ k ∈ q.allCrews, k.key.ctx ≠ c.ctx) ∧ (∀ e ∈ q.tlb, e.ctx ≠ c.ctx) ∧
          (∀ o ∈ q.punty.objs, o.owner ≠ c.ctx) ∧ (∀ o ∈ q.punty.names, o.owner ≠ c.ctx) ∧ (∀ r ∈ q.rounds, r.ctx ≠ c.ctx)))

/-- R131, R145: what a host read gives for a byte: the byte that a load sees, where every store to it has been made visible at
PACKAGE scope; else that byte, or the one from before one of the stores that have not. A release at PACKAGE scope or wider makes
visible the stores of its own unit, and with each of them every older store to its byte; a narrower one makes none visible. -/
def Parts.HostSees : Prop :=
  ∀ (s : State) (n ca : Nat),
    ((∀ u ∈ s.unpushed, u.ca ≠ ca) → s.hostByte n ca = s.byteAt ca) ∧
    (s.hostByte n ca = s.byteAt ca ∨ ∃ u ∈ s.unpushed, u.ca = ca ∧ s.hostByte n ca = u.old) ∧
    ∀ sc, (6 ≤ sc → ∀ u ∈ (s.publish sc).unpushed, u ∈ s.unpushed ∧ u.writer ≠ s.writer) ∧
      (6 ≤ sc → ∀ u, s.unpushed.find? (fun x => x.ca == ca) = some u → u.writer = s.writer →
        (s.publish sc).hostByte n ca = s.byteAt ca) ∧
      (sc < 6 → (s.publish sc).unpushed.map (fun u => (u.ca, u.old, u.writer)) =
        s.unpushed.map fun u => (u.ca, u.old, u.writer))

/-- R401: the four kinds of message to the host begin with a header of 32 bytes: OPC, LEN, and for a RESP the SEQ and CTXID of its
command and its status in ADDR[7:0]. The body is the record, the report, or an event's code and value. The SEQ of the other three
and the CTXID of a COMPLETION and a KILL are the model's choice (log entry 74). -/
def Parts.Messages : Prop :=
  ∀ (die seq status extra code value : Nat) (ctx : Nat) (body : List Byte), seq < 2 ^ 32 → ctx < 2 ^ 32 → status < 256 →
    extra < 2 ^ 56 → code < 2 ^ 32 → value < 2 ^ 64 → body.length ≤ 4064 →
    let r := Msg.bytes (.resp die seq ctx status extra body)
    let e := Msg.bytes (.event die code value)
    let head (bs : List Byte) (opc : Nat) : Prop := fieldAt bs 0 2 = opc ∧ fieldAt bs 2 2 = bs.length ∧ bs.length % 8 = 0 ∧
      32 ≤ bs.length ∧ bs.length ≤ 4096 ∧ fieldAt bs 0x0C 4 = 0 ∧ fieldAt bs 0x18 8 = 0
    head r 0x80 ∧ fieldAt r 4 4 = seq ∧ fieldAt r 8 4 = ctx ∧ fieldAt r 0x10 8 = status + extra * 256 ∧
    (r.drop 32).take body.length = body ∧
    head e 0x83 ∧ e.length = 48 ∧ fieldAt e 0x20 4 = code ∧ fieldAt e 0x24 8 = value ∧
    (body.length = 32 → head (Msg.bytes (.completion die body)) 0x81 ∧ (Msg.bytes (.completion die body)).drop 32 = body ∧
      head (Msg.bytes (.kill body)) 0x82 ∧ (Msg.bytes (.kill body)).drop 32 = body)

/-- R145, R352, R353, R364, R382, R401, R421: the host's commands in a context's address space, and what the part sends. -/
def Obligations.HostAccess : Prop := Parts.HostCommands ∧ Parts.HostSees ∧ Parts.Messages

/-- R118, R274, R283, R306, R307, R401, R416, R429: the commands that register. REGCTX makes a context live and puts its
descriptor in the table, REGOBJ gives an object a slot, BIND moves its names at once, QCONF sets a queue up, PODCFG sets the
pod; a command that fails its checks does nothing but give its status. That REGCTX takes 0 or the context's own name in its
header, and gives NOROOM beyond 1,024 contexts, is the model's choice (log entry 35), and so is the status where several checks
fail (log entry 75). -/
def Obligations.HostRegistry : Prop :=
  ∀ (s : State) (c : Cmd) (x : Context), c.addr = 0 →
    let b := c.body
    let id := CtxId.ofNat (fieldAt b 0 4)
    let fails (i : Instr) (n : Nat) : Prop := exec i s = .next (s.answers c n 0 [])
    (s.Receives c 0x20 → b.length = 64 → c.ctxWord = 0 ∨ c.ctxWord = fieldAt b 0 4 →
      (id.tag = 0 ∨ (∃ y ∈ s.allCtxs, y.id.tag = id.tag) → fails (.regctx c) 3) ∧
      (id.tag ≠ 0 → (∀ y ∈ s.allCtxs, y.id.tag ≠ id.tag) → fieldAt b 0 4 < 2 ^ 20 →
        (BitVec.ofNat 128 (fieldAt b 0x20 16) &&& ~~~s.boot.ack.getD 0 ≠ 0 → fails (.regctx c) 6) ∧
        (BitVec.ofNat 128 (fieldAt b 0x20 16) &&& ~~~s.boot.ack.getD 0 = 0 →
          (1024 ≤ s.allCtxs.length → fails (.regctx c) 9) ∧
          (s.allCtxs.length < 1024 → ∃ q : State, exec (.regctx c) s = .next (q.answers c 0 0 []) ∧
            q = { s with dirty := q.dirty, unpushed := q.unpushed, ctxs := s.ctxs ++ [contextOf id b] } ∧
            q.dirty = (s.putPhys (s.ctbase + 64 * id.tag) b).dirty)))) ∧
    (s.Receives c 0x21 → s.ctxAt c.ctx = some x → b.length = 24 →
      let oid := fieldAt b 0 4
      let base := fieldAt b 8 8
      let size := fieldAt b 0x10 8
      let bad : Prop := zeroAt b 4 4 = false ∨ oid = 0 ∨ (∃ o ∈ s.punty.objs, o.owner = x.id ∧ o.oid = oid) ∨ size = 0 ∨
        2 ^ 56 ≤ base ∨ 2 ^ 56 < base + size
      (bad → fails (.regobj c) 6) ∧
      (¬ bad → s.punty.objs.length < 262143 → ∃ (q : State) (slot gen : Nat),
        exec (.regobj c) s = .next (q.answers c 0 0 []) ∧ q = { s with punty := q.punty } ∧ q.punty.names = s.punty.names ∧
        q.punty.objs = s.punty.objs ++ [⟨slot, gen, x.id, oid, base, size, []⟩] ∧ slot ≠ 0 ∧
        ∀ o ∈ s.punty.objs, o.slot ≠ slot)) ∧
    (s.Receives c 0x22 → s.ctxAt c.ctx = some x → ∀ l, bindList b = some l → b.length = 32 + 32 * fieldAt b 0 4 →
      1 ≤ fieldAt b 0 4 → fieldAt b 0 4 ≤ 16 →
      (∀ st i o, s.punty.checkList x.id true [] 0 0 l = some (st, i, o) →
        exec (.bind c) s = .next (s.answers c 8 (st + i * 256) [])) ∧
      (s.punty.checkList x.id true [] 0 0 l = none → ∃ q : State, exec (.bind c) s = .next (q.answers c 0 0 []) ∧
        ((∀ e ∈ l, s.binders x.id e.name = []) → q = { s with punty := q.punty, outbox := q.outbox }) ∧
        ∀ e ∈ l, q.punty.names.find? (fun n => n.name == e.name) =
          some ⟨e.name, x.id, if e.oid = 0 then none else some e.oid⟩)) ∧
    (s.Receives c 0x30 → s.ctxAt c.ctx = some x → b.length = 16 →
      let q := fieldAt b 0 4
      let cap := fieldAt b 4 4
      let resv := fieldAt b 8 4
      let flags := fieldAt b 12 4
      let old := s.queues.find? fun y => y.num == q
      (cap < resv * (if s.pod.domain = [] then 1 else s.pod.domain.length) → fails (.qconf c) 6) ∧
      let t : TaskQueue := ⟨q, x.id, cap, resv, flags == 1, (old.map (·.entries)).getD [], 0⟩
      let after := if old = none then s.queues ++ [t] else s.queues.map fun y => if y.num = q then t else y
      (q < 4096 → flags < 2 → cap < 2 ^ 24 → resv * (if s.pod.domain = [] then 1 else s.pod.domain.length) ≤ cap →
        (∀ t, old = some t → t.owner = x.id) →
        exec (.qconf c) s = .next (({ s with queues := after } : State).answers c 0 0 []))) ∧
    (s.Receives c 0x41 → c.ctxWord = 0 → b.length = 536 → fieldAt b 0 2 < 4096 → zeroAt b 3 5 = true →
      fieldAt b 12 4 &&& fieldAt b 8 4 = fieldAt b 12 4 →
      fieldAt b 2 1 = 0xFF ∨ (fieldAt b 8 4).testBit (fieldAt b 2 1) = true → ∃ q : State,
      exec (.podcfg c) s = .next (q.answers c 0 0 []) ∧ q = { s with pod := q.pod, hub := q.hub } ∧
      q.pod.part = fieldAt b 0 2 ∧ q.pod.parent = fieldAt b 2 1 ∧ q.pod.podPorts = fieldAt b 8 4 ∧
      q.pod.ordPorts = fieldAt b 12 4 ∧ q.pod.llr = fieldAt b 16 4 ∧ q.pod.cbfc = fieldAt b 20 4 ∧
      (∀ n, n ∈ q.pod.domain ↔ n < 4096 ∧ (fieldAt b 24 512).testBit n = true) ∧ q.pod.synced = s.pod.synced ∧
      q.hub.held = s.hub.held ∧ q.hub.out = s.hub.out ∧
      (∀ n, (∃ p ∈ q.hub.ports, p.num = n) ↔ n < 32 ∧ (fieldAt b 12 4).testBit n = true) ∧
      ∀ p ∈ s.hub.ports, (∀ r ∈ s.hub.ports, r.num = p.num → r = p) → p.num < 32 → (fieldAt b 12 4).testBit p.num = true →
        p ∈ q.hub.ports)

/-- R401, R411, R413, R415, R416: bring-up. Step 1 holds the part on a failed die or stack and step 2 without a link; at step 3
the ROM takes WRITEs into the staging buffer alone; before step 6, and at a held step, every command is DENIED; FEATNEG is all
that step 6 takes (at a held step it is DENIED too, with FAIL in BOOTSTAT), and its commit fixes the acknowledged set once. Step
5 gives partition 0 every socket and leaves disabled the cores that the self-test record or the enabled-cluster map rules out
(R309, R414; how they do is a constant of the part, log entry 16). BADFIELD for a WRITE that reaches beyond 256 MiB is the
model's choice (log entry 36), and so is that a power loss takes everything but MRAM, the events that wait outside the part
excepted (log entry 49). -/
def Obligations.BringUp : Prop :=
  ∀ (s : State) (c : Cmd) (p : PowerUp),
    (s.boot.step = 1 → s.boot.fail = false → exec (.powerUp p) s = .next { s with boot := { s.boot with
      selfTest := p.selfTest
      step := if p.failed % 256 ≠ 0 then 1 else if p.link then 3 else 2
      fail := p.failed % 256 ≠ 0 || !p.link
      detail := if p.failed % 256 ≠ 0 then p.failed % 256 else s.boot.detail } }) ∧
    (s.boot.step ≠ 1 ∨ s.boot.fail = true → exec (.powerUp p) s = .next s) ∧
    ((c.die = 8 ∨ c.die = 9) → s.boot.step = 3 → s.boot.fail = false → c.opc = 1 → c.ctxWord = 0 → c.len = c.bytes.length →
      32 ≤ c.len → c.len ≤ 4096 → c.len % 8 = 0 → zeroAt c.bytes 0x0C 4 = true → zeroAt c.bytes 0x18 8 = true →
      let b := s.boot.write c.addr c.body
      (2 ^ 28 < c.addr + c.body.length →
        exec (.bootWrite c) s = .next (s.answers c 6 (s.boot.detail % 256 * 256 + 3) [])) ∧
      (c.addr + c.body.length ≤ 2 ^ 28 → b.covers 4 = false → exec (.bootWrite c) s =
        .next (({ s with boot := b } : State).answers c 0 (s.boot.detail % 256 * 256 + 3) [])) ∧
      (c.addr + c.body.length ≤ 2 ^ 28 → b.covers 4 = true → b.len ≤ 2 ^ 28 → b.covers (max 4 b.len) = true →
        (∀ n, b.verify = n → n ≠ 0 → n < 8 → exec (.bootWrite c) s = .next (({ s with boot :=
            { b with step := 4, fail := true, detail := n, staging := [] } } : State).answers c 0 (n * 256 + 128 + 4) [])) ∧
        (b.verify = 0 → ∃ q : State, exec (.bootWrite c) s = .next q ∧ q.boot.step = 6 ∧ q.boot.fail = false ∧
          q.boot.staging = [] ∧ q.boot.featoff = Config.featOffered ∧ q.boot.svn = leNat (b.bytes 4 4) ∧
          q.boot.mramSvn = max s.boot.mramSvn (leNat (b.bytes 4 4)) ∧
          q.partmap = s.partmap.set 0 0x1FF#32 ∧ q.fenced = Config.disabledCores s.boot.selfTest Config.clusterMap ∧
          q.mem = s.mem ∧ q.dirty = s.dirty))) ∧
    (∀ i : Instr, ((i = .read c ∧ c.opc = 0x02) ∨ (i = .launch c ∧ c.opc = 0x10) ∨ (i = .remove c ∧ c.opc = 0x11) ∨
        (i = .regctx c ∧ c.opc = 0x20) ∨ (i = .regobj c ∧ c.opc = 0x21) ∨ (i = .bind c ∧ c.opc = 0x22) ∨
        (i = .loadobj c ∧ c.opc = 0x23) ∨ (i = .qconf c ∧ c.opc = 0x30) ∨ (i = .podcfg c ∧ c.opc = 0x41)) →
      (c.die = 8 ∨ c.die = 9) → 3 ≤ s.boot.step → s.boot.step ≤ 6 → s.boot.fail = false →
      exec i s = .next (s.answers c 5 (s.boot.detail % 256 * 256 + s.boot.step) [])) ∧
    (∀ i : Instr, ((i = .write c ∧ c.opc = 0x01) ∨ (i = .read c ∧ c.opc = 0x02) ∨ (i = .launch c ∧ c.opc = 0x10) ∨
        (i = .remove c ∧ c.opc = 0x11) ∨ (i = .regctx c ∧ c.opc = 0x20) ∨ (i = .regobj c ∧ c.opc = 0x21) ∨
        (i = .bind c ∧ c.opc = 0x22) ∨ (i = .loadobj c ∧ c.opc = 0x23) ∨ (i = .qconf c ∧ c.opc = 0x30) ∨
        (i = .featneg c ∧ c.opc = 0x40) ∨ (i = .podcfg c ∧ c.opc = 0x41)) →
      (c.die = 8 ∨ c.die = 9) → 1 ≤ s.boot.step → s.boot.step ≤ 6 → s.boot.fail = true →
      exec i s = .next (s.answers c 5 (s.boot.detail % 256 * 256 + 128 + s.boot.step) [])) ∧
    ((c.die = 8 ∨ c.die = 9) → s.boot.fail = false → s.boot.step = 6 ∨ s.boot.step = 7 → c.opc = 0x40 → c.addr = 0 →
      c.ctxWord = 0 → c.len = c.bytes.length → c.len = 104 → zeroAt c.bytes 0x0C 4 = true → zeroAt c.bytes 0x18 8 = true →
      zeroAt c.body 4 4 = true →
      let ack := BitVec.ofNat 128 (fieldAt c.body 8 16)
      let b : Boot := if fieldAt c.body 0 4 = 1 then { s.boot with ack := some ack, step := 7 } else s.boot
      let extra := if b.step = 7 then 0 else s.boot.detail % 256 * 256 + 6
      let report := (b.report (slice c.body 0x18 48)).2
      (fieldAt c.body 0 4 = 1 → s.boot.step = 7 → s.boot.ack ≠ none → exec (.featneg c) s = .next (s.answers c 5 0 [])) ∧
      (fieldAt c.body 0 4 = 0 ∨ (fieldAt c.body 0 4 = 1 ∧ s.boot.ack = none ∧ ack.getLsbD 0 = true ∧
          ack &&& ~~~s.boot.featoff = 0) → exec (.featneg c) s = .next (({ s with boot :=
        { b with mramLeaf := if b.mramLeaf < 2 ^ 20 then b.mramLeaf + 1 else b.mramLeaf } } : State).answers
          c 0 extra report))) ∧
    ∃ q : State, exec .powerLoss s = .next q ∧ q.boot = { State.reset.boot with mramSvn := s.boot.mramSvn, mramLeaf := s.boot.mramLeaf } ∧
      q.mem = [] ∧ q.dirty = [] ∧ q.allCrews = [] ∧ q.allCtxs = []

/-- R309, R317, R346, R354, R359, R397: a write through a Headstock window sets the register at its offset with the bits that the
register holds, and nothing else; an offset, width or alignment that no register has is ignored. ORDCTL.EN set injects the ordered
work that waits. -/
def Parts.RegisterWindows : Prop :=
  ∀ (s : State) (die v : Nat), die < 8 → v < 2 ^ 32 →
    let only (i : Instr) (f : Die → Die) : Prop := ∃ q : State, exec i s = .next q ∧ q = { s with dies := q.dies } ∧
      ∀ d < 10, q.dieAt d = if d = die then f (s.dieAt d) else s.dieAt d
    only (.registerWrite die 0x10000 4 v) (fun d => { d with lehrq := BitVec.ofNat 32 v &&& 0x8FFF0FFF#32 }) ∧
    (∀ c < 12, only (.registerWrite die (0x100000 + 0x1000 * c + 0x200) 4 v) fun d =>
      { d with rejected := d.rejected.filter fun e => ¬ (e.1 = c ∧ v.testBit e.2) }) ∧
    (∀ k < 48, ∃ q : State, exec (.registerWrite die (0x200000 + 0x1000 * k) 4 v) s = .next q ∧
      q = { s with dies := q.dies } ∧ (q.dieAt die).urg k = (BitVec.ofNat 32 v &&& 0xF06#32) ||| 1#32 ∧
      ∀ j < 48, j ≠ k → (q.dieAt die).urg j = (s.dieAt die).urg j) ∧
    (∀ x < 2 ^ 64, exec (.registerWrite die 0x480 8 x) s = .next { s with ctbase := x }) ∧
    exec (.registerWrite die 0x400 8 v) s = .next s ∧ exec (.registerWrite die 0x10000 8 v) s = .next s ∧
    exec (.registerWrite die 0x482 4 v) s = .next s ∧ exec (.registerWrite die 0x300000 4 v) s = .next s ∧
    exec (.registerWrite 8 0x10008 8 v) s = .next { s with hub := { s.hub with
      lateDrop := (BitVec.ofNat 32 s.hub.lateDrop &&& ~~~ BitVec.ofNat 32 v).toNat } } ∧
    (s.hub.held = [] → ∃ q : State, exec (.registerWrite 8 0x10000 4 v) s = .next q ∧
      q = { s with hub := q.hub, work := q.work, dies := q.dies } ∧
      q.hub.enabled = v.testBit 16 ∧ q.hub.held = [] ∧ q.hub.ports = s.hub.ports ∧
      (q.hub.ordctl.toNat % 65536 = if v % 65536 = 0 then s.hub.ordctl.toNat % 65536 else v % 65536) ∧
      (v.testBit 16 = false → q.work = s.work ∧ q.dies = s.dies) ∧
      (v.testBit 16 = true → q.work = []) ∧
      (v.testBit 16 = true → s.work = [] → q.dies = s.dies) ∧
      ∀ (w : OrdWork) (dest : Nat), v.testBit 16 = true → s.work = [w] → w.dests = [dest] → w.die < 8 →
        let d := s.dieAt w.die
        let stamp := max d.ptime (d.horizon + 1)
        q.dieAt w.die = { d with horizon := stamp, unpassed := d.unpassed ++
          [⟨stamp, s.pod.part, w.die, dest, 0, w.ctx, some w.unit, w.body⟩] })

/-- R309, R317, R346, R354, R359, R397, R399, R413: what a Headstock reads through its window: each register at its offset, of its
width and alignment, and 0 anywhere else; the hub's registers on die 8 alone. A RETIRED register is that of the group at its
resident position; the order of the positions is the model's choice (log entry 60). -/
def Parts.WindowReads : Prop :=
  ∀ (s : State) (die : Nat),
    (die < 8 → s.readWindow die 0x10000 4 = (s.dieAt die).lehrq.toNat ∧ s.readWindow die 0x300000 4 = 0 ∧
      s.readWindow die 0x10000 8 = 0 ∧
      (∀ c < 12, s.readWindow die (0x100000 + 0x1000 * c + 0x200) 4 =
        ((List.range 16).map fun i => if (c, i) ∈ (s.dieAt die).rejected then 2 ^ i else 0).sum) ∧
      (∀ c < 12, ∀ i < 16, ∀ o < 4, ∀ r, ((s.dieAt die).slots.find? fun e => e.1 == 16 * c + i) = some (16 * c + i, r) →
        s.readWindow die (0x100000 + 0x1000 * c + 32 * i + 8 * o) 8 = fieldAt r (8 * o) 8) ∧
      (∀ k < 48, s.readWindow die (0x200000 + 0x1000 * k) 4 = ((s.dieAt die).urg k).toNat ∧
        ∀ i < 32, s.readWindow die (0x200100 + 0x1000 * k + 4 * i) 4 =
          ((s.residents die k)[i]?.map fun u => u.retired).getD 0) ∧
      ∀ l < 8, s.readWindow die (0x10100 + 8 * l) 8 =
        ((s.credfix.find? fun e => e.1 == .interposer die l).map (·.2)).getD 0) ∧
    (s.readWindow 8 0x10000 4 = s.hub.ordctl.toNat ∧ s.readWindow 9 0x10000 4 = 0 ∧ s.readWindow 9 0x10008 8 = 0 ∧
      s.readWindow 8 0x10008 8 % 2 ^ 32 = s.hub.lateDrop % 2 ^ 32 ∧
      (∀ p < 32, (s.readWindow 8 0x10008 8).testBit (32 + p) = s.hub.ports.any fun x => x.num == p && x.stalled)) ∧
    (die = 8 ∨ die = 9 → s.readWindow die 0x10400 4 = s.boot.stat ∧
      ∀ p < 32, s.readWindow die (0x10100 + 8 * p) 8 = ((s.credfix.find? fun e => e.1 == .port p).map (·.2)).getD 0) ∧
    (die < 10 → s.readWindow die 0x480 8 = s.ctbase ∧ s.readWindow die 0x482 8 = 0 ∧ s.readWindow die 0x400 4 = 0 ∧
      ∀ k : Fin 8, s.readWindow die (0x488 + 8 * k) 8 = s.partmap[k].toNat)

/-- R305, R311, R317, R324: the system registers, by instruction and through the windows. -/
def Obligations.SystemRegisters : Prop :=
  Parts.SystemReads ∧ Parts.SystemWrites ∧ Parts.RegisterWindows ∧ Parts.WindowReads

/-! ### Faults, placement, paths -/

/-- R142, R343 to R347: the fault path. A due batch becomes range records, which go to the fault queue in order as far as it has
room, while new records join a second batch; a reply frees the merge entries in its range, and what waited on them alone goes on,
or, on a FAIL, meets its XLATE; a pending imprecise trap is taken at an issue slot at TL 0, in a run, too, which rolls back (R34).
That the range records that find no
room wait, one by one, is the model's choice (log entry 31). -/
def Obligations.FaultEvents : Prop :=
  ∀ (s : State) (die : Nat),
    let d := s.dieAt die
    let room (t : TaskQueue) : Prop :=
      (t.entries.filter fun e => e.src.isNone).length + t.resv * (if s.pod.domain = [] then 1 else s.pod.domain.length) < t.cap
    (∀ (t : TaskQueue) (r : FaultRec), die < 8 → d.lehrEn = true → s.queues.find? (fun x => x.num == d.faultQ) = some t →
      t.closed = false → d.flushing = [] → d.batch = [r] → d.batchAt + 320000 ≤ d.ptime → d.spare = [] → d.merge = [] → room t →
      ∃ q : State, exec (.lehrBatchFlush die) s = .next q ∧ q = { s with queues := q.queues, dies := q.dies } ∧
        (q.dieAt die).batch = [] ∧ (q.dieAt die).flushing = [] ∧ (q.dieAt die).seq = (d.seq + 1) % 2 ^ 32 ∧
        ∃ e, q.queues.find? (fun x => x.num == d.faultQ) = some { t with entries := t.entries ++ [e] } ∧ e.src = none ∧
          fieldAt e.bytes 0 8 = r.page % 2 ^ 64 ∧ fieldAt e.bytes 8 4 = 1 ∧ fieldAt e.bytes 0x0C 4 = r.ctx.word.toNat ∧
          fieldAt e.bytes 0x10 1 = r.kind % 256 ∧ fieldAt e.bytes 0x11 1 = r.src % 256 ∧ fieldAt e.bytes 0x12 1 = die ∧
          fieldAt e.bytes 0x14 4 = d.seq % 2 ^ 32 ∧ fieldAt e.bytes 0x18 8 = d.ptime % 2 ^ 64) ∧
    (d.flushing = [] → d.batch = [] ∨ (d.batch.length < 256 ∧ d.ptime < d.batchAt + 320000) →
      exec (.lehrBatchFlush die) s = .next s) ∧
    (∀ t : TaskQueue, die < 8 → d.lehrEn = true → s.queues.find? (fun x => x.num == d.faultQ) = some t → t.closed = false →
      d.flushing = [] → d.batch ≠ [] → d.batchAt + 320000 ≤ d.ptime → d.merge = [] → ¬ room t → ∃ q : State,
      exec (.lehrBatchFlush die) s = .next q ∧ q = { s with queues := q.queues, dies := q.dies } ∧
        q.queues.find? (fun x => x.num == d.faultQ) = some t ∧ (q.dieAt die).batch = d.spare ∧ (q.dieAt die).spare = [] ∧
        (q.dieAt die).flushing ≠ [] ∧ ∀ b ∈ (q.dieAt die).flushing, b.length = 32 ∧ fieldAt b 0x14 4 = d.seq % 2 ^ 32) ∧
    (∀ (t : TaskQueue) (b : List Byte), die < 8 → d.lehrEn = true → s.queues.find? (fun x => x.num == d.faultQ) = some t →
      t.closed = false → d.flushing = [b] → d.merge = [] → room t → ∃ q : State,
      exec (.lehrBatchFlush die) s = .next q ∧ q = { s with queues := q.queues, dies := q.dies } ∧
        q.queues.find? (fun x => x.num == d.faultQ) = some { t with entries := t.entries ++ [⟨b, none, 0⟩] } ∧
        q.dieAt die = { d with flushing := [] }) ∧
    (∀ (t : TaskQueue) (e : QueueEntry) (es : List QueueEntry) (r : Reply) (ks : List MergeKey), die < 8 → d.lehrEn = true →
      s.queues.find? (fun x => x.num == d.replyQ) = some t → t.entries = e :: es → replyOf e.bytes = some r →
      s.crew.key ≠ CrewKey.none → s.crews = [] → s.crew.agents = [] → s.crew.copies = [] → s.crew.marver.queue = [] →
      s.self.replay = [] → s.self.streams = [] → s.self.splits = [] → s.self.park = [] → s.self.cur.wait = .parked ks → ks ≠ [] →
      (∀ k ∈ ks, k.die = die ∧ k.ctx = r.ctx ∧ r.va ≤ k.page ∧ k.page < r.va + 65536 * r.pages ∧
        ∃ m ∈ d.merge, m.key = k) → ∃ q : State,
      exec (if r.fail then .faultReplyFail die else .faultReplyRetry die) s = .next q ∧
        exec (if r.fail then .faultReplyRetry die else .faultReplyFail die) s = .next s ∧
        q.self.cur.wait = .none ∧ q.self.regs = s.self.regs ∧ q.self.cur.pc = s.self.cur.pc ∧
        q.self.cur.failed = (if r.fail then s.self.cur.failed ++ ks else s.self.cur.failed) ∧
        (∀ m ∈ (q.dieAt die).merge, m ∈ d.merge ∧ m.key ∉ ks) ∧
        q.queues.find? (fun x => x.num == d.replyQ) = some { t with entries := es } ∧ q.mem = s.mem ∧ q.dirty = s.dirty) ∧
    ∀ (s0 : State) (u : AgentKey) (slot : Nat) (c : Cause) (v : DWord), s0.focus u slot = some s →
      s.self.imprecise = some (c, v) →
      (s.self.tl = 0 → exec (.impreciseTrapTaken u slot) s0 = .next
        ((s.mapSelf fun a => { a with imprecise := none }).raise ⟨c, v, s.self.cur.lanes, true, false⟩)) ∧
      (s.self.tl ≠ 0 → exec (.impreciseTrapTaken u slot) s0 = .next s0)

/-- R18, R307, R354, R355, R358: a valid bind record with a reserved bit, of a context that is not live, or for a logical cluster
that is not this one, is rejected: its slot is not valid,
SLOTREJ names it, and the Headstock is told; one that matches stands in its slot. The core map is the one that the context's
descriptor names now (R307, R308). A placement reads the descriptor, and a crew that fits comes to its cluster as its kernel's
header and the descriptor say; one that does not fit waits, with every slot behind it. A launch whose context's descriptor is
refused ends there, while none of its crews has run. -/
def Parts.CrewBinding : Prop :=
  ∀ (s : State) (die cluster slot : Nat) (r : List Byte), die < 8 → cluster < 12 → slot < 16 → r.length = 32 →
    let at_ (q : State) : Option (List Byte) := ((q.dieAt die).slots.find? fun e => e.1 == 16 * cluster + slot).map (·.2)
    (recValid r = false → ∃ q : State, exec (.bindRecordWrite die cluster slot r) s = .next q ∧ at_ q = some r ∧
      q = { s with dies := q.dies }) ∧
    (recValid r = true → (s.ctxAt (recKey r).ctx = none ∨ recReserved r = true ∨
      ∃ c, s.ctxAt (recKey r).ctx = some c ∧ ∀ e, s.mapEntry (s.ctxNow c) (recLcl r) = some e →
        e.socket ≠ die ∨ e.cluster ≠ cluster) → ∃ (q : State) (b : List Byte),
      exec (.bindRecordWrite die cluster slot r) s = .next q ∧ at_ q = some b ∧ recValid b = false ∧
      recKey b = recKey r ∧ (cluster, slot) ∈ (q.dieAt die).rejected ∧
      q.outbox = s.outbox ++ [.headstock (.rejected die cluster slot)] ∧ q = { s with dies := q.dies, outbox := q.outbox }) ∧
    (∀ (c : Context) (l : Launch) (e : MapEntry), recValid r = true → recReserved r = false →
      s.ctxAt (recKey r).ctx = some c → s.mapEntry (s.ctxNow c) (recLcl r) = some e → e.socket = die → e.cluster = cluster →
      c.launch (recKey r).launch = some l → l.holds ((recKey r).sheet, (recKey r).crew) = true → l.trec = false →
      l.trep = false → ∃ q : State, exec (.bindRecordWrite die cluster slot r) s = .next q ∧ at_ q = some r ∧
      q = { s with dies := q.dies, ctx := q.ctx, ctxs := q.ctxs }) ∧
    (firstSlot ((s.validSlots die cluster).filter fun e => (s.crewAt (recKey e.2)).isNone) = none →
      exec (.crewPlacement die cluster) s = .next s) ∧
    (∀ (c : Context) (l : Launch),
      firstSlot ((s.validSlots die cluster).filter fun x => (s.crewAt (recKey x.2)).isNone) = some (slot, r) →
      s.readDescriptor (recKey r).ctx = none → recReserved r = false →
      ((s.reload (recKey r).ctx).ctxAt (recKey r).ctx).map (s.reload (recKey r).ctx).ctxNow = some c →
      (s.reload (recKey r).ctx).launchOf (recKey r) = some l → l.placed = [] →
      ∃ q : State, exec (.crewPlacement die cluster) s = .next q ∧ q.mem = s.mem ∧ q.crews = s.crews ∧
        ∀ x, q.ctxAt (recKey r).ctx = some x → ∀ y ∈ x.launches, y.num ≠ l.num) ∧
    ∀ (c : Context) (l : Launch) (e : MapEntry) (u : State) (h : Header),
      firstSlot ((s.validSlots die cluster).filter fun x => (s.crewAt (recKey x.2)).isNone) = some (slot, r) →
      s.recRejected die cluster r = false → (s.readDescriptor (recKey r).ctx).isSome = true →
      let s1 := s.reload (recKey r).ctx
      (s1.ctxAt (recKey r).ctx).map s1.ctxNow = some c → c.launch (recKey r).launch = some l →
      s1.mapEntry c (recLcl r) = some e → (∀ x ∈ c.saved, x.key ≠ recKey r) →
      l.started ((recKey r).sheet, (recKey r).crew) = false → l.trep = false → s1.header c l.kernel = (u, some h) →
      (u.fits e h.shape = false → exec (.crewPlacement die cluster) s = .next s1) ∧
      (u.fits e h.shape = true → ∃ (q : State) (k : Crew), exec (.crewPlacement die cluster) s = .next q ∧
        q.crews = u.crews ++ [k] ∧ k.key = recKey r ∧ k.socket = e.socket ∧ k.cluster = e.cluster ∧ k.lcl = recLcl r ∧
        k.prio = recPrio r ∧ k.agents.length = h.gangs * h.groups + h.gaffers ∧ k.gangs.length = h.gangs ∧
        k.groups = h.groups ∧ k.budget = h.budget ∧ k.held = c.held ∧ k.area = none ∧
        (∀ a ∈ k.agents, a.cur.pc = BitVec.ofNat 64 (if a.unit.gaffer then h.gentry else h.entry) ∧ a.tl = 0 ∧
          a.cur.mask = (if a.unit.gaffer then 1 else Mask.all) ∧ a.regs.v.length = if a.unit.gaffer then 0 else h.budget) ∧
        q.outbox = u.outbox ++ [.headstock (.placed (recKey r) die cluster)] ∧ q.mem = u.mem ∧ q.dirty = u.dirty)

/-- R18, R358, R364: CREW_RETIRE takes a crew of the front away when all of its units have retired, its queued stores, copies and
REDPs are done and its Marver has no operation left; until then nothing happens, but that a stopped operation of such a crew is
discarded as by MSTEP.dis. -/
def Parts.CrewRetirement : Prop :=
  ∀ s : State,
    let k := s.crew.key
    let c := s.frontCrew
    let done : Prop := (∀ a ∈ c.agents, a.live = 0 ∧ a.replay = []) ∧ s.crew.copies = [] ∧ ∀ f ∈ s.redps, f.crew ≠ k
    k ≠ CrewKey.none →
    (¬ done → exec (.crewRetire k) s = .next s) ∧
    (done → s.crew.marver.queue ≠ [] → s.crew.marver.stopped = false → exec (.crewRetire k) s = .next s) ∧
    (∀ o, done → s.crew.marver.queue = [o] → s.crew.marver.stopped = true → o.state = .stopped → o.barrier = none →
      ∃ q : State, exec (.crewRetire k) s = .next q ∧ q.crew.marver.queue = [] ∧ q.crew.marver.stopped = false ∧
        q.crew.key = k ∧ q.crews = s.crews ∧ q.self = s.self ∧ q.mem = s.mem ∧ q.dirty = s.dirty) ∧
    (done → s.crew.marver.queue = [] → ∃ q : State, exec (.crewRetire k) s = .next q ∧ q.crew = Crew.empty ∧
      q.crews = s.crews ∧ ∀ d < 10, ∀ e ∈ (q.dieAt d).slots, recValid e.2 = true → recKey e.2 ≠ k)

/-- R24, R25: a rotation parks the split that has held its slot longest, on a tie the one with the lower lowest lane, among the
parked paths in the order of their lanes, and gives its slot to the next of those in lane order after the one that the last
rotation resumed, or else to the first. Two splits at one PC with one return stack merge in the lower slot, and a split with a
parked path in its own, with the lanes of both; a slot that comes free goes to the first parked path. Lanes that alone execute the
next instruction stay those of both. Registers and memory stand. Which parked entry the first rotation of a group takes is the
model's choice (log entry 63), and so is that a path is the handling split when it merges with it (log entry 46). -/
def Parts.PathEvents : Prop :=
  ∀ (s : State) (p x : Path),
    let u := s.selfKey
    let a := s.self
    let sole (q : State) : Prop := q = { s with self := q.self, crew := q.crew, crews := q.crews } ∧ q.self.regs = a.regs
    let boundary (y : Path) : Prop := y.mask ≠ 0 ∧ y.pfx.count = 0 ∧ (y.wait = .none ∨ y.wait = .poll) ∧ y.failed = []
    let joined : Path := { a.cur with
      mask := a.cur.mask ||| x.mask
      only := if a.cur.only = none ∧ x.only = none then none else some (a.cur.lanes ||| x.lanes)
      handler := a.cur.handler || x.handler }
    (a.run = none → s.crew.key ≠ CrewKey.none → s.crew.area = none →
      (∀ y ∈ a.paths, y.mask ≠ 0 → (∀ h d, y.wait ≠ .copy h d) ∧ ∀ m, y.wait ≠ .tokens m) →
      (a.park.Pairwise fun y z => y.mask.lowest < z.mask.lowest) → p ∈ a.park →
      ((a.rotLow < p.mask.lowest ∧ ∀ y ∈ a.park, a.rotLow < y.mask.lowest → p.mask.lowest ≤ y.mask.lowest) ∨
        ∀ y ∈ a.park, y.mask.lowest ≤ a.rotLow ∧ p.mask.lowest ≤ y.mask.lowest) →
      x ∈ a.cur :: a.splits → x.mask ≠ 0 → x.pfx.count = 0 →
      (∀ y ∈ a.cur :: a.splits, y.mask ≠ 0 → y ≠ x →
        x.since < y.since ∨ (x.since = y.since ∧ x.mask.lowest < y.mask.lowest)) → ∃ q : State,
      exec (.parkRotation u) s = .next q ∧ sole q ∧ q.self.cur = { p with slot := x.slot, since := s.tick } ∧
        (∀ y ∈ a.cur :: a.splits, y.mask ≠ 0 → y.slot ≠ x.slot → y ∈ q.self.splits) ∧
        (∀ y ∈ q.self.splits, y ∈ a.cur :: a.splits ∧ y.slot ≠ x.slot) ∧ q.self.rotLow = p.mask.lowest ∧
        (∀ y, y ∈ q.self.park ↔ y = x ∨ (y ∈ a.park ∧ y ≠ p)) ∧
        q.self.park.Pairwise fun y z => y.mask.lowest ≤ z.mask.lowest) ∧
    (a.park = [] → exec (.parkRotation u) s = .next s) ∧
    (a.run = none → boundary a.cur → boundary x →
      (a.splits = [x] → a.cur.slot < x.slot →
        (a.cur.pc = x.pc → a.cur.stack = x.stack → ∃ q : State,
          exec (.pathMerge u (.slot a.cur.slot) (.slot x.slot)) s = .next q ∧ sole q ∧ q.self.cur = joined ∧
          (a.park = [] → q.self.splits = [] ∧ q.self.park = []) ∧
          ∀ ys, a.park = p :: ys → q.self.splits = [{ p with slot := x.slot, since := s.tick }] ∧ q.self.park = ys) ∧
        (a.cur.pc ≠ x.pc ∨ a.cur.stack ≠ x.stack →
          exec (.pathMerge u (.slot a.cur.slot) (.slot x.slot)) s = .next s)) ∧
      (a.splits = [] → a.park = [x] →
        (a.cur.pc = x.pc → a.cur.stack = x.stack → ∃ q : State,
          exec (.pathMerge u (.slot a.cur.slot) (.parked x.mask.lowest)) s = .next q ∧ sole q ∧ q.self.cur = joined ∧
          q.self.splits = [] ∧ q.self.park = []) ∧
        (a.cur.pc ≠ x.pc ∨ a.cur.stack ≠ x.stack →
          exec (.pathMerge u (.slot a.cur.slot) (.parked x.mask.lowest)) s = .next s)))

/-- R24, R25, R354, R355, R358: crews bound, placed and retired; paths rotated and merged. -/
def Obligations.CrewEvents : Prop := Parts.CrewBinding ∧ Parts.CrewRetirement ∧ Parts.PathEvents

/-! ### The pod -/

/-- R391, R393, R395, R398 to R400: packets that arrive. One of this part crosses to the hub when its die's link has a credit: the
hub holds one for this part, with the fence markers of its release entered, and queues one for another for the pod port of its
route, counted for its unit, or has it wait without a free counter. A packet on a pod in-port that is one of I/O die 9 waits for a
credit of that die's link to the hub. At the hub, one at or below what has been delivered is dropped, counted, and acknowledged to
the part that sent it (log entry 55), and so is one in transit whose hop count would pass 31; any other in transit goes on to the
port of its route. A frame with the extension header on any other port is dropped and counted. -/
def Parts.HubArrivals : Prop :=
  ∀ (s : State) (p : OrdPacket) (port : Nat),
    (∀ d < 8, (∀ e < d, (s.dieAt e).unpassed.head? ≠ some p) → ∀ rest, (s.dieAt d).unpassed = p :: rest →
      (s.canSend (.interposer d 0) 1 = false → exec (.orderedPacketArrival none p) s = .next s) ∧
      (s.canSend (.interposer d 0) 1 = true → ∀ u, p.agent = some u → s.hub.waitsFor u = false → ∃ q : State,
        let c := s.creditOf (.interposer d 0) 1
        let release : Prop := ∀ v n k, p.body ≠ .probe v n k
        exec (.orderedPacketArrival none p) s = .next q ∧
        (p.dest = s.pod.part → s.hub.enabled = false → s.hub.ports = [] →
          q = { s with hub := q.hub, dies := q.dies, credits := q.credits } ∧
          q.hub = { s.hub with held := s.hub.held ++ [p], markers := q.hub.markers } ∧
          (¬ release → q.hub.markers = s.hub.markers) ∧ (∀ m ∈ s.hub.markers, m ∈ q.hub.markers) ∧
          (release → ∀ f ∈ s.fences, f.unit = u → (u, f.part) ∈ q.hub.markers) ∧
          q.dieAt d = { s.dieAt d with unpassed := rest } ∧ (∀ e < 10, e ≠ d → q.dieAt e = s.dieAt e) ∧
          q.creditOf (.interposer d 0) 1 =
            { c with sent := (c.sent + 1) % 65536, cred := c.cred - 1, freed := (c.freed + 1) % 65536 }) ∧
        (∀ n, p.dest ≠ s.pod.part → s.pod.members.contains p.dest = true → s.pod.outPort p.dest = some n →
          (s.fenceRoom u p.dest = true → q.hub.out = s.hub.out ++ [(n, p)] ∧ q.hub.waiting = s.hub.waiting ∧
            q.fenceCount u p.dest = s.fenceCount u p.dest + 1) ∧
          (s.fenceRoom u p.dest = false → q.hub.out = s.hub.out ∧ q.hub.waiting = s.hub.waiting ++ [.packet p] ∧
            q.hub.markers = s.hub.markers ∧ q.fences = s.fences)))) ∧
    (port < 32 → s.pod.podPorts.testBit port = true → s.pod.cbfc = 0 → s.flits = [] → s.hub.relays = [] →
      (16 ≤ port → s.canSend (.interposer 9 0) 1 = false → exec (.orderedPacketArrival (some port) p) s =
        .next { s with hub := { s.hub with relays := [(port, p)] } }) ∧
      (port < 16 ∨ s.canSend (.interposer 9 0) 1 = true → ∃ q : State,
        let dropped : Prop := q.hub.lateDrop = if s.hub.lateDrop < 0xFFFFFFFF then s.hub.lateDrop + 1 else 0xFFFFFFFF
        let acked : Prop :=
          q.outbox = s.outbox ++ if p.srcPart = s.pod.part then [] else [.orderedAck p.srcPart p.stamp p.source]
        exec (.orderedPacketArrival (some port) p) s = .next q ∧ (port < 16 → q.credits = s.credits) ∧
        (p.stamp ≤ s.hub.top → dropped ∧ acked ∧
          q = { s with hub := { s.hub with lateDrop := q.hub.lateDrop }, outbox := q.outbox, credits := q.credits }) ∧
        (s.hub.top < p.stamp → p.dest ≠ s.pod.part → ∀ n, s.pod.outPort p.dest = some n →
          (31 ≤ p.hops → dropped ∧ acked ∧ q.hub.out = s.hub.out) ∧
          (p.hops < 31 → q.hub.out = s.hub.out ++ [(n, { p with agent := none })] ∧ q.outbox = s.outbox ∧
            q.hub.lateDrop = s.hub.lateDrop)))) ∧
    (port < 32 → s.pod.podPorts.testBit port = false → ∃ q : State,
      exec (.orderedPacketArrival (some port) p) s = .next q ∧ q = { s with frameDrops := q.frameDrops } ∧
      let count (t : State) (n : Nat) : Nat := ((t.frameDrops.find? fun e => e.1 == n).map (·.2)).getD 0
      count q port = count s port + 1 ∧ ∀ n, n ≠ port → count q n = count s n)

/-- R392, R394, R395: watermarks. A flit in order that lowers no entry becomes its port's vector, and ends a stall where the
least entry rises; a beacon sends the vector that the port may promise, where its channel lets a flit through; a die's promise
never falls. While the hub holds nothing, these deliver nothing. -/
def Parts.HubWatermarks : Prop :=
  ∀ (s : State) (port : Nat) (x : PodPort),
    let least (v : List Nat) : Nat := v.foldl min (v.headD 0)
    (s.pod.cbfc = 0 → s.hub.ports = [x] → x.num = port → s.hub.held = [] → ∀ v, v.length = x.vec.length →
      ((∀ i < v.length, x.vec.getD i 0 ≤ v.getD i 0) → ∃ q : State,
        exec (.watermarkFlitReceive port true v) s = .next q ∧
        q.hub.ports = [if least x.vec < least v then { x with vec := v, advanced := (s.dieAt 8).ptime, stalled := false }
          else { x with vec := v }] ∧ q.hub.held = [] ∧ q.outbox = s.outbox ∧ q.mem = s.mem ∧ q.dirty = s.dirty) ∧
      ((∃ i < v.length, v.getD i 0 < x.vec.getD i 0) → exec (.watermarkFlitReceive port true v) s = .next s) ∧
      exec (.watermarkFlitReceive port false v) s = .next s) ∧
    (s.pod.cbfc = 0 → s.flits = [] → s.hub.ports.find? (fun y => y.num == port) = some x →
      ((s.dieAt 8).ptime < x.sentAt + 16000 → exec (.watermarkBeacon port) s = .next s) ∧
      (x.sentAt + 16000 ≤ (s.dieAt 8).ptime → ∃ q : State, exec (.watermarkBeacon port) s = .next q ∧
        q.outbox = s.outbox ++ [.watermark port (s.outVector port)] ∧ q = { s with hub := q.hub, outbox := q.outbox } ∧
        q.hub.ports = s.hub.ports.map fun y =>
          if y.num = port then { y with sent := s.outVector port, sentAt := (s.dieAt 8).ptime } else y)) ∧
    (∀ d < 8, s.hub.held = [] → ∃ q : State, exec (.computeDiePromise d) s = .next q ∧
      (s.dieAt d).promise ≤ (q.dieAt d).promise ∧
      ((s.dieAt d).unpassed = [] → (q.dieAt d).promise = max (s.dieAt d).promise ((s.dieAt d).ptime - 1)) ∧
      (∀ e < 10, e ≠ d → q.dieAt e = s.dieAt e) ∧ q.hub.ports = s.hub.ports ∧ q.mem = s.mem ∧ q.dirty = s.dirty)

/-- R393: delivery. What the hub delivers up to is the least of the promises, the entries of its ports, and one below each
packet that waits to leave or to be accepted. When a promise raises it, the held packets up to it are delivered in the order of
stamp, then source, and the others stay; none is delivered while the hub is disabled or a port is stalled. -/
def Parts.HubDelivery : Prop :=
  ∀ (s : State) (d : Nat), d < 8 →
    let up (x : Die) : Die := { x with promise := max x.promise (leastOf (x.ptime :: x.unpassed.map (·.stamp)) - 1) }
    let s1 := s.mapDie d up
    let terms := s1.promises ++ s1.hub.ports.flatMap (·.vec) ++
      (s1.hub.out.map (·.2) ++ s1.hub.behind).map fun q => q.stamp - 1
    (s1.watermark ∈ terms ∧ ∀ x ∈ terms, s1.watermark ≤ x) ∧
    ((s.hub.enabled = false ∨ ∃ y ∈ s.hub.ports, y.stalled = true) → exec (.computeDiePromise d) s = .next s1) ∧
    (s.hub.enabled = true → (∀ y ∈ s.hub.ports, y.stalled = false) →
      let w := s1.watermark
      let s2 := { s1 with hub := { s1.hub with top := max s1.hub.top w } }
      ((∀ p ∈ s.hub.held, w < p.stamp) → exec (.computeDiePromise d) s = .next s2) ∧
      ∀ p r, s.hub.held = [p, r] ∨ s.hub.held = [r, p] →
        p.stamp < r.stamp ∨ (p.stamp = r.stamp ∧ p.source < r.source) →
        let s3 := State.deliverOne { s2 with hub := { s2.hub with held := [r] } } p
        (p.stamp ≤ w → w < r.stamp → exec (.computeDiePromise d) s = .next s3) ∧
        (r.stamp ≤ w → exec (.computeDiePromise d) s =
          .next (State.deliverOne { s3 with hub := { s3.hub with held := [] } } r)))

/-- R395, R396: stalls. A port that has held a packet back for the stall time is stalled, and the host is told. The probes that the
hub then holds are withdrawn, as is a probe that comes to it while a port is stalled: the DOPEN raises WATERMARK_STALL where it
stands, with the lowest stalled port and its least entry. -/
def Parts.HubStalls : Prop :=
  ∀ (s : State) (p : OrdPacket) (port : Nat) (x : PodPort),
    let least (v : List Nat) : Nat := v.foldl min (v.headD 0)
    (s.hub.ports.find? (fun y => y.num == port) = some x → s.hub.held = [p] → (∀ u n k, p.body ≠ .probe u n k) →
      (p.stamp ≤ least x.vec → exec (.portStall port) s = .next s) ∧
      (least x.vec < p.stamp → x.stalled = false →
        x.advanced + 16000 * (s.hub.ordctl.toNat % 65536) ≤ (s.dieAt 8).ptime → ∃ q : State,
        exec (.portStall port) s = .next q ∧ q.outbox = s.outbox ++ [.event 8 1 port] ∧ q.hub.held = [p] ∧
        q.hub.ports = s.hub.ports.map (fun y => if y.num = port then { y with stalled := true } else y))) ∧
    ∀ (h : HeldInsn) (n name : Nat), p.body = .probe s.selfKey n name → s.self.cur.wait = .probe h p.stamp →
      s.hub.ports = [x] → x.num = port → least x.vec < p.stamp →
      let trapped (q : State) : Prop := q.hub.held = [] ∧ q.self.regs = s.self.regs ∧ q.self.cur.pc = h.addr ∧
        q.self.cur.pfx = h.pfx ∧ q.mem = s.mem ∧ q.dirty = s.dirty ∧ q.self.cur.wait = .trap
          ⟨.watermarkStall, BitVec.ofNat 64 (port * 2 ^ 56 + least x.vec % 2 ^ 56), s.self.cur.lanes, false, false⟩
      (s.hub.held = [p] → x.stalled = false →
        x.advanced + 16000 * (s.hub.ordctl.toNat % 65536) ≤ (s.dieAt 8).ptime →
        ∃ q : State, exec (.portStall port) s = .next q ∧ trapped q) ∧
      (s.hub.held = [] → s.hub.waiting = [] → x.stalled = true → s.canSend (.interposer 0 0) 1 = true → p.dest = s.pod.part →
        (s.dieAt 0).unpassed = [p] → ∃ q : State, exec (.orderedPacketArrival none p) s = .next q ∧ trapped q)

/-- R287, R390 to R396, R399, R400: the ordered class at the hub: what arrives, what is promised, what is delivered and in which
order, and what a stall withdraws. -/
def Obligations.OrderedHub : Prop :=
  Parts.HubArrivals ∧ Parts.HubWatermarks ∧ Parts.HubDelivery ∧ Parts.HubStalls

/-- R389, R390, R398, R399: a bulk access of another part is performed in its context and acknowledged, and raises the horizons
of the compute dies by what its release carries; an acknowledgement lowers its group's counter; an audit tells FREED, to the
other end of a pod link, or, of an interposer link, to the part itself, intact or not; and what one says replaces the credits of
its channel, counts a correction, and retrains the link when more buffers are in use than it has. The empty acknowledgement of
an access of a context that is not live, and of a load that fails, is the model's choice (log entry 42), and so is that a link
that is retrained keeps its credits (log entry 41). -/
def Obligations.FabricEvents : Prop :=
  ∀ (s : State) (p : FabricPacket) (c : Context) (u : AgentKey) (part : Nat) (l : LinkKey) (vc freed : Nat),
    let acked (q : State) (bs : List Byte) : State := q.sendTo p.srcPart 0 (.fabricAck p.srcPart p.id bs)
    (s.pod.cbfc = 0 → s.ctxAt p.ctx = none → exec (.fabricAccessArrival p) s = .next (acked s [])) ∧
    (s.pod.cbfc = 0 → s.flits = [] → acked s [] = { s with outbox := s.outbox ++ [.fabricAck p.srcPart p.id []] }) ∧
    (s.pod.cbfc = 0 → s.ctxAt p.ctx = some c → ∃ s1 : State, s1 = { s with dies := s1.dies } ∧
      (∀ d < 8, s1.dieAt d = { s.dieAt d with horizon := max (s.dieAt d).horizon p.horizon }) ∧
      s1.dieAt 8 = s.dieAt 8 ∧ s1.dieAt 9 = s.dieAt 9 ∧
      (∀ va bs q ok, p.access = .store va bs → s1.virtWrite c va.toNat bs = (q, ok) →
        exec (.fabricAccessArrival p) s = .next (acked q [])) ∧
      ∀ va n q r, p.access = .load va n → s1.virtRead c va.toNat n = (q, r) →
        exec (.fabricAccessArrival p) s = .next (acked q (r.getD []))) ∧
    (s.fenceCount u part = 0 → exec (.fabricAck u part) s = .next s) ∧
    let idle : Prop := s.flits = [] ∧ s.hub.out = [] ∧ s.hub.enq = [] ∧ s.hub.markers = [] ∧ s.hub.waiting = [] ∧
      s.hub.relays = []
    (0 < s.fenceCount u part → s.pod.cbfc = 0 → idle → ∃ q : State, exec (.fabricAck u part) s = .next q ∧
      q = { s with fences := q.fences, free := q.free } ∧ q.fenceCount u part = s.fenceCount u part - 1 ∧
      ∀ v n, ¬ (v = u ∧ n = part) → q.fenceCount v n = s.fenceCount v n) ∧
    (s.pod.credited l = true → vc < 4 →
      let x := s.creditOf l vc
      let n : Int := x.buffers - (((x.sent + 65536 - freed % 65536) % 65536 : Nat) : Int)
      (∀ n, l = .port n → exec (.creditAuditSend l vc) s = .next { s with outbox := s.outbox ++ [.audit l vc x.freed] }) ∧
      (∀ d n, l = .interposer d n → ∃ b, exec (.creditAuditSend l vc) s =
        .next { s with free := s.free + 1, inputs := s.inputs ++ [.creditAuditReceive l vc x.freed b] }) ∧
      exec (.creditAuditReceive l vc freed false) s = .next s ∧
      (n < 0 → ∃ q : State, exec (.creditAuditReceive l vc freed true) s = .next q ∧ q = { s with outbox := q.outbox } ∧
        .retrain l ∈ q.outbox) ∧
      (0 ≤ n → idle → ∃ q : State,
        exec (.creditAuditReceive l vc freed true) s = .next q ∧ q = { s with credits := q.credits, credfix := q.credfix } ∧
        q.creditOf l vc = { x with cred := n.toNat } ∧ (n.toNat = x.cred → q.credfix = s.credfix) ∧
        let count (t : State) : Nat := ((t.credfix.find? fun e => e.1 == l).map (·.2)).getD 0
        (n.toNat ≠ x.cred → count q = count s + 1)))

/-! ### Errors -/

/-- R369, R380 to R382, R426: hardware errors. A corrected error is told to the Headstock and changes nothing; an uncorrectable
one poisons its sector; one in the state of a core on which no crew runs fences the core; a fatal error removes its context and
reports it once; a power limit lowers a die's clock, which changes time alone. -/
def Obligations.HardwareErrors : Prop :=
  ∀ (s : State) (die pa ca : Nat) (e : CoreError) (c : CtxId) (x : Context),
    (die < 10 → exec (.correctedError die) s = .next { s with outbox := s.outbox ++ [.headstock (.corrected die)] } ∧
      exec (.powerThermalLimit die) s = .next s) ∧
    (canonical pa = some ca → ∃ q : State, exec (.uncorrectableDataError pa) s = .next q ∧ q = { s with pois := q.pois } ∧
      ∀ k, k ∈ q.pois ↔ k ∈ s.pois ∨ k = ca / 256) ∧
    (e.die < 8 → e.cluster < 12 → ∀ j < 4, e.core = some j → s.allCrews = [] → s.allCtxs = [] → e.badUnits = [] →
      e.badSectors = [] → e.badLines = [] → s.self = Agent.empty → s.crew = Crew.empty → ∃ q : State,
      exec (.coreStateError e) s = .next q ∧ q = { s with fenced := q.fenced, outbox := q.outbox } ∧
        (∀ f, f ∈ q.fenced ↔ f ∈ s.fenced ∨ f = (e.die, 4 * e.cluster + j)) ∧
        q.outbox = s.outbox ++ [.headstock (.fenced e.die e.cluster (some j))]) ∧
    (s.ctxAt c = none → exec (.fatalError c) s = .next s) ∧
    (s.ctx = x → x.id = c → c ≠ CtxId.none → x.kill = false → s.ctxs = [] → s.crew.key = CrewKey.none → s.crews = [] →
      x.launches = [] → ∃ (q : State) (r : List Byte), exec (.fatalError c) s = .next q ∧ q.allCtxs = [] ∧
      q.outbox = s.outbox ++ [.kill r] ∧ fieldAt r 0 4 = c.word.toNat)

/-! ### What every step keeps -/

/-- R1, R77, R104: from any state whose memories are in their canonical form, every step that gives a next state leaves them so:
DRAM, cached bytes, the staging buffer, every scratchpad, every accumulator. -/
def Obligations.StepKeepsMemoryForm : Prop := ∀ s t : State, s.MemoryForm → step s = .next t → t.MemoryForm

/-- R305, R311: no instruction that a context below PL2 issues changes CTBASE or PARTMAP, and none at PL0 changes its own
privilege level, its page-table root or its trap vectors. -/
def Obligations.PrivilegeHolds : Prop :=
  ∀ (s t : State) (i : Instr), i.isWord = true → s.ctx.id ≠ CtxId.none → (∀ x ∈ s.ctxs, x.id ≠ s.ctx.id) →
    exec i s = .next t →
    (s.ctx.pl < 2 → t.ctbase = s.ctbase ∧ t.partmap = s.partmap) ∧
    (s.ctx.pl = 0 → ∃ x, t.ctxAt s.ctx.id = some x ∧ x.pl = 0 ∧ x.ptroot = s.ctx.ptroot ∧ x.tvec1 = s.ctx.tvec1 ∧
      x.tvec2 = s.ctx.tvec2)
end

