-- ==== Sys2Proof/Laws/Decode.lean ====
section
/-!
SUPPORT. The fields of a word laid out by the encoder read back: one lemma per layout and field.
-/
namespace Sys2Proof

@[simp] theorem fMaj_mkF3 (maj : BitVec 7) (g : BitVec 3) (d a b : BitVec 7) (s : BitVec 1) : fMaj (mkF3 maj g d a b s) = maj := by
  unfold fMaj mkF3; ext i hi; simp [BitVec.getElem_extractLsb']; grind

@[simp] theorem fG_mkF3 (maj : BitVec 7) (g : BitVec 3) (d a b : BitVec 7) (s : BitVec 1) : fG (mkF3 maj g d a b s) = g := by
  unfold fG mkF3; ext i hi; simp [BitVec.getElem_extractLsb']; grind

@[simp] theorem fD_mkF3 (maj : BitVec 7) (g : BitVec 3) (d a b : BitVec 7) (s : BitVec 1) : fD (mkF3 maj g d a b s) = d := by
  unfold fD mkF3; ext i hi; simp [BitVec.getElem_extractLsb']; grind

@[simp] theorem fA_mkF3 (maj : BitVec 7) (g : BitVec 3) (d a b : BitVec 7) (s : BitVec 1) : fA (mkF3 maj g d a b s) = a := by
  unfold fA mkF3; ext i hi; simp [BitVec.getElem_extractLsb']; grind

@[simp] theorem fB_mkF3 (maj : BitVec 7) (g : BitVec 3) (d a b : BitVec 7) (s : BitVec 1) : fB (mkF3 maj g d a b s) = b := by
  unfold fB mkF3; ext i hi; simp [BitVec.getElem_extractLsb']; grind

@[simp] theorem fS_mkF3 (maj : BitVec 7) (g : BitVec 3) (d a b : BitVec 7) (s : BitVec 1) : fS (mkF3 maj g d a b s) = s := by
  unfold fS mkF3; ext i hi; simp [BitVec.getElem_extractLsb']; grind

@[simp] theorem fMaj_mkFI (maj : BitVec 7) (g : BitVec 3) (d a : BitVec 7) (i : BitVec 8) : fMaj (mkFI maj g d a i) = maj := by
  unfold fMaj mkFI; ext i hi; simp [BitVec.getElem_extractLsb']; grind

@[simp] theorem fG_mkFI (maj : BitVec 7) (g : BitVec 3) (d a : BitVec 7) (i : BitVec 8) : fG (mkFI maj g d a i) = g := by
  unfold fG mkFI; ext i hi; simp [BitVec.getElem_extractLsb']; grind

@[simp] theorem fD_mkFI (maj : BitVec 7) (g : BitVec 3) (d a : BitVec 7) (i : BitVec 8) : fD (mkFI maj g d a i) = d := by
  unfold fD mkFI; ext i hi; simp [BitVec.getElem_extractLsb']; grind

@[simp] theorem fA_mkFI (maj : BitVec 7) (g : BitVec 3) (d a : BitVec 7) (i : BitVec 8) : fA (mkFI maj g d a i) = a := by
  unfold fA mkFI; ext i hi; simp [BitVec.getElem_extractLsb']; grind

@[simp] theorem fI_mkFI (maj : BitVec 7) (g : BitVec 3) (d a : BitVec 7) (i : BitVec 8) : fI (mkFI maj g d a i) = i := by
  unfold fI mkFI; ext i hi; simp [BitVec.getElem_extractLsb']; grind

@[simp] theorem fMaj_mkFM (maj : BitVec 7) (g : BitVec 3) (d : BitVec 7) (t : BitVec 3) (x : BitVec 7) (w : BitVec 3) (c : BitVec 2) : fMaj (mkFM maj g d t x w c) = maj := by
  unfold fMaj mkFM; ext i hi; simp [BitVec.getElem_extractLsb']; grind

@[simp] theorem fG_mkFM (maj : BitVec 7) (g : BitVec 3) (d : BitVec 7) (t : BitVec 3) (x : BitVec 7) (w : BitVec 3) (c : BitVec 2) : fG (mkFM maj g d t x w c) = g := by
  unfold fG mkFM; ext i hi; simp [BitVec.getElem_extractLsb']; grind

@[simp] theorem fD_mkFM (maj : BitVec 7) (g : BitVec 3) (d : BitVec 7) (t : BitVec 3) (x : BitVec 7) (w : BitVec 3) (c : BitVec 2) : fD (mkFM maj g d t x w c) = d := by
  unfold fD mkFM; ext i hi; simp [BitVec.getElem_extractLsb']; grind

@[simp] theorem fT_mkFM (maj : BitVec 7) (g : BitVec 3) (d : BitVec 7) (t : BitVec 3) (x : BitVec 7) (w : BitVec 3) (c : BitVec 2) : fT (mkFM maj g d t x w c) = t := by
  unfold fT mkFM; ext i hi; simp [BitVec.getElem_extractLsb']; grind

@[simp] theorem fX_mkFM (maj : BitVec 7) (g : BitVec 3) (d : BitVec 7) (t : BitVec 3) (x : BitVec 7) (w : BitVec 3) (c : BitVec 2) : fX (mkFM maj g d t x w c) = x := by
  unfold fX mkFM; ext i hi; simp [BitVec.getElem_extractLsb']; grind

@[simp] theorem fW_mkFM (maj : BitVec 7) (g : BitVec 3) (d : BitVec 7) (t : BitVec 3) (x : BitVec 7) (w : BitVec 3) (c : BitVec 2) : fW (mkFM maj g d t x w c) = w := by
  unfold fW mkFM; ext i hi; simp [BitVec.getElem_extractLsb']; grind

@[simp] theorem fC_mkFM (maj : BitVec 7) (g : BitVec 3) (d : BitVec 7) (t : BitVec 3) (x : BitVec 7) (w : BitVec 3) (c : BitVec 2) : fC (mkFM maj g d t x w c) = c := by
  unfold fC mkFM; ext i hi; simp [BitVec.getElem_extractLsb']; grind

@[simp] theorem fMaj_mkFMS (maj : BitVec 7) (g : BitVec 3) (d : BitVec 7) (t : BitVec 3) (x : BitVec 7) (q : BitVec 4) (p : BitVec 1) : fMaj (mkFMS maj g d t x q p) = maj := by
  unfold fMaj mkFMS; ext i hi; simp [BitVec.getElem_extractLsb']; grind

@[simp] theorem fG_mkFMS (maj : BitVec 7) (g : BitVec 3) (d : BitVec 7) (t : BitVec 3) (x : BitVec 7) (q : BitVec 4) (p : BitVec 1) : fG (mkFMS maj g d t x q p) = g := by
  unfold fG mkFMS; ext i hi; simp [BitVec.getElem_extractLsb']; grind

@[simp] theorem fD_mkFMS (maj : BitVec 7) (g : BitVec 3) (d : BitVec 7) (t : BitVec 3) (x : BitVec 7) (q : BitVec 4) (p : BitVec 1) : fD (mkFMS maj g d t x q p) = d := by
  unfold fD mkFMS; ext i hi; simp [BitVec.getElem_extractLsb']; grind

@[simp] theorem fT_mkFMS (maj : BitVec 7) (g : BitVec 3) (d : BitVec 7) (t : BitVec 3) (x : BitVec 7) (q : BitVec 4) (p : BitVec 1) : fT (mkFMS maj g d t x q p) = t := by
  unfold fT mkFMS; ext i hi; simp [BitVec.getElem_extractLsb']; grind

@[simp] theorem fX_mkFMS (maj : BitVec 7) (g : BitVec 3) (d : BitVec 7) (t : BitVec 3) (x : BitVec 7) (q : BitVec 4) (p : BitVec 1) : fX (mkFMS maj g d t x q p) = x := by
  unfold fX mkFMS; ext i hi; simp [BitVec.getElem_extractLsb']; grind

@[simp] theorem fQ_mkFMS (maj : BitVec 7) (g : BitVec 3) (d : BitVec 7) (t : BitVec 3) (x : BitVec 7) (q : BitVec 4) (p : BitVec 1) : fQ (mkFMS maj g d t x q p) = q := by
  unfold fQ mkFMS; ext i hi; simp [BitVec.getElem_extractLsb']; grind

@[simp] theorem fS_mkFMS (maj : BitVec 7) (g : BitVec 3) (d : BitVec 7) (t : BitVec 3) (x : BitVec 7) (q : BitVec 4) (p : BitVec 1) : fS (mkFMS maj g d t x q p) = p := by
  unfold fS mkFMS; ext i hi; simp [BitVec.getElem_extractLsb']; grind

@[simp] theorem fMaj_mkFB (maj : BitVec 7) (g : BitVec 3) (o : BitVec 22) : fMaj (mkFB maj g o) = maj := by
  unfold fMaj mkFB; ext i hi; simp [BitVec.getElem_extractLsb']; grind

@[simp] theorem fG_mkFB (maj : BitVec 7) (g : BitVec 3) (o : BitVec 22) : fG (mkFB maj g o) = g := by
  unfold fG mkFB; ext i hi; simp [BitVec.getElem_extractLsb']; grind

@[simp] theorem fOff_mkFB (maj : BitVec 7) (g : BitVec 3) (o : BitVec 22) : fOff (mkFB maj g o) = o := by
  unfold fOff mkFB; ext i hi; simp [BitVec.getElem_extractLsb']; grind

@[simp] theorem fMaj_mkFX (maj : BitVec 7) (op d a b m : BitVec 5) : fMaj (mkFX maj op d a b m) = maj := by
  unfold fMaj mkFX; ext i hi; simp [BitVec.getElem_extractLsb']; grind

@[simp] theorem fSub_mkFX (maj : BitVec 7) (op d a b m : BitVec 5) : fSub (mkFX maj op d a b m) = op := by
  unfold fSub mkFX; ext i hi; simp [BitVec.getElem_extractLsb']; grind

@[simp] theorem fD5_mkFX (maj : BitVec 7) (op d a b m : BitVec 5) : fD5 (mkFX maj op d a b m) = d := by
  unfold fD5 mkFX; ext i hi; simp [BitVec.getElem_extractLsb']; grind

@[simp] theorem fA5_mkFX (maj : BitVec 7) (op d a b m : BitVec 5) : fA5 (mkFX maj op d a b m) = a := by
  unfold fA5 mkFX; ext i hi; simp [BitVec.getElem_extractLsb']; grind

@[simp] theorem fB5_mkFX (maj : BitVec 7) (op d a b m : BitVec 5) : fB5 (mkFX maj op d a b m) = b := by
  unfold fB5 mkFX; ext i hi; simp [BitVec.getElem_extractLsb']; grind

@[simp] theorem fM5_mkFX (maj : BitVec 7) (op d a b m : BitVec 5) : fM5 (mkFX maj op d a b m) = m := by
  unfold fM5 mkFX; ext i hi; simp [BitVec.getElem_extractLsb']; grind

@[simp] theorem fMaj_mkFH (maj : BitVec 7) (k : BitVec 1) (y : BitVec 24) : fMaj (mkFH maj k y) = maj := by
  unfold fMaj mkFH; ext i hi; simp [BitVec.getElem_extractLsb']; grind

@[simp] theorem fK_mkFH (maj : BitVec 7) (k : BitVec 1) (y : BitVec 24) : fK (mkFH maj k y) = k := by
  unfold fK mkFH; ext i hi; simp [BitVec.getElem_extractLsb']; grind

@[simp] theorem fPay_mkFH (maj : BitVec 7) (k : BitVec 1) (y : BitVec 24) : fPay (mkFH maj k y) = y := by
  unfold fPay mkFH; ext i hi; simp [BitVec.getElem_extractLsb']; grind

@[simp] theorem hi_cond (c : BitVec 4) (p : BitVec 3) : (c ++ p).extractLsb' 3 4 = c := by
  ext i hi; simp [BitVec.getElem_extractLsb']; grind

@[simp] theorem lo_cond (c : BitVec 4) (p : BitVec 3) : (c ++ p).extractLsb' 0 3 = p := by
  ext i hi; simp [BitVec.getElem_extractLsb']; grind

@[simp] theorem hi_mod (c : BitVec 4) (p : BitVec 1) : (c ++ p).extractLsb' 1 4 = c := by
  ext i hi; simp [BitVec.getElem_extractLsb']; grind

@[simp] theorem lo_mod (c : BitVec 4) (p : BitVec 1) : (c ++ p).extractLsb' 0 1 = p := by
  ext i hi; simp [BitVec.getElem_extractLsb']; grind

@[simp] theorem hi_idle (z : BitVec 3) (q t : BitVec 1) : (z ++ q ++ t).extractLsb' 2 3 = z := by
  ext i hi; simp [BitVec.getElem_extractLsb']; grind

@[simp] theorem mid_idle (z : BitVec 3) (q t : BitVec 1) : (z ++ q ++ t).extractLsb' 1 1 = q := by
  ext i hi; simp [BitVec.getElem_extractLsb']; grind

@[simp] theorem lo_idle (z : BitVec 3) (q t : BitVec 1) : (z ++ q ++ t).extractLsb' 0 1 = t := by
  ext i hi; simp

/-- A part of the payload of an FR or FH word. -/
theorem payload_mkFH (maj : BitVec 7) (k : BitVec 1) (y : BitVec 24) (a n : Nat) (h : a + n ≤ 24) :
    (mkFH maj k y).extractLsb' a n = y.extractLsb' a n := by
  unfold mkFH; ext i hi; simp [BitVec.getElem_extractLsb']; grind

@[simp] theorem runb_n (n : BitVec 5) (a : BitVec 8) (z : BitVec 11) (maj : BitVec 7) (k : BitVec 1) :
    (mkFH maj k (n ++ a ++ z)).extractLsb' 19 5 = n := by
  rw [payload_mkFH _ _ _ _ _ (by decide)]; ext i hi; simp [BitVec.getElem_extractLsb']; grind

@[simp] theorem runb_a (n : BitVec 5) (a : BitVec 8) (z : BitVec 11) (maj : BitVec 7) (k : BitVec 1) :
    (mkFH maj k (n ++ a ++ z)).extractLsb' 11 8 = a := by
  rw [payload_mkFH _ _ _ _ _ (by decide)]; ext i hi; simp [BitVec.getElem_extractLsb']; grind

@[simp] theorem runb_z (n : BitVec 5) (a : BitVec 8) (z : BitVec 11) (maj : BitVec 7) (k : BitVec 1) :
    (mkFH maj k (n ++ a ++ z)).extractLsb' 0 11 = z := by
  rw [payload_mkFH _ _ _ _ _ (by decide)]; ext i hi; simp [BitVec.getElem_extractLsb']; grind

@[simp] theorem trl_t (t : BitVec 3) (v : BitVec 1) (z : BitVec 20) (maj : BitVec 7) (k : BitVec 1) :
    (mkFH maj k (t ++ v ++ z)).extractLsb' 21 3 = t := by
  rw [payload_mkFH _ _ _ _ _ (by decide)]; ext i hi; simp [BitVec.getElem_extractLsb']; grind

@[simp] theorem trl_v (t : BitVec 3) (v : BitVec 1) (z : BitVec 20) (maj : BitVec 7) (k : BitVec 1) :
    (mkFH maj k (t ++ v ++ z)).extractLsb' 20 1 = v := by
  rw [payload_mkFH _ _ _ _ _ (by decide)]; ext i hi; simp [BitVec.getElem_extractLsb']; grind

@[simp] theorem trl_z (t : BitVec 3) (v : BitVec 1) (z : BitVec 20) (maj : BitVec 7) (k : BitVec 1) :
    (mkFH maj k (t ++ v ++ z)).extractLsb' 0 20 = z := by
  rw [payload_mkFH _ _ _ _ _ (by decide)]; ext i hi; simp [BitVec.getElem_extractLsb']; grind

@[simp] theorem hmod_k0 (k0 : BitVec 3) (s : BitVec 4) (o : BitVec 2) (r : BitVec 3) (a : BitVec 1) (u : BitVec 1) (v : BitVec 3) (z : BitVec 7) (maj : BitVec 7) (k : BitVec 1) :
    (mkFH maj k (k0 ++ s ++ o ++ r ++ a ++ u ++ v ++ z)).extractLsb' 21 3 = k0 := by
  rw [payload_mkFH _ _ _ _ _ (by decide)]; ext i hi; simp [BitVec.getElem_extractLsb']; grind

@[simp] theorem hmod_s (k0 : BitVec 3) (s : BitVec 4) (o : BitVec 2) (r : BitVec 3) (a : BitVec 1) (u : BitVec 1) (v : BitVec 3) (z : BitVec 7) (maj : BitVec 7) (k : BitVec 1) :
    (mkFH maj k (k0 ++ s ++ o ++ r ++ a ++ u ++ v ++ z)).extractLsb' 17 4 = s := by
  rw [payload_mkFH _ _ _ _ _ (by decide)]; ext i hi; simp [BitVec.getElem_extractLsb']; grind

@[simp] theorem hmod_o (k0 : BitVec 3) (s : BitVec 4) (o : BitVec 2) (r : BitVec 3) (a : BitVec 1) (u : BitVec 1) (v : BitVec 3) (z : BitVec 7) (maj : BitVec 7) (k : BitVec 1) :
    (mkFH maj k (k0 ++ s ++ o ++ r ++ a ++ u ++ v ++ z)).extractLsb' 15 2 = o := by
  rw [payload_mkFH _ _ _ _ _ (by decide)]; ext i hi; simp [BitVec.getElem_extractLsb']; grind

@[simp] theorem hmod_r (k0 : BitVec 3) (s : BitVec 4) (o : BitVec 2) (r : BitVec 3) (a : BitVec 1) (u : BitVec 1) (v : BitVec 3) (z : BitVec 7) (maj : BitVec 7) (k : BitVec 1) :
    (mkFH maj k (k0 ++ s ++ o ++ r ++ a ++ u ++ v ++ z)).extractLsb' 12 3 = r := by
  rw [payload_mkFH _ _ _ _ _ (by decide)]; ext i hi; simp [BitVec.getElem_extractLsb']; grind

@[simp] theorem hmod_a (k0 : BitVec 3) (s : BitVec 4) (o : BitVec 2) (r : BitVec 3) (a : BitVec 1) (u : BitVec 1) (v : BitVec 3) (z : BitVec 7) (maj : BitVec 7) (k : BitVec 1) :
    (mkFH maj k (k0 ++ s ++ o ++ r ++ a ++ u ++ v ++ z)).extractLsb' 11 1 = a := by
  rw [payload_mkFH _ _ _ _ _ (by decide)]; ext i hi; simp [BitVec.getElem_extractLsb']; grind

@[simp] theorem hmod_u (k0 : BitVec 3) (s : BitVec 4) (o : BitVec 2) (r : BitVec 3) (a : BitVec 1) (u : BitVec 1) (v : BitVec 3) (z : BitVec 7) (maj : BitVec 7) (k : BitVec 1) :
    (mkFH maj k (k0 ++ s ++ o ++ r ++ a ++ u ++ v ++ z)).extractLsb' 10 1 = u := by
  rw [payload_mkFH _ _ _ _ _ (by decide)]; ext i hi; simp [BitVec.getElem_extractLsb']; grind

@[simp] theorem hmod_v (k0 : BitVec 3) (s : BitVec 4) (o : BitVec 2) (r : BitVec 3) (a : BitVec 1) (u : BitVec 1) (v : BitVec 3) (z : BitVec 7) (maj : BitVec 7) (k : BitVec 1) :
    (mkFH maj k (k0 ++ s ++ o ++ r ++ a ++ u ++ v ++ z)).extractLsb' 7 3 = v := by
  rw [payload_mkFH _ _ _ _ _ (by decide)]; ext i hi; simp [BitVec.getElem_extractLsb']; grind

@[simp] theorem hmod_z (k0 : BitVec 3) (s : BitVec 4) (o : BitVec 2) (r : BitVec 3) (a : BitVec 1) (u : BitVec 1) (v : BitVec 3) (z : BitVec 7) (maj : BitVec 7) (k : BitVec 1) :
    (mkFH maj k (k0 ++ s ++ o ++ r ++ a ++ u ++ v ++ z)).extractLsb' 0 7 = z := by
  rw [payload_mkFH _ _ _ _ _ (by decide)]; ext i hi; simp [BitVec.getElem_extractLsb']; grind

@[simp] theorem hsched_k0 (k0 : BitVec 3) (u : BitVec 3) (z : BitVec 18) (maj : BitVec 7) (k : BitVec 1) :
    (mkFH maj k (k0 ++ u ++ z)).extractLsb' 21 3 = k0 := by
  rw [payload_mkFH _ _ _ _ _ (by decide)]; ext i hi; simp [BitVec.getElem_extractLsb']; grind

@[simp] theorem hsched_u (k0 : BitVec 3) (u : BitVec 3) (z : BitVec 18) (maj : BitVec 7) (k : BitVec 1) :
    (mkFH maj k (k0 ++ u ++ z)).extractLsb' 18 3 = u := by
  rw [payload_mkFH _ _ _ _ _ (by decide)]; ext i hi; simp [BitVec.getElem_extractLsb']; grind

@[simp] theorem hsched_z (k0 : BitVec 3) (u : BitVec 3) (z : BitVec 18) (maj : BitVec 7) (k : BitVec 1) :
    (mkFH maj k (k0 ++ u ++ z)).extractLsb' 0 18 = z := by
  rw [payload_mkFH _ _ _ _ _ (by decide)]; ext i hi; simp [BitVec.getElem_extractLsb']; grind

@[simp] theorem hcache_k0 (k0 : BitVec 3) (l : BitVec 2) (z : BitVec 19) (maj : BitVec 7) (k : BitVec 1) :
    (mkFH maj k (k0 ++ l ++ z)).extractLsb' 21 3 = k0 := by
  rw [payload_mkFH _ _ _ _ _ (by decide)]; ext i hi; simp [BitVec.getElem_extractLsb']; grind

@[simp] theorem hcache_l (k0 : BitVec 3) (l : BitVec 2) (z : BitVec 19) (maj : BitVec 7) (k : BitVec 1) :
    (mkFH maj k (k0 ++ l ++ z)).extractLsb' 19 2 = l := by
  rw [payload_mkFH _ _ _ _ _ (by decide)]; ext i hi; simp [BitVec.getElem_extractLsb']; grind

@[simp] theorem hcache_z (k0 : BitVec 3) (l : BitVec 2) (z : BitVec 19) (maj : BitVec 7) (k : BitVec 1) :
    (mkFH maj k (k0 ++ l ++ z)).extractLsb' 0 19 = z := by
  rw [payload_mkFH _ _ _ _ _ (by decide)]; ext i hi; simp [BitVec.getElem_extractLsb']; grind

@[simp] theorem hfunc_k0 (k0 : BitVec 3) (b : BitVec 5) (z : BitVec 16) (maj : BitVec 7) (k : BitVec 1) :
    (mkFH maj k (k0 ++ b ++ z)).extractLsb' 21 3 = k0 := by
  rw [payload_mkFH _ _ _ _ _ (by decide)]; ext i hi; simp [BitVec.getElem_extractLsb']; grind

@[simp] theorem hfunc_b (k0 : BitVec 3) (b : BitVec 5) (z : BitVec 16) (maj : BitVec 7) (k : BitVec 1) :
    (mkFH maj k (k0 ++ b ++ z)).extractLsb' 16 5 = b := by
  rw [payload_mkFH _ _ _ _ _ (by decide)]; ext i hi; simp [BitVec.getElem_extractLsb']; grind

@[simp] theorem hfunc_z (k0 : BitVec 3) (b : BitVec 5) (z : BitVec 16) (maj : BitVec 7) (k : BitVec 1) :
    (mkFH maj k (k0 ++ b ++ z)).extractLsb' 0 16 = z := by
  rw [payload_mkFH _ _ _ _ _ (by decide)]; ext i hi; simp [BitVec.getElem_extractLsb']; grind

@[simp] theorem himm_p (p : BitVec 24) (maj : BitVec 7) (k : BitVec 1) : (mkFH maj k p).extractLsb' 0 24 = p := by
  rw [payload_mkFH _ _ _ _ _ (by decide)]; ext i hi; simp

end Sys2Proof
end

