-- ==== Sys2Proof/Laws/Dispatch.lean ====
section
/-!
SUPPORT. The dispatch, arm by arm: what an instruction does is its meaning.
-/
namespace Sys2Proof.Machine

open Sys2Proof

set_option Elab.async false

@[simp] theorem exec_iadd (g : BitVec 3) (d : BitVec 7) (a : BitVec 7) (b : BitVec 7) (s : State) : exec (.iadd g d a b) s = execIadd g d a b s := rfl
@[simp] theorem exec_isub (g : BitVec 3) (d : BitVec 7) (a : BitVec 7) (b : BitVec 7) (s : State) : exec (.isub g d a b) s = execIsub g d a b s := rfl
@[simp] theorem exec_iadds (g : BitVec 3) (d : BitVec 7) (a : BitVec 7) (b : BitVec 7) (s : State) : exec (.iadds g d a b) s = execIadds g d a b s := rfl
@[simp] theorem exec_isubs (g : BitVec 3) (d : BitVec 7) (a : BitVec 7) (b : BitVec 7) (s : State) : exec (.isubs g d a b) s = execIsubs g d a b s := rfl
@[simp] theorem exec_imul (g : BitVec 3) (d : BitVec 7) (a : BitVec 7) (b : BitVec 7) (s : State) : exec (.imul g d a b) s = execImul g d a b s := rfl
@[simp] theorem exec_imulh (g : BitVec 3) (d : BitVec 7) (a : BitVec 7) (b : BitVec 7) (s : State) : exec (.imulh g d a b) s = execImulh g d a b s := rfl
@[simp] theorem exec_imad (g : BitVec 3) (d : BitVec 7) (a : BitVec 7) (b : BitVec 7) (s : State) : exec (.imad g d a b) s = execImad g d a b s := rfl
@[simp] theorem exec_idiv (g : BitVec 3) (d : BitVec 7) (a : BitVec 7) (b : BitVec 7) (s : State) : exec (.idiv g d a b) s = execIdiv g d a b s := rfl
@[simp] theorem exec_irem (g : BitVec 3) (d : BitVec 7) (a : BitVec 7) (b : BitVec 7) (s : State) : exec (.irem g d a b) s = execIrem g d a b s := rfl
@[simp] theorem exec_imin (g : BitVec 3) (d : BitVec 7) (a : BitVec 7) (b : BitVec 7) (s : State) : exec (.imin g d a b) s = execImin g d a b s := rfl
@[simp] theorem exec_imax (g : BitVec 3) (d : BitVec 7) (a : BitVec 7) (b : BitVec 7) (s : State) : exec (.imax g d a b) s = execImax g d a b s := rfl
@[simp] theorem exec_and (g : BitVec 3) (d : BitVec 7) (a : BitVec 7) (b : BitVec 7) (s : State) : exec (.and g d a b) s = execAnd g d a b s := rfl
@[simp] theorem exec_or (g : BitVec 3) (d : BitVec 7) (a : BitVec 7) (b : BitVec 7) (s : State) : exec (.or g d a b) s = execOr g d a b s := rfl
@[simp] theorem exec_xor (g : BitVec 3) (d : BitVec 7) (a : BitVec 7) (b : BitVec 7) (s : State) : exec (.xor g d a b) s = execXor g d a b s := rfl
@[simp] theorem exec_andn (g : BitVec 3) (d : BitVec 7) (a : BitVec 7) (b : BitVec 7) (s : State) : exec (.andn g d a b) s = execAndn g d a b s := rfl
@[simp] theorem exec_shl (g : BitVec 3) (d : BitVec 7) (a : BitVec 7) (b : BitVec 7) (s : State) : exec (.shl g d a b) s = execShl g d a b s := rfl
@[simp] theorem exec_shr (g : BitVec 3) (d : BitVec 7) (a : BitVec 7) (b : BitVec 7) (s : State) : exec (.shr g d a b) s = execShr g d a b s := rfl
@[simp] theorem exec_sar (g : BitVec 3) (d : BitVec 7) (a : BitVec 7) (b : BitVec 7) (s : State) : exec (.sar g d a b) s = execSar g d a b s := rfl
@[simp] theorem exec_rotl (g : BitVec 3) (d : BitVec 7) (a : BitVec 7) (b : BitVec 7) (s : State) : exec (.rotl g d a b) s = execRotl g d a b s := rfl
@[simp] theorem exec_icmp (g : BitVec 3) (c : BitVec 4) (p : BitVec 3) (a : BitVec 7) (b : BitVec 7) (s : State) : exec (.icmp g c p a b) s = execIcmp g c p a b s := rfl
@[simp] theorem exec_sel (g : BitVec 3) (d : BitVec 7) (a : BitVec 7) (b : BitVec 7) (s : State) : exec (.sel g d a b) s = execSel g d a b s := rfl
@[simp] theorem exec_bfe (g : BitVec 3) (d : BitVec 7) (a : BitVec 7) (b : BitVec 7) (s : State) : exec (.bfe g d a b) s = execBfe g d a b s := rfl
@[simp] theorem exec_bfi (g : BitVec 3) (d : BitVec 7) (a : BitVec 7) (b : BitVec 7) (s : State) : exec (.bfi g d a b) s = execBfi g d a b s := rfl
@[simp] theorem exec_popc (g : BitVec 3) (d : BitVec 7) (a : BitVec 7) (s : State) : exec (.popc g d a) s = execPopc g d a s := rfl
@[simp] theorem exec_clz (g : BitVec 3) (d : BitVec 7) (a : BitVec 7) (s : State) : exec (.clz g d a) s = execClz g d a s := rfl
@[simp] theorem exec_brev (g : BitVec 3) (d : BitVec 7) (a : BitVec 7) (s : State) : exec (.brev g d a) s = execBrev g d a s := rfl
@[simp] theorem exec_iabs (g : BitVec 3) (d : BitVec 7) (a : BitVec 7) (s : State) : exec (.iabs g d a) s = execIabs g d a s := rfl
@[simp] theorem exec_dp4 (g : BitVec 3) (d : BitVec 7) (a : BitVec 7) (b : BitVec 7) (s : State) : exec (.dp4 g d a b) s = execDp4 g d a b s := rfl
@[simp] theorem exec_dp4s (g : BitVec 3) (d : BitVec 7) (a : BitVec 7) (b : BitVec 7) (s : State) : exec (.dp4s g d a b) s = execDp4s g d a b s := rfl
@[simp] theorem exec_dp2 (g : BitVec 3) (d : BitVec 7) (a : BitVec 7) (b : BitVec 7) (s : State) : exec (.dp2 g d a b) s = execDp2 g d a b s := rfl
@[simp] theorem exec_dp2s (g : BitVec 3) (d : BitVec 7) (a : BitVec 7) (b : BitVec 7) (s : State) : exec (.dp2s g d a b) s = execDp2s g d a b s := rfl
@[simp] theorem exec_iaddi (g : BitVec 3) (d : BitVec 7) (a : BitVec 7) (imm : BitVec 8) (s : State) : exec (.iaddi g d a imm) s = execIaddi g d a imm s := rfl
@[simp] theorem exec_andi (g : BitVec 3) (d : BitVec 7) (a : BitVec 7) (imm : BitVec 8) (s : State) : exec (.andi g d a imm) s = execAndi g d a imm s := rfl
@[simp] theorem exec_ori (g : BitVec 3) (d : BitVec 7) (a : BitVec 7) (imm : BitVec 8) (s : State) : exec (.ori g d a imm) s = execOri g d a imm s := rfl
@[simp] theorem exec_xori (g : BitVec 3) (d : BitVec 7) (a : BitVec 7) (imm : BitVec 8) (s : State) : exec (.xori g d a imm) s = execXori g d a imm s := rfl
@[simp] theorem exec_shli (g : BitVec 3) (d : BitVec 7) (a : BitVec 7) (imm : BitVec 8) (s : State) : exec (.shli g d a imm) s = execShli g d a imm s := rfl
@[simp] theorem exec_shri (g : BitVec 3) (d : BitVec 7) (a : BitVec 7) (imm : BitVec 8) (s : State) : exec (.shri g d a imm) s = execShri g d a imm s := rfl
@[simp] theorem exec_sari (g : BitVec 3) (d : BitVec 7) (a : BitVec 7) (imm : BitVec 8) (s : State) : exec (.sari g d a imm) s = execSari g d a imm s := rfl
@[simp] theorem exec_icmpi (g : BitVec 3) (c : BitVec 4) (p : BitVec 3) (a : BitVec 7) (imm : BitVec 8) (s : State) : exec (.icmpi g c p a imm) s = execIcmpi g c p a imm s := rfl
@[simp] theorem exec_imuli (g : BitVec 3) (d : BitVec 7) (a : BitVec 7) (imm : BitVec 8) (s : State) : exec (.imuli g d a imm) s = execImuli g d a imm s := rfl
@[simp] theorem exec_fadd (g : BitVec 3) (d : BitVec 7) (a : BitVec 7) (b : BitVec 7) (s : State) : exec (.fadd g d a b) s = execFadd g d a b s := rfl
@[simp] theorem exec_fsub (g : BitVec 3) (d : BitVec 7) (a : BitVec 7) (b : BitVec 7) (s : State) : exec (.fsub g d a b) s = execFsub g d a b s := rfl
@[simp] theorem exec_fmul (g : BitVec 3) (d : BitVec 7) (a : BitVec 7) (b : BitVec 7) (s : State) : exec (.fmul g d a b) s = execFmul g d a b s := rfl
@[simp] theorem exec_fdiv (g : BitVec 3) (d : BitVec 7) (a : BitVec 7) (b : BitVec 7) (s : State) : exec (.fdiv g d a b) s = execFdiv g d a b s := rfl
@[simp] theorem exec_ffma (g : BitVec 3) (d : BitVec 7) (a : BitVec 7) (b : BitVec 7) (s : State) : exec (.ffma g d a b) s = execFfma g d a b s := rfl
@[simp] theorem exec_ffms (g : BitVec 3) (d : BitVec 7) (a : BitVec 7) (b : BitVec 7) (s : State) : exec (.ffms g d a b) s = execFfms g d a b s := rfl
@[simp] theorem exec_fmin (g : BitVec 3) (d : BitVec 7) (a : BitVec 7) (b : BitVec 7) (s : State) : exec (.fmin g d a b) s = execFmin g d a b s := rfl
@[simp] theorem exec_fmax (g : BitVec 3) (d : BitVec 7) (a : BitVec 7) (b : BitVec 7) (s : State) : exec (.fmax g d a b) s = execFmax g d a b s := rfl
@[simp] theorem exec_fcmp (g : BitVec 3) (c : BitVec 4) (p : BitVec 3) (a : BitVec 7) (b : BitVec 7) (s : State) : exec (.fcmp g c p a b) s = execFcmp g c p a b s := rfl
@[simp] theorem exec_fclass (g : BitVec 3) (p : BitVec 3) (a : BitVec 7) (b : BitVec 7) (s : State) : exec (.fclass g p a b) s = execFclass g p a b s := rfl
@[simp] theorem exec_fsfu (g : BitVec 3) (d : BitVec 7) (a : BitVec 7) (b : BitVec 7) (s : State) : exec (.fsfu g d a b) s = execFsfu g d a b s := rfl
@[simp] theorem exec_fcvt (g : BitVec 3) (d : BitVec 7) (a : BitVec 7) (b : BitVec 7) (s : State) : exec (.fcvt g d a b) s = execFcvt g d a b s := rfl
@[simp] theorem exec_frnd (g : BitVec 3) (d : BitVec 7) (a : BitVec 7) (b : BitVec 7) (s : State) : exec (.frnd g d a b) s = execFrnd g d a b s := rfl
@[simp] theorem exec_hadd2 (g : BitVec 3) (d : BitVec 7) (a : BitVec 7) (b : BitVec 7) (s : State) : exec (.hadd2 g d a b) s = execHadd2 g d a b s := rfl
@[simp] theorem exec_hmul2 (g : BitVec 3) (d : BitVec 7) (a : BitVec 7) (b : BitVec 7) (s : State) : exec (.hmul2 g d a b) s = execHmul2 g d a b s := rfl
@[simp] theorem exec_hfma2 (g : BitVec 3) (d : BitVec 7) (a : BitVec 7) (b : BitVec 7) (s : State) : exec (.hfma2 g d a b) s = execHfma2 g d a b s := rfl
@[simp] theorem exec_hdot2 (g : BitVec 3) (d : BitVec 7) (a : BitVec 7) (b : BitVec 7) (s : State) : exec (.hdot2 g d a b) s = execHdot2 g d a b s := rfl
@[simp] theorem exec_faddx (g : BitVec 3) (d : BitVec 7) (a : BitVec 7) (b : BitVec 7) (s : State) : exec (.faddx g d a b) s = execFaddx g d a b s := rfl
@[simp] theorem exec_fmulx (g : BitVec 3) (d : BitVec 7) (a : BitVec 7) (b : BitVec 7) (s : State) : exec (.fmulx g d a b) s = execFmulx g d a b s := rfl
@[simp] theorem exec_fabs (g : BitVec 3) (d : BitVec 7) (a : BitVec 7) (s : State) : exec (.fabs g d a) s = execFabs g d a s := rfl
@[simp] theorem exec_fneg (g : BitVec 3) (d : BitVec 7) (a : BitVec 7) (s : State) : exec (.fneg g d a) s = execFneg g d a s := rfl
@[simp] theorem exec_fscale (g : BitVec 3) (d : BitVec 7) (a : BitVec 7) (b : BitVec 7) (s : State) : exec (.fscale g d a b) s = execFscale g d a b s := rfl
@[simp] theorem exec_mov (g : BitVec 3) (d : BitVec 7) (a : BitVec 7) (s : State) : exec (.mov g d a) s = execMov g d a s := rfl
@[simp] theorem exec_movi (g : BitVec 3) (d : BitVec 7) (imm : BitVec 8) (s : State) : exec (.movi g d imm) s = execMovi g d imm s := rfl
@[simp] theorem exec_shfl (g : BitVec 3) (d : BitVec 7) (a : BitVec 7) (b : BitVec 7) (s : State) : exec (.shfl g d a b) s = execShfl g d a b s := rfl
@[simp] theorem exec_vote (g : BitVec 3) (m : BitVec 4) (p : BitVec 3) (a : BitVec 7) (s : State) : exec (.vote g m p a) s = execVote g m p a s := rfl
@[simp] theorem exec_ballot (g : BitVec 3) (d : BitVec 7) (a : BitVec 7) (s : State) : exec (.ballot g d a) s = execBallot g d a s := rfl
@[simp] theorem exec_redl (g : BitVec 3) (d : BitVec 7) (a : BitVec 7) (b : BitVec 7) (s : State) : exec (.redl g d a b) s = execRedl g d a b s := rfl
@[simp] theorem exec_fredl (g : BitVec 3) (d : BitVec 7) (a : BitVec 7) (b : BitVec 7) (s : State) : exec (.fredl g d a b) s = execFredl g d a b s := rfl
@[simp] theorem exec_scanl (g : BitVec 3) (d : BitVec 7) (a : BitVec 7) (b : BitVec 7) (s : State) : exec (.scanl g d a b) s = execScanl g d a b s := rfl
@[simp] theorem exec_fscanl (g : BitVec 3) (d : BitVec 7) (a : BitVec 7) (b : BitVec 7) (s : State) : exec (.fscanl g d a b) s = execFscanl g d a b s := rfl
@[simp] theorem exec_part (g : BitVec 3) (b : BitVec 7) (s : State) : exec (.part g b) s = execPart g b s := rfl
@[simp] theorem exec_plop (g : BitVec 3) (f : BitVec 4) (d : BitVec 3) (a : BitVec 3) (b : BitVec 3) (s : State) : exec (.plop g f d a b) s = execPlop g f d a b s := rfl
@[simp] theorem exec_pmov (g : BitVec 3) (d : BitVec 7) (a : BitVec 7) (b : BitVec 7) (s : State) : exec (.pmov g d a b) s = execPmov g d a b s := rfl
@[simp] theorem exec_ixset (g : BitVec 3) (imm : BitVec 8) (s : State) : exec (.ixset g imm) s = execIxset g imm s := rfl
@[simp] theorem exec_v2s (g : BitVec 3) (d : BitVec 7) (a : BitVec 7) (s : State) : exec (.v2s g d a) s = execV2s g d a s := rfl
@[simp] theorem exec_sadd (g : BitVec 3) (d : BitVec 7) (a : BitVec 7) (b : BitVec 7) (s : State) : exec (.sadd g d a b) s = execSadd g d a b s := rfl
@[simp] theorem exec_ssub (g : BitVec 3) (d : BitVec 7) (a : BitVec 7) (b : BitVec 7) (s : State) : exec (.ssub g d a b) s = execSsub g d a b s := rfl
@[simp] theorem exec_smul (g : BitVec 3) (d : BitVec 7) (a : BitVec 7) (b : BitVec 7) (s : State) : exec (.smul g d a b) s = execSmul g d a b s := rfl
@[simp] theorem exec_smulh (g : BitVec 3) (d : BitVec 7) (a : BitVec 7) (b : BitVec 7) (s : State) : exec (.smulh g d a b) s = execSmulh g d a b s := rfl
@[simp] theorem exec_sand (g : BitVec 3) (d : BitVec 7) (a : BitVec 7) (b : BitVec 7) (s : State) : exec (.sand g d a b) s = execSand g d a b s := rfl
@[simp] theorem exec_sor (g : BitVec 3) (d : BitVec 7) (a : BitVec 7) (b : BitVec 7) (s : State) : exec (.sor g d a b) s = execSor g d a b s := rfl
@[simp] theorem exec_sxor (g : BitVec 3) (d : BitVec 7) (a : BitVec 7) (b : BitVec 7) (s : State) : exec (.sxor g d a b) s = execSxor g d a b s := rfl
@[simp] theorem exec_sshl (g : BitVec 3) (d : BitVec 7) (a : BitVec 7) (b : BitVec 7) (s : State) : exec (.sshl g d a b) s = execSshl g d a b s := rfl
@[simp] theorem exec_sshr (g : BitVec 3) (d : BitVec 7) (a : BitVec 7) (b : BitVec 7) (s : State) : exec (.sshr g d a b) s = execSshr g d a b s := rfl
@[simp] theorem exec_ssar (g : BitVec 3) (d : BitVec 7) (a : BitVec 7) (b : BitVec 7) (s : State) : exec (.ssar g d a b) s = execSsar g d a b s := rfl
@[simp] theorem exec_scmp (g : BitVec 3) (c : BitVec 4) (p : BitVec 3) (a : BitVec 7) (b : BitVec 7) (s : State) : exec (.scmp g c p a b) s = execScmp g c p a b s := rfl
@[simp] theorem exec_smov (g : BitVec 3) (d : BitVec 7) (a : BitVec 7) (s : State) : exec (.smov g d a) s = execSmov g d a s := rfl
@[simp] theorem exec_saddi (g : BitVec 3) (d : BitVec 7) (a : BitVec 7) (imm : BitVec 8) (s : State) : exec (.saddi g d a imm) s = execSaddi g d a imm s := rfl
@[simp] theorem exec_sld (g : BitVec 3) (d : BitVec 7) (a : BitVec 7) (b : BitVec 7) (s : State) : exec (.sld g d a b) s = execSld g d a b s := rfl
@[simp] theorem exec_sst (g : BitVec 3) (d : BitVec 7) (a : BitVec 7) (b : BitVec 7) (s : State) : exec (.sst g d a b) s = execSst g d a b s := rfl
@[simp] theorem exec_smin (g : BitVec 3) (d : BitVec 7) (a : BitVec 7) (b : BitVec 7) (s : State) : exec (.smin g d a b) s = execSmin g d a b s := rfl
@[simp] theorem exec_smax (g : BitVec 3) (d : BitVec 7) (a : BitVec 7) (b : BitVec 7) (s : State) : exec (.smax g d a b) s = execSmax g d a b s := rfl
@[simp] theorem exec_smovi (g : BitVec 3) (d : BitVec 7) (imm : BitVec 8) (s : State) : exec (.smovi g d imm) s = execSmovi g d imm s := rfl
@[simp] theorem exec_br (g : BitVec 3) (o : BitVec 22) (s : State) : exec (.br g o) s = execBr g o s := rfl
@[simp] theorem exec_call (g : BitVec 3) (o : BitVec 22) (s : State) : exec (.call g o) s = execCall g o s := rfl
@[simp] theorem exec_calli (g : BitVec 3) (a : BitVec 7) (s : State) : exec (.calli g a) s = execCalli g a s := rfl
@[simp] theorem exec_jmpi (g : BitVec 3) (a : BitVec 7) (s : State) : exec (.jmpi g a) s = execJmpi g a s := rfl
@[simp] theorem exec_ret (g : BitVec 3) (s : State) : exec (.ret g) s = execRet g s := rfl
@[simp] theorem exec_exit (g : BitVec 3) (s : State) : exec (.exit g) s = execExit g s := rfl
@[simp] theorem exec_yield (g : BitVec 3) (imm : BitVec 8) (s : State) : exec (.yield g imm) s = execYield g imm s := rfl
@[simp] theorem exec_trap (g : BitVec 3) (imm : BitVec 8) (s : State) : exec (.trap g imm) s = execTrap g imm s := rfl
@[simp] theorem exec_featq (g : BitVec 3) (d : BitVec 7) (imm : BitVec 8) (s : State) : exec (.featq g d imm) s = execFeatq g d imm s := rfl
@[simp] theorem exec_nop (g : BitVec 3) (s : State) : exec (.nop g) s = execNop g s := rfl
@[simp] theorem exec_tret (g : BitVec 3) (s : State) : exec (.tret g) s = execTret g s := rfl
@[simp] theorem exec_ld (g : BitVec 3) (d : BitVec 7) (t : BitVec 3) (x : BitVec 7) (w : BitVec 3) (c : BitVec 2) (s : State) : exec (.ld g d t x w c) s = execLd g d t x w c s := rfl
@[simp] theorem exec_st (g : BitVec 3) (d : BitVec 7) (t : BitVec 3) (x : BitVec 7) (w : BitVec 3) (c : BitVec 2) (s : State) : exec (.st g d t x w c) s = execSt g d t x w c s := rfl
@[simp] theorem exec_lds (g : BitVec 3) (d : BitVec 7) (t : BitVec 3) (x : BitVec 7) (w : BitVec 3) (c : BitVec 2) (s : State) : exec (.lds g d t x w c) s = execLds g d t x w c s := rfl
@[simp] theorem exec_sts (g : BitVec 3) (d : BitVec 7) (t : BitVec 3) (x : BitVec 7) (w : BitVec 3) (c : BitVec 2) (s : State) : exec (.sts g d t x w c) s = execSts g d t x w c s := rfl
@[simp] theorem exec_mcst (g : BitVec 3) (d : BitVec 7) (t : BitVec 3) (x : BitVec 7) (m : BitVec 4) (s : State) : exec (.mcst g d t x m) s = execMcst g d t x m s := rfl
@[simp] theorem exec_pfx (g : BitVec 3) (t : BitVec 3) (x : BitVec 7) (w : BitVec 3) (c : BitVec 2) (s : State) : exec (.pfx g t x w c) s = execPfx g t x w c s := rfl
@[simp] theorem exec_abind (g : BitVec 3) (t : BitVec 3) (x : BitVec 7) (s : State) : exec (.abind g t x) s = execAbind g t x s := rfl
@[simp] theorem exec_abindH (g : BitVec 3) (t : BitVec 3) (x : BitVec 7) (s : State) : exec (.abindH g t x) s = execAbindH g t x s := rfl
@[simp] theorem exec_lda (g : BitVec 3) (d : BitVec 7) (t : BitVec 3) (x : BitVec 7) (k : BitVec 4) (s : State) : exec (.lda g d t x k) s = execLda g d t x k s := rfl
@[simp] theorem exec_stl (g : BitVec 3) (d : BitVec 7) (t : BitVec 3) (x : BitVec 7) (k : BitVec 4) (s : State) : exec (.stl g d t x k) s = execStl g d t x k s := rfl
@[simp] theorem exec_atom (g : BitVec 3) (d : BitVec 7) (t : BitVec 3) (x : BitVec 7) (o : BitVec 4) (p : BitVec 1) (s : State) : exec (.atom g d t x o p) s = execAtom g d t x o p s := rfl
@[simp] theorem exec_red (g : BitVec 3) (d : BitVec 7) (t : BitVec 3) (x : BitVec 7) (o : BitVec 4) (p : BitVec 1) (s : State) : exec (.red g d t x o p) s = execRed g d t x o p s := rfl
@[simp] theorem exec_fence (g : BitVec 3) (s : State) : exec (.fence g) s = execFence g s := rfl
@[simp] theorem exec_waitv (g : BitVec 3) (d : BitVec 7) (t : BitVec 3) (x : BitVec 7) (w : BitVec 3) (c : BitVec 2) (s : State) : exec (.waitv g d t x w c) s = execWaitv g d t x w c s := rfl
@[simp] theorem exec_cpy (a : BitVec 5) (b : BitVec 5) (y : BitVec 1) (s : State) : exec (.cpy a b y) s = execCpy a b y s := rfl
@[simp] theorem exec_cpyo (a : BitVec 5) (b : BitVec 5) (y : BitVec 1) (s : State) : exec (.cpyo a b y) s = execCpyo a b y s := rfl
@[simp] theorem exec_cpyg (a : BitVec 5) (b : BitVec 5) (y : BitVec 1) (s : State) : exec (.cpyg a b y) s = execCpyg a b y s := rfl
@[simp] theorem exec_cpys (a : BitVec 5) (b : BitVec 5) (y : BitVec 1) (s : State) : exec (.cpys a b y) s = execCpys a b y s := rfl
@[simp] theorem exec_cpym (a : BitVec 5) (b : BitVec 5) (y : BitVec 1) (s : State) : exec (.cpym a b y) s = execCpym a b y s := rfl
@[simp] theorem exec_cpye (a : BitVec 5) (b : BitVec 5) (y : BitVec 1) (s : State) : exec (.cpye a b y) s = execCpye a b y s := rfl
@[simp] theorem exec_binit (a : BitVec 5) (b : BitVec 5) (s : State) : exec (.binit a b) s = execBinit a b s := rfl
@[simp] theorem exec_barv (d : BitVec 5) (a : BitVec 5) (s : State) : exec (.barv d a) s = execBarv d a s := rfl
@[simp] theorem exec_bexp (a : BitVec 5) (b : BitVec 5) (s : State) : exec (.bexp a b) s = execBexp a b s := rfl
@[simp] theorem exec_bwait (a : BitVec 5) (b : BitVec 5) (s : State) : exec (.bwait a b) s = execBwait a b s := rfl
@[simp] theorem exec_btest (d : BitVec 5) (a : BitVec 5) (b : BitVec 5) (s : State) : exec (.btest d a b) s = execBtest d a b s := rfl
@[simp] theorem exec_cbar (s : State) : exec (.cbar) s = execCbar s := rfl
@[simp] theorem exec_qcfg (d : BitVec 5) (a : BitVec 5) (s : State) : exec (.qcfg d a) s = execQcfg d a s := rfl
@[simp] theorem exec_qdrn (d : BitVec 5) (s : State) : exec (.qdrn d) s = execQdrn d s := rfl
@[simp] theorem exec_qpop (d : BitVec 5) (a : BitVec 5) (b : BitVec 5) (s : State) : exec (.qpop d a b) s = execQpop d a b s := rfl
@[simp] theorem exec_qpush (d : BitVec 5) (a : BitVec 5) (b : BitVec 5) (s : State) : exec (.qpush d a b) s = execQpush d a b s := rfl
@[simp] theorem exec_renq (d : BitVec 5) (a : BitVec 5) (b : BitVec 5) (k : BitVec 1) (s : State) : exec (.renq d a b k) s = execRenq d a b k s := rfl
@[simp] theorem exec_fetchw (a : BitVec 5) (s : State) : exec (.fetchw a) s = execFetchw a s := rfl
@[simp] theorem exec_taske (a : BitVec 5) (s : State) : exec (.taske a) s = execTaske a s := rfl
@[simp] theorem exec_taska (a : BitVec 5) (s : State) : exec (.taska a) s = execTaska a s := rfl
@[simp] theorem exec_qstat (d : BitVec 5) (a : BitVec 5) (s : State) : exec (.qstat d a) s = execQstat d a s := rfl
@[simp] theorem exec_dopen (d : BitVec 5) (a : BitVec 5) (w : BitVec 1) (s : State) : exec (.dopen d a w) s = execDopen d a w s := rfl
@[simp] theorem exec_dclose (d : BitVec 5) (a : BitVec 5) (s : State) : exec (.dclose d a) s = execDclose d a s := rfl
@[simp] theorem exec_dinfo (d : BitVec 5) (a : BitVec 5) (b : BitVec 5) (s : State) : exec (.dinfo d a b) s = execDinfo d a b s := rfl
@[simp] theorem exec_dbind (d : BitVec 5) (a : BitVec 5) (o : BitVec 1) (s : State) : exec (.dbind d a o) s = execDbind d a o s := rfl
@[simp] theorem exec_tstamp (d : BitVec 5) (s : State) : exec (.tstamp d) s = execTstamp d s := rfl
@[simp] theorem exec_tserr (d : BitVec 5) (s : State) : exec (.tserr d) s = execTserr d s := rfl
@[simp] theorem exec_osend (d : BitVec 5) (a : BitVec 5) (b : BitVec 5) (s : State) : exec (.osend d a b) s = execOsend d a b s := rfl
@[simp] theorem exec_redp (a : BitVec 5) (b : BitVec 5) (o : BitVec 4) (s : State) : exec (.redp a b o) s = execRedp a b o s := rfl
@[simp] theorem exec_redw (d : BitVec 5) (a : BitVec 5) (b : BitVec 5) (o : BitVec 4) (s : State) : exec (.redw d a b o) s = execRedw d a b o s := rfl
@[simp] theorem exec_twait (a : BitVec 5) (s : State) : exec (.twait a) s = execTwait a s := rfl
@[simp] theorem exec_mrule (a : BitVec 5) (b : BitVec 5) (s : State) : exec (.mrule a b) s = execMrule a b s := rfl
@[simp] theorem exec_mcfg (d : BitVec 5) (a : BitVec 5) (s : State) : exec (.mcfg d a) s = execMcfg d a s := rfl
@[simp] theorem exec_mstat (a : BitVec 5) (b : BitVec 5) (s : State) : exec (.mstat a b) s = execMstat a b s := rfl
@[simp] theorem exec_mswap (b : BitVec 5) (s : State) : exec (.mswap b) s = execMswap b s := rfl
@[simp] theorem exec_mstrm (a : BitVec 5) (b : BitVec 5) (k : BitVec 1) (s : State) : exec (.mstrm a b k) s = execMstrm a b k s := rfl
@[simp] theorem exec_mwave (a : BitVec 5) (b : BitVec 5) (s : State) : exec (.mwave a b) s = execMwave a b s := rfl
@[simp] theorem exec_mback (a : BitVec 5) (b : BitVec 5) (s : State) : exec (.mback a b) s = execMback a b s := rfl
@[simp] theorem exec_mdrain (a : BitVec 5) (b : BitVec 5) (s : State) : exec (.mdrain a b) s = execMdrain a b s := rfl
@[simp] theorem exec_mzero (b : BitVec 5) (s : State) : exec (.mzero b) s = execMzero b s := rfl
@[simp] theorem exec_mtrn (a : BitVec 5) (b : BitVec 5) (s : State) : exec (.mtrn a b) s = execMtrn a b s := rfl
@[simp] theorem exec_mprm (a : BitVec 5) (b : BitVec 5) (s : State) : exec (.mprm a b) s = execMprm a b s := rfl
@[simp] theorem exec_mred (b : BitVec 5) (k : BitVec 1) (s : State) : exec (.mred b k) s = execMred b k s := rfl
@[simp] theorem exec_mwait (d : BitVec 5) (s : State) : exec (.mwait d) s = execMwait d s := rfl
@[simp] theorem exec_mstep (d : BitVec 5) (s : State) : exec (.mstep d) s = execMstep d s := rfl
@[simp] theorem exec_mstepRes (d : BitVec 5) (s : State) : exec (.mstepRes d) s = execMstepRes d s := rfl
@[simp] theorem exec_mstepResat (d : BitVec 5) (a : BitVec 5) (s : State) : exec (.mstepResat d a) s = execMstepResat d a s := rfl
@[simp] theorem exec_mstepDis (d : BitVec 5) (s : State) : exec (.mstepDis d) s = execMstepDis d s := rfl
@[simp] theorem exec_mfence (d : BitVec 5) (s : State) : exec (.mfence d) s = execMfence d s := rfl
@[simp] theorem exec_rdsr (d : BitVec 5) (a : BitVec 5) (s : State) : exec (.rdsr d a) s = execRdsr d a s := rfl
@[simp] theorem exec_wrsr (a : BitVec 5) (b : BitVec 5) (s : State) : exec (.wrsr a b) s = execWrsr a b s := rfl
@[simp] theorem exec_tlbiPage (d : BitVec 5) (a : BitVec 5) (b : BitVec 5) (s : State) : exec (.tlbiPage d a b) s = execTlbiPage d a b s := rfl
@[simp] theorem exec_tlbiCtx (d : BitVec 5) (b : BitVec 5) (s : State) : exec (.tlbiCtx d b) s = execTlbiCtx d b s := rfl
@[simp] theorem exec_xrinv (d : BitVec 5) (a : BitVec 5) (b : BitVec 5) (s : State) : exec (.xrinv d a b) s = execXrinv d a b s := rfl
@[simp] theorem exec_ctxsv (d : BitVec 5) (a : BitVec 5) (b : BitVec 5) (s : State) : exec (.ctxsv d a b) s = execCtxsv d a b s := rfl
@[simp] theorem exec_ctxld (d : BitVec 5) (a : BitVec 5) (b : BitVec 5) (s : State) : exec (.ctxld d a b) s = execCtxld d a b s := rfl
@[simp] theorem exec_engrst (d : BitVec 5) (a : BitVec 5) (b : BitVec 5) (s : State) : exec (.engrst d a b) s = execEngrst d a b s := rfl
@[simp] theorem exec_cfenceWb (a : BitVec 5) (b : BitVec 5) (s : State) : exec (.cfenceWb a b) s = execCfenceWb a b s := rfl
@[simp] theorem exec_cfenceInv (a : BitVec 5) (b : BitVec 5) (s : State) : exec (.cfenceInv a b) s = execCfenceInv a b s := rfl
@[simp] theorem exec_cfenceDrop (a : BitVec 5) (b : BitVec 5) (s : State) : exec (.cfenceDrop a b) s = execCfenceDrop a b s := rfl
@[simp] theorem exec_idle (d : BitVec 5) (a : BitVec 5) (b : BitVec 5) (q : BitVec 1) (t : BitVec 1) (s : State) : exec (.idle d a b q t) s = execIdle d a b q t s := rfl
@[simp] theorem exec_runb (n : BitVec 5) (a : BitVec 8) (s : State) : exec (.runb n a) s = execRunb n a s := rfl
@[simp] theorem exec_trl (t : BitVec 3) (v : BitVec 1) (s : State) : exec (.trl t v) s = execTrl t v s := rfl
@[simp] theorem exec_himm (p : BitVec 24) (s : State) : exec (.himm p) s = execHimm p s := rfl
@[simp] theorem exec_hmod (k : BitVec 4) (o : BitVec 2) (r : BitVec 3) (a : BitVec 1) (u : BitVec 1) (v : BitVec 3) (z : BitVec 7) (s : State) : exec (.hmod k o r a u v z) s = execHmod k o r a u v z s := rfl
@[simp] theorem exec_hsched (u : BitVec 3) (s : State) : exec (.hsched u) s = execHsched u s := rfl
@[simp] theorem exec_hcache (l : BitVec 2) (s : State) : exec (.hcache l) s = execHcache l s := rfl
@[simp] theorem exec_hfunc (b : BitVec 5) (s : State) : exec (.hfunc b) s = execHfunc b s := rfl
@[simp] theorem exec_write (c : Cmd) (s : State) : exec (.write c) s = execWrite c s := rfl
@[simp] theorem exec_read (c : Cmd) (s : State) : exec (.read c) s = execRead c s := rfl
@[simp] theorem exec_launch (c : Cmd) (s : State) : exec (.launch c) s = execLaunch c s := rfl
@[simp] theorem exec_remove (c : Cmd) (s : State) : exec (.remove c) s = execRemove c s := rfl
@[simp] theorem exec_regctx (c : Cmd) (s : State) : exec (.regctx c) s = execRegctx c s := rfl
@[simp] theorem exec_regobj (c : Cmd) (s : State) : exec (.regobj c) s = execRegobj c s := rfl
@[simp] theorem exec_bind (c : Cmd) (s : State) : exec (.bind c) s = execBind c s := rfl
@[simp] theorem exec_loadobj (c : Cmd) (s : State) : exec (.loadobj c) s = execLoadobj c s := rfl
@[simp] theorem exec_qconf (c : Cmd) (s : State) : exec (.qconf c) s = execQconf c s := rfl
@[simp] theorem exec_featneg (c : Cmd) (s : State) : exec (.featneg c) s = execFeatneg c s := rfl
@[simp] theorem exec_podcfg (c : Cmd) (s : State) : exec (.podcfg c) s = execPodcfg c s := rfl
@[simp] theorem exec_powerUp (p : PowerUp) (s : State) : exec (.powerUp p) s = execPowerUp p s := rfl
@[simp] theorem exec_bootWrite (c : Cmd) (s : State) : exec (.bootWrite c) s = execBootWrite c s := rfl
@[simp] theorem exec_preemptionRequest (k : CrewKey) (area : Nat) (s : State) : exec (.preemptionRequest k area) s = execPreemptionRequest k area s := rfl
@[simp] theorem exec_quantumExpiry (k : CrewKey) (area : Nat) (s : State) : exec (.quantumExpiry k area) s = execQuantumExpiry k area s := rfl
@[simp] theorem exec_parkRotation (u : AgentKey) (s : State) : exec (.parkRotation u) s = execParkRotation u s := rfl
@[simp] theorem exec_pathMerge (u : AgentKey) (p : PathKey) (q : PathKey) (s : State) : exec (.pathMerge u p q) s = execPathMerge u p q s := rfl
@[simp] theorem exec_resultWriteback (u : AgentKey) (token : Nat) (s : State) : exec (.resultWriteback u token) s = execResultWriteback u token s := rfl
@[simp] theorem exec_impreciseTrapTaken (u : AgentKey) (slot : Nat) (s : State) : exec (.impreciseTrapTaken u slot) s = execImpreciseTrapTaken u slot s := rfl
@[simp] theorem exec_waitvRecheck (u : AgentKey) (slot : Nat) (s : State) : exec (.waitvRecheck u slot) s = execWaitvRecheck u slot s := rfl
@[simp] theorem exec_waitvDeadline (u : AgentKey) (slot : Nat) (s : State) : exec (.waitvDeadline u slot) s = execWaitvDeadline u slot s := rfl
@[simp] theorem exec_twaitTargetReached (u : AgentKey) (slot : Nat) (s : State) : exec (.twaitTargetReached u slot) s = execTwaitTargetReached u slot s := rfl
@[simp] theorem exec_idleWake (u : AgentKey) (slot : Nat) (s : State) : exec (.idleWake u slot) s = execIdleWake u slot s := rfl
@[simp] theorem exec_queueStreamFetch (u : AgentKey) (q : Nat) (s : State) : exec (.queueStreamFetch u q) s = execQueueStreamFetch u q s := rfl
@[simp] theorem exec_copySectorCount (k : CrewKey) (id : Nat) (s : State) : exec (.copySectorCount k id) s = execCopySectorCount k id s := rfl
@[simp] theorem exec_marverOpStart (k : CrewKey) (ix : Nat) (s : State) : exec (.marverOpStart k ix) s = execMarverOpStart k ix s := rfl
@[simp] theorem exec_marverOpComplete (k : CrewKey) (ix : Nat) (s : State) : exec (.marverOpComplete k ix) s = execMarverOpComplete k ix s := rfl
@[simp] theorem exec_lehrBatchFlush (die : Nat) (s : State) : exec (.lehrBatchFlush die) s = execLehrBatchFlush die s := rfl
@[simp] theorem exec_faultReplyRetry (die : Nat) (s : State) : exec (.faultReplyRetry die) s = execFaultReplyRetry die s := rfl
@[simp] theorem exec_faultReplyFail (die : Nat) (s : State) : exec (.faultReplyFail die) s = execFaultReplyFail die s := rfl
@[simp] theorem exec_bindRecordWrite (die : Nat) (cluster : Nat) (slot : Nat) (record : List Byte) (s : State) : exec (.bindRecordWrite die cluster slot record) s = execBindRecordWrite die cluster slot record s := rfl
@[simp] theorem exec_crewPlacement (die : Nat) (cluster : Nat) (s : State) : exec (.crewPlacement die cluster) s = execCrewPlacement die cluster s := rfl
@[simp] theorem exec_crewRetire (k : CrewKey) (s : State) : exec (.crewRetire k) s = execCrewRetire k s := rfl
@[simp] theorem exec_distributorCycle (die : Nat) (s : State) : exec (.distributorCycle die) s = execDistributorCycle die s := rfl
@[simp] theorem exec_registerWrite (die : Nat) (offset : Nat) (width : Nat) (value : Nat) (s : State) : exec (.registerWrite die offset width value) s = execRegisterWrite die offset width value s := rfl
@[simp] theorem exec_timeExchange (die : Nat) (x : TimeExchange) (s : State) : exec (.timeExchange die x) s = execTimeExchange die x s := rfl
@[simp] theorem exec_timeHealthTimeout (die : Nat) (s : State) : exec (.timeHealthTimeout die) s = execTimeHealthTimeout die s := rfl
@[simp] theorem exec_orderedPacketArrival (port : Option Nat) (p : OrdPacket) (s : State) : exec (.orderedPacketArrival port p) s = execOrderedPacketArrival port p s := rfl
@[simp] theorem exec_watermarkFlitReceive (port : Nat) (inOrder : Bool) (vec : List Nat) (s : State) : exec (.watermarkFlitReceive port inOrder vec) s = execWatermarkFlitReceive port inOrder vec s := rfl
@[simp] theorem exec_watermarkBeacon (port : Nat) (s : State) : exec (.watermarkBeacon port) s = execWatermarkBeacon port s := rfl
@[simp] theorem exec_portStall (port : Nat) (s : State) : exec (.portStall port) s = execPortStall port s := rfl
@[simp] theorem exec_fabricAck (u : AgentKey) (part : Nat) (s : State) : exec (.fabricAck u part) s = execFabricAck u part s := rfl
@[simp] theorem exec_creditAuditSend (l : LinkKey) (vc : Nat) (s : State) : exec (.creditAuditSend l vc) s = execCreditAuditSend l vc s := rfl
@[simp] theorem exec_creditAuditReceive (l : LinkKey) (vc : Nat) (freed : Nat) (intact : Bool) (s : State) : exec (.creditAuditReceive l vc freed intact) s = execCreditAuditReceive l vc freed intact s := rfl
@[simp] theorem exec_renqDelivery (p : RenqPacket) (s : State) : exec (.renqDelivery p) s = execRenqDelivery p s := rfl
@[simp] theorem exec_renqAck (id : Nat) (status : Nat) (s : State) : exec (.renqAck id status) s = execRenqAck id status s := rfl
@[simp] theorem exec_redpArrival (id : Nat) (s : State) : exec (.redpArrival id) s = execRedpArrival id s := rfl
@[simp] theorem exec_redwDeadline (u : AgentKey) (slot : Nat) (s : State) : exec (.redwDeadline u slot) s = execRedwDeadline u slot s := rfl
@[simp] theorem exec_correctedError (die : Nat) (s : State) : exec (.correctedError die) s = execCorrectedError die s := rfl
@[simp] theorem exec_uncorrectableDataError (pa : Nat) (s : State) : exec (.uncorrectableDataError pa) s = execUncorrectableDataError pa s := rfl
@[simp] theorem exec_coreStateError (e : CoreError) (s : State) : exec (.coreStateError e) s = execCoreStateError e s := rfl
@[simp] theorem exec_fatalError (c : CtxId) (s : State) : exec (.fatalError c) s = execFatalError c s := rfl
@[simp] theorem exec_powerThermalLimit (die : Nat) (s : State) : exec (.powerThermalLimit die) s = execPowerThermalLimit die s := rfl
@[simp] theorem exec_reservedEncoding (w : Word) (s : State) : exec (.reservedEncoding w) s = execReservedEncoding w s := rfl
@[simp] theorem exec_fabricAccessArrival (p : FabricPacket) (s : State) : exec (.fabricAccessArrival p) s = execFabricAccessArrival p s := rfl
@[simp] theorem exec_computeDiePromise (die : Nat) (s : State) : exec (.computeDiePromise die) s = execComputeDiePromise die s := rfl
@[simp] theorem exec_marverDrainPoint (k : CrewKey) (s : State) : exec (.marverDrainPoint k) s = execMarverDrainPoint k s := rfl
@[simp] theorem exec_eret (s : State) : exec (.eret) s = execEret s := rfl
@[simp] theorem exec_powerLoss (s : State) : exec (.powerLoss) s = execPowerLoss s := rfl

end Sys2Proof.Machine
end

