-- ==== Sys2Proof/Laws/State.lean ====
section
/-!
SUPPORT. What each named update of the state leaves and sets: one lemma for each field and update, true by definition.
-/
namespace Sys2Proof.Machine

open Sys2Proof

set_option Elab.async false

/-! ### State.mapSelf -/

@[simp] theorem State.mapSelf_self (s : State) (f : Agent → Agent) : (s.mapSelf f).self = f s.self := rfl
@[simp] theorem State.mapSelf_crew (s : State) (f : Agent → Agent) : (s.mapSelf f).crew = s.crew := rfl
@[simp] theorem State.mapSelf_ctx (s : State) (f : Agent → Agent) : (s.mapSelf f).ctx = s.ctx := rfl
@[simp] theorem State.mapSelf_crews (s : State) (f : Agent → Agent) : (s.mapSelf f).crews = s.crews := rfl
@[simp] theorem State.mapSelf_ctxs (s : State) (f : Agent → Agent) : (s.mapSelf f).ctxs = s.ctxs := rfl
@[simp] theorem State.mapSelf_mem (s : State) (f : Agent → Agent) : (s.mapSelf f).mem = s.mem := rfl
@[simp] theorem State.mapSelf_dirty (s : State) (f : Agent → Agent) : (s.mapSelf f).dirty = s.dirty := rfl
@[simp] theorem State.mapSelf_unpushed (s : State) (f : Agent → Agent) : (s.mapSelf f).unpushed = s.unpushed := rfl
@[simp] theorem State.mapSelf_pois (s : State) (f : Agent → Agent) : (s.mapSelf f).pois = s.pois := rfl
@[simp] theorem State.mapSelf_tlb (s : State) (f : Agent → Agent) : (s.mapSelf f).tlb = s.tlb := rfl
@[simp] theorem State.mapSelf_dies (s : State) (f : Agent → Agent) : (s.mapSelf f).dies = s.dies := rfl
@[simp] theorem State.mapSelf_queues (s : State) (f : Agent → Agent) : (s.mapSelf f).queues = s.queues := rfl
@[simp] theorem State.mapSelf_punty (s : State) (f : Agent → Agent) : (s.mapSelf f).punty = s.punty := rfl
@[simp] theorem State.mapSelf_rounds (s : State) (f : Agent → Agent) : (s.mapSelf f).rounds = s.rounds := rfl
@[simp] theorem State.mapSelf_redps (s : State) (f : Agent → Agent) : (s.mapSelf f).redps = s.redps := rfl
@[simp] theorem State.mapSelf_hub (s : State) (f : Agent → Agent) : (s.mapSelf f).hub = s.hub := rfl
@[simp] theorem State.mapSelf_work (s : State) (f : Agent → Agent) : (s.mapSelf f).work = s.work := rfl
@[simp] theorem State.mapSelf_flits (s : State) (f : Agent → Agent) : (s.mapSelf f).flits = s.flits := rfl
@[simp] theorem State.mapSelf_pod (s : State) (f : Agent → Agent) : (s.mapSelf f).pod = s.pod := rfl
@[simp] theorem State.mapSelf_credits (s : State) (f : Agent → Agent) : (s.mapSelf f).credits = s.credits := rfl
@[simp] theorem State.mapSelf_credfix (s : State) (f : Agent → Agent) : (s.mapSelf f).credfix = s.credfix := rfl
@[simp] theorem State.mapSelf_frameDrops (s : State) (f : Agent → Agent) : (s.mapSelf f).frameDrops = s.frameDrops := rfl
@[simp] theorem State.mapSelf_fences (s : State) (f : Agent → Agent) : (s.mapSelf f).fences = s.fences := rfl
@[simp] theorem State.mapSelf_renqs (s : State) (f : Agent → Agent) : (s.mapSelf f).renqs = s.renqs := rfl
@[simp] theorem State.mapSelf_ctbase (s : State) (f : Agent → Agent) : (s.mapSelf f).ctbase = s.ctbase := rfl
@[simp] theorem State.mapSelf_partmap (s : State) (f : Agent → Agent) : (s.mapSelf f).partmap = s.partmap := rfl
@[simp] theorem State.mapSelf_boot (s : State) (f : Agent → Agent) : (s.mapSelf f).boot = s.boot := rfl
@[simp] theorem State.mapSelf_fenced (s : State) (f : Agent → Agent) : (s.mapSelf f).fenced = s.fenced := rfl
@[simp] theorem State.mapSelf_nextPacket (s : State) (f : Agent → Agent) : (s.mapSelf f).nextPacket = s.nextPacket := rfl
@[simp] theorem State.mapSelf_turn (s : State) (f : Agent → Agent) : (s.mapSelf f).turn = s.turn := rfl
@[simp] theorem State.mapSelf_tick (s : State) (f : Agent → Agent) : (s.mapSelf f).tick = s.tick := rfl
@[simp] theorem State.mapSelf_free (s : State) (f : Agent → Agent) : (s.mapSelf f).free = s.free := rfl
@[simp] theorem State.mapSelf_inputs (s : State) (f : Agent → Agent) : (s.mapSelf f).inputs = s.inputs := rfl
@[simp] theorem State.mapSelf_outbox (s : State) (f : Agent → Agent) : (s.mapSelf f).outbox = s.outbox := rfl

/-! ### State.mapCur -/

@[simp] theorem State.mapCur_self (s : State) (f : Path → Path) : (s.mapCur f).self = { s.self with cur := f s.self.cur } := rfl
@[simp] theorem State.mapCur_crew (s : State) (f : Path → Path) : (s.mapCur f).crew = s.crew := rfl
@[simp] theorem State.mapCur_ctx (s : State) (f : Path → Path) : (s.mapCur f).ctx = s.ctx := rfl
@[simp] theorem State.mapCur_crews (s : State) (f : Path → Path) : (s.mapCur f).crews = s.crews := rfl
@[simp] theorem State.mapCur_ctxs (s : State) (f : Path → Path) : (s.mapCur f).ctxs = s.ctxs := rfl
@[simp] theorem State.mapCur_mem (s : State) (f : Path → Path) : (s.mapCur f).mem = s.mem := rfl
@[simp] theorem State.mapCur_dirty (s : State) (f : Path → Path) : (s.mapCur f).dirty = s.dirty := rfl
@[simp] theorem State.mapCur_unpushed (s : State) (f : Path → Path) : (s.mapCur f).unpushed = s.unpushed := rfl
@[simp] theorem State.mapCur_pois (s : State) (f : Path → Path) : (s.mapCur f).pois = s.pois := rfl
@[simp] theorem State.mapCur_tlb (s : State) (f : Path → Path) : (s.mapCur f).tlb = s.tlb := rfl
@[simp] theorem State.mapCur_dies (s : State) (f : Path → Path) : (s.mapCur f).dies = s.dies := rfl
@[simp] theorem State.mapCur_queues (s : State) (f : Path → Path) : (s.mapCur f).queues = s.queues := rfl
@[simp] theorem State.mapCur_punty (s : State) (f : Path → Path) : (s.mapCur f).punty = s.punty := rfl
@[simp] theorem State.mapCur_rounds (s : State) (f : Path → Path) : (s.mapCur f).rounds = s.rounds := rfl
@[simp] theorem State.mapCur_redps (s : State) (f : Path → Path) : (s.mapCur f).redps = s.redps := rfl
@[simp] theorem State.mapCur_hub (s : State) (f : Path → Path) : (s.mapCur f).hub = s.hub := rfl
@[simp] theorem State.mapCur_work (s : State) (f : Path → Path) : (s.mapCur f).work = s.work := rfl
@[simp] theorem State.mapCur_flits (s : State) (f : Path → Path) : (s.mapCur f).flits = s.flits := rfl
@[simp] theorem State.mapCur_pod (s : State) (f : Path → Path) : (s.mapCur f).pod = s.pod := rfl
@[simp] theorem State.mapCur_credits (s : State) (f : Path → Path) : (s.mapCur f).credits = s.credits := rfl
@[simp] theorem State.mapCur_credfix (s : State) (f : Path → Path) : (s.mapCur f).credfix = s.credfix := rfl
@[simp] theorem State.mapCur_frameDrops (s : State) (f : Path → Path) : (s.mapCur f).frameDrops = s.frameDrops := rfl
@[simp] theorem State.mapCur_fences (s : State) (f : Path → Path) : (s.mapCur f).fences = s.fences := rfl
@[simp] theorem State.mapCur_renqs (s : State) (f : Path → Path) : (s.mapCur f).renqs = s.renqs := rfl
@[simp] theorem State.mapCur_ctbase (s : State) (f : Path → Path) : (s.mapCur f).ctbase = s.ctbase := rfl
@[simp] theorem State.mapCur_partmap (s : State) (f : Path → Path) : (s.mapCur f).partmap = s.partmap := rfl
@[simp] theorem State.mapCur_boot (s : State) (f : Path → Path) : (s.mapCur f).boot = s.boot := rfl
@[simp] theorem State.mapCur_fenced (s : State) (f : Path → Path) : (s.mapCur f).fenced = s.fenced := rfl
@[simp] theorem State.mapCur_nextPacket (s : State) (f : Path → Path) : (s.mapCur f).nextPacket = s.nextPacket := rfl
@[simp] theorem State.mapCur_turn (s : State) (f : Path → Path) : (s.mapCur f).turn = s.turn := rfl
@[simp] theorem State.mapCur_tick (s : State) (f : Path → Path) : (s.mapCur f).tick = s.tick := rfl
@[simp] theorem State.mapCur_free (s : State) (f : Path → Path) : (s.mapCur f).free = s.free := rfl
@[simp] theorem State.mapCur_inputs (s : State) (f : Path → Path) : (s.mapCur f).inputs = s.inputs := rfl
@[simp] theorem State.mapCur_outbox (s : State) (f : Path → Path) : (s.mapCur f).outbox = s.outbox := rfl

/-! ### State.mapRegs -/

@[simp] theorem State.mapRegs_self (s : State) (f : Regs → Regs) : (s.mapRegs f).self = { s.self with regs := f s.self.regs } := rfl
@[simp] theorem State.mapRegs_crew (s : State) (f : Regs → Regs) : (s.mapRegs f).crew = s.crew := rfl
@[simp] theorem State.mapRegs_ctx (s : State) (f : Regs → Regs) : (s.mapRegs f).ctx = s.ctx := rfl
@[simp] theorem State.mapRegs_crews (s : State) (f : Regs → Regs) : (s.mapRegs f).crews = s.crews := rfl
@[simp] theorem State.mapRegs_ctxs (s : State) (f : Regs → Regs) : (s.mapRegs f).ctxs = s.ctxs := rfl
@[simp] theorem State.mapRegs_mem (s : State) (f : Regs → Regs) : (s.mapRegs f).mem = s.mem := rfl
@[simp] theorem State.mapRegs_dirty (s : State) (f : Regs → Regs) : (s.mapRegs f).dirty = s.dirty := rfl
@[simp] theorem State.mapRegs_unpushed (s : State) (f : Regs → Regs) : (s.mapRegs f).unpushed = s.unpushed := rfl
@[simp] theorem State.mapRegs_pois (s : State) (f : Regs → Regs) : (s.mapRegs f).pois = s.pois := rfl
@[simp] theorem State.mapRegs_tlb (s : State) (f : Regs → Regs) : (s.mapRegs f).tlb = s.tlb := rfl
@[simp] theorem State.mapRegs_dies (s : State) (f : Regs → Regs) : (s.mapRegs f).dies = s.dies := rfl
@[simp] theorem State.mapRegs_queues (s : State) (f : Regs → Regs) : (s.mapRegs f).queues = s.queues := rfl
@[simp] theorem State.mapRegs_punty (s : State) (f : Regs → Regs) : (s.mapRegs f).punty = s.punty := rfl
@[simp] theorem State.mapRegs_rounds (s : State) (f : Regs → Regs) : (s.mapRegs f).rounds = s.rounds := rfl
@[simp] theorem State.mapRegs_redps (s : State) (f : Regs → Regs) : (s.mapRegs f).redps = s.redps := rfl
@[simp] theorem State.mapRegs_hub (s : State) (f : Regs → Regs) : (s.mapRegs f).hub = s.hub := rfl
@[simp] theorem State.mapRegs_work (s : State) (f : Regs → Regs) : (s.mapRegs f).work = s.work := rfl
@[simp] theorem State.mapRegs_flits (s : State) (f : Regs → Regs) : (s.mapRegs f).flits = s.flits := rfl
@[simp] theorem State.mapRegs_pod (s : State) (f : Regs → Regs) : (s.mapRegs f).pod = s.pod := rfl
@[simp] theorem State.mapRegs_credits (s : State) (f : Regs → Regs) : (s.mapRegs f).credits = s.credits := rfl
@[simp] theorem State.mapRegs_credfix (s : State) (f : Regs → Regs) : (s.mapRegs f).credfix = s.credfix := rfl
@[simp] theorem State.mapRegs_frameDrops (s : State) (f : Regs → Regs) : (s.mapRegs f).frameDrops = s.frameDrops := rfl
@[simp] theorem State.mapRegs_fences (s : State) (f : Regs → Regs) : (s.mapRegs f).fences = s.fences := rfl
@[simp] theorem State.mapRegs_renqs (s : State) (f : Regs → Regs) : (s.mapRegs f).renqs = s.renqs := rfl
@[simp] theorem State.mapRegs_ctbase (s : State) (f : Regs → Regs) : (s.mapRegs f).ctbase = s.ctbase := rfl
@[simp] theorem State.mapRegs_partmap (s : State) (f : Regs → Regs) : (s.mapRegs f).partmap = s.partmap := rfl
@[simp] theorem State.mapRegs_boot (s : State) (f : Regs → Regs) : (s.mapRegs f).boot = s.boot := rfl
@[simp] theorem State.mapRegs_fenced (s : State) (f : Regs → Regs) : (s.mapRegs f).fenced = s.fenced := rfl
@[simp] theorem State.mapRegs_nextPacket (s : State) (f : Regs → Regs) : (s.mapRegs f).nextPacket = s.nextPacket := rfl
@[simp] theorem State.mapRegs_turn (s : State) (f : Regs → Regs) : (s.mapRegs f).turn = s.turn := rfl
@[simp] theorem State.mapRegs_tick (s : State) (f : Regs → Regs) : (s.mapRegs f).tick = s.tick := rfl
@[simp] theorem State.mapRegs_free (s : State) (f : Regs → Regs) : (s.mapRegs f).free = s.free := rfl
@[simp] theorem State.mapRegs_inputs (s : State) (f : Regs → Regs) : (s.mapRegs f).inputs = s.inputs := rfl
@[simp] theorem State.mapRegs_outbox (s : State) (f : Regs → Regs) : (s.mapRegs f).outbox = s.outbox := rfl

/-! ### State.send -/

@[simp] theorem State.send_self (s : State) (m : Msg) : (s.send m).self = s.self := rfl
@[simp] theorem State.send_crew (s : State) (m : Msg) : (s.send m).crew = s.crew := rfl
@[simp] theorem State.send_ctx (s : State) (m : Msg) : (s.send m).ctx = s.ctx := rfl
@[simp] theorem State.send_crews (s : State) (m : Msg) : (s.send m).crews = s.crews := rfl
@[simp] theorem State.send_ctxs (s : State) (m : Msg) : (s.send m).ctxs = s.ctxs := rfl
@[simp] theorem State.send_mem (s : State) (m : Msg) : (s.send m).mem = s.mem := rfl
@[simp] theorem State.send_dirty (s : State) (m : Msg) : (s.send m).dirty = s.dirty := rfl
@[simp] theorem State.send_unpushed (s : State) (m : Msg) : (s.send m).unpushed = s.unpushed := rfl
@[simp] theorem State.send_pois (s : State) (m : Msg) : (s.send m).pois = s.pois := rfl
@[simp] theorem State.send_tlb (s : State) (m : Msg) : (s.send m).tlb = s.tlb := rfl
@[simp] theorem State.send_dies (s : State) (m : Msg) : (s.send m).dies = s.dies := rfl
@[simp] theorem State.send_queues (s : State) (m : Msg) : (s.send m).queues = s.queues := rfl
@[simp] theorem State.send_punty (s : State) (m : Msg) : (s.send m).punty = s.punty := rfl
@[simp] theorem State.send_rounds (s : State) (m : Msg) : (s.send m).rounds = s.rounds := rfl
@[simp] theorem State.send_redps (s : State) (m : Msg) : (s.send m).redps = s.redps := rfl
@[simp] theorem State.send_hub (s : State) (m : Msg) : (s.send m).hub = s.hub := rfl
@[simp] theorem State.send_work (s : State) (m : Msg) : (s.send m).work = s.work := rfl
@[simp] theorem State.send_flits (s : State) (m : Msg) : (s.send m).flits = s.flits := rfl
@[simp] theorem State.send_pod (s : State) (m : Msg) : (s.send m).pod = s.pod := rfl
@[simp] theorem State.send_credits (s : State) (m : Msg) : (s.send m).credits = s.credits := rfl
@[simp] theorem State.send_credfix (s : State) (m : Msg) : (s.send m).credfix = s.credfix := rfl
@[simp] theorem State.send_frameDrops (s : State) (m : Msg) : (s.send m).frameDrops = s.frameDrops := rfl
@[simp] theorem State.send_fences (s : State) (m : Msg) : (s.send m).fences = s.fences := rfl
@[simp] theorem State.send_renqs (s : State) (m : Msg) : (s.send m).renqs = s.renqs := rfl
@[simp] theorem State.send_ctbase (s : State) (m : Msg) : (s.send m).ctbase = s.ctbase := rfl
@[simp] theorem State.send_partmap (s : State) (m : Msg) : (s.send m).partmap = s.partmap := rfl
@[simp] theorem State.send_boot (s : State) (m : Msg) : (s.send m).boot = s.boot := rfl
@[simp] theorem State.send_fenced (s : State) (m : Msg) : (s.send m).fenced = s.fenced := rfl
@[simp] theorem State.send_nextPacket (s : State) (m : Msg) : (s.send m).nextPacket = s.nextPacket := rfl
@[simp] theorem State.send_turn (s : State) (m : Msg) : (s.send m).turn = s.turn := rfl
@[simp] theorem State.send_tick (s : State) (m : Msg) : (s.send m).tick = s.tick := rfl
@[simp] theorem State.send_free (s : State) (m : Msg) : (s.send m).free = s.free := rfl
@[simp] theorem State.send_inputs (s : State) (m : Msg) : (s.send m).inputs = s.inputs := rfl
@[simp] theorem State.send_outbox (s : State) (m : Msg) : (s.send m).outbox = s.outbox ++ [m] := rfl

/-! ### State.advance -/

@[simp] theorem State.advance_self (s : State)  : (s.advance).self = s.self.advance := rfl
@[simp] theorem State.advance_crew (s : State)  : (s.advance).crew = s.crew := rfl
@[simp] theorem State.advance_ctx (s : State)  : (s.advance).ctx = s.ctx := rfl
@[simp] theorem State.advance_crews (s : State)  : (s.advance).crews = s.crews := rfl
@[simp] theorem State.advance_ctxs (s : State)  : (s.advance).ctxs = s.ctxs := rfl
@[simp] theorem State.advance_mem (s : State)  : (s.advance).mem = s.mem := rfl
@[simp] theorem State.advance_dirty (s : State)  : (s.advance).dirty = s.dirty := rfl
@[simp] theorem State.advance_unpushed (s : State)  : (s.advance).unpushed = s.unpushed := rfl
@[simp] theorem State.advance_pois (s : State)  : (s.advance).pois = s.pois := rfl
@[simp] theorem State.advance_tlb (s : State)  : (s.advance).tlb = s.tlb := rfl
@[simp] theorem State.advance_dies (s : State)  : (s.advance).dies = s.dies := rfl
@[simp] theorem State.advance_queues (s : State)  : (s.advance).queues = s.queues := rfl
@[simp] theorem State.advance_punty (s : State)  : (s.advance).punty = s.punty := rfl
@[simp] theorem State.advance_rounds (s : State)  : (s.advance).rounds = s.rounds := rfl
@[simp] theorem State.advance_redps (s : State)  : (s.advance).redps = s.redps := rfl
@[simp] theorem State.advance_hub (s : State)  : (s.advance).hub = s.hub := rfl
@[simp] theorem State.advance_work (s : State)  : (s.advance).work = s.work := rfl
@[simp] theorem State.advance_flits (s : State)  : (s.advance).flits = s.flits := rfl
@[simp] theorem State.advance_pod (s : State)  : (s.advance).pod = s.pod := rfl
@[simp] theorem State.advance_credits (s : State)  : (s.advance).credits = s.credits := rfl
@[simp] theorem State.advance_credfix (s : State)  : (s.advance).credfix = s.credfix := rfl
@[simp] theorem State.advance_frameDrops (s : State)  : (s.advance).frameDrops = s.frameDrops := rfl
@[simp] theorem State.advance_fences (s : State)  : (s.advance).fences = s.fences := rfl
@[simp] theorem State.advance_renqs (s : State)  : (s.advance).renqs = s.renqs := rfl
@[simp] theorem State.advance_ctbase (s : State)  : (s.advance).ctbase = s.ctbase := rfl
@[simp] theorem State.advance_partmap (s : State)  : (s.advance).partmap = s.partmap := rfl
@[simp] theorem State.advance_boot (s : State)  : (s.advance).boot = s.boot := rfl
@[simp] theorem State.advance_fenced (s : State)  : (s.advance).fenced = s.fenced := rfl
@[simp] theorem State.advance_nextPacket (s : State)  : (s.advance).nextPacket = s.nextPacket := rfl
@[simp] theorem State.advance_turn (s : State)  : (s.advance).turn = s.turn := rfl
@[simp] theorem State.advance_tick (s : State)  : (s.advance).tick = s.tick := rfl
@[simp] theorem State.advance_free (s : State)  : (s.advance).free = s.free := rfl
@[simp] theorem State.advance_inputs (s : State)  : (s.advance).inputs = s.inputs := rfl
@[simp] theorem State.advance_outbox (s : State)  : (s.advance).outbox = s.outbox := rfl

/-! ### State.putByte -/

@[simp] theorem State.putByte_self (s : State) (ca : Nat) (b : Byte) : (s.putByte ca b).self = s.self := rfl
@[simp] theorem State.putByte_crew (s : State) (ca : Nat) (b : Byte) : (s.putByte ca b).crew = s.crew := rfl
@[simp] theorem State.putByte_ctx (s : State) (ca : Nat) (b : Byte) : (s.putByte ca b).ctx = s.ctx := rfl
@[simp] theorem State.putByte_crews (s : State) (ca : Nat) (b : Byte) : (s.putByte ca b).crews = s.crews := rfl
@[simp] theorem State.putByte_ctxs (s : State) (ca : Nat) (b : Byte) : (s.putByte ca b).ctxs = s.ctxs := rfl
@[simp] theorem State.putByte_mem (s : State) (ca : Nat) (b : Byte) : (s.putByte ca b).mem = s.mem := rfl
@[simp] theorem State.putByte_dirty (s : State) (ca : Nat) (b : Byte) : (s.putByte ca b).dirty = s.dirty.write ca b := rfl
@[simp] theorem State.putByte_unpushed (s : State) (ca : Nat) (b : Byte) : (s.putByte ca b).unpushed = s.unpushed := rfl
@[simp] theorem State.putByte_pois (s : State) (ca : Nat) (b : Byte) : (s.putByte ca b).pois = s.pois := rfl
@[simp] theorem State.putByte_tlb (s : State) (ca : Nat) (b : Byte) : (s.putByte ca b).tlb = s.tlb := rfl
@[simp] theorem State.putByte_dies (s : State) (ca : Nat) (b : Byte) : (s.putByte ca b).dies = s.dies := rfl
@[simp] theorem State.putByte_queues (s : State) (ca : Nat) (b : Byte) : (s.putByte ca b).queues = s.queues := rfl
@[simp] theorem State.putByte_punty (s : State) (ca : Nat) (b : Byte) : (s.putByte ca b).punty = s.punty := rfl
@[simp] theorem State.putByte_rounds (s : State) (ca : Nat) (b : Byte) : (s.putByte ca b).rounds = s.rounds := rfl
@[simp] theorem State.putByte_redps (s : State) (ca : Nat) (b : Byte) : (s.putByte ca b).redps = s.redps := rfl
@[simp] theorem State.putByte_hub (s : State) (ca : Nat) (b : Byte) : (s.putByte ca b).hub = s.hub := rfl
@[simp] theorem State.putByte_work (s : State) (ca : Nat) (b : Byte) : (s.putByte ca b).work = s.work := rfl
@[simp] theorem State.putByte_flits (s : State) (ca : Nat) (b : Byte) : (s.putByte ca b).flits = s.flits := rfl
@[simp] theorem State.putByte_pod (s : State) (ca : Nat) (b : Byte) : (s.putByte ca b).pod = s.pod := rfl
@[simp] theorem State.putByte_credits (s : State) (ca : Nat) (b : Byte) : (s.putByte ca b).credits = s.credits := rfl
@[simp] theorem State.putByte_credfix (s : State) (ca : Nat) (b : Byte) : (s.putByte ca b).credfix = s.credfix := rfl
@[simp] theorem State.putByte_frameDrops (s : State) (ca : Nat) (b : Byte) : (s.putByte ca b).frameDrops = s.frameDrops := rfl
@[simp] theorem State.putByte_fences (s : State) (ca : Nat) (b : Byte) : (s.putByte ca b).fences = s.fences := rfl
@[simp] theorem State.putByte_renqs (s : State) (ca : Nat) (b : Byte) : (s.putByte ca b).renqs = s.renqs := rfl
@[simp] theorem State.putByte_ctbase (s : State) (ca : Nat) (b : Byte) : (s.putByte ca b).ctbase = s.ctbase := rfl
@[simp] theorem State.putByte_partmap (s : State) (ca : Nat) (b : Byte) : (s.putByte ca b).partmap = s.partmap := rfl
@[simp] theorem State.putByte_boot (s : State) (ca : Nat) (b : Byte) : (s.putByte ca b).boot = s.boot := rfl
@[simp] theorem State.putByte_fenced (s : State) (ca : Nat) (b : Byte) : (s.putByte ca b).fenced = s.fenced := rfl
@[simp] theorem State.putByte_nextPacket (s : State) (ca : Nat) (b : Byte) : (s.putByte ca b).nextPacket = s.nextPacket := rfl
@[simp] theorem State.putByte_turn (s : State) (ca : Nat) (b : Byte) : (s.putByte ca b).turn = s.turn := rfl
@[simp] theorem State.putByte_tick (s : State) (ca : Nat) (b : Byte) : (s.putByte ca b).tick = s.tick := rfl
@[simp] theorem State.putByte_free (s : State) (ca : Nat) (b : Byte) : (s.putByte ca b).free = s.free := rfl
@[simp] theorem State.putByte_inputs (s : State) (ca : Nat) (b : Byte) : (s.putByte ca b).inputs = s.inputs := rfl
@[simp] theorem State.putByte_outbox (s : State) (ca : Nat) (b : Byte) : (s.putByte ca b).outbox = s.outbox := rfl

/-! ### State.publish -/

@[simp] theorem State.publish_self (s : State) (n : Nat) : (s.publish n).self = s.self := rfl
@[simp] theorem State.publish_crew (s : State) (n : Nat) : (s.publish n).crew = s.crew := rfl
@[simp] theorem State.publish_ctx (s : State) (n : Nat) : (s.publish n).ctx = s.ctx := rfl
@[simp] theorem State.publish_crews (s : State) (n : Nat) : (s.publish n).crews = s.crews := rfl
@[simp] theorem State.publish_ctxs (s : State) (n : Nat) : (s.publish n).ctxs = s.ctxs := rfl
@[simp] theorem State.publish_mem (s : State) (n : Nat) : (s.publish n).mem = s.mem := rfl
@[simp] theorem State.publish_dirty (s : State) (n : Nat) : (s.publish n).dirty = s.dirty := rfl
@[simp] theorem State.publish_unpushed (s : State) (n : Nat) : (s.publish n).unpushed = (s.publish n).unpushed := rfl
@[simp] theorem State.publish_pois (s : State) (n : Nat) : (s.publish n).pois = s.pois := rfl
@[simp] theorem State.publish_tlb (s : State) (n : Nat) : (s.publish n).tlb = s.tlb := rfl
@[simp] theorem State.publish_dies (s : State) (n : Nat) : (s.publish n).dies = s.dies := rfl
@[simp] theorem State.publish_queues (s : State) (n : Nat) : (s.publish n).queues = s.queues := rfl
@[simp] theorem State.publish_punty (s : State) (n : Nat) : (s.publish n).punty = s.punty := rfl
@[simp] theorem State.publish_rounds (s : State) (n : Nat) : (s.publish n).rounds = s.rounds := rfl
@[simp] theorem State.publish_redps (s : State) (n : Nat) : (s.publish n).redps = s.redps := rfl
@[simp] theorem State.publish_hub (s : State) (n : Nat) : (s.publish n).hub = s.hub := rfl
@[simp] theorem State.publish_work (s : State) (n : Nat) : (s.publish n).work = s.work := rfl
@[simp] theorem State.publish_flits (s : State) (n : Nat) : (s.publish n).flits = s.flits := rfl
@[simp] theorem State.publish_pod (s : State) (n : Nat) : (s.publish n).pod = s.pod := rfl
@[simp] theorem State.publish_credits (s : State) (n : Nat) : (s.publish n).credits = s.credits := rfl
@[simp] theorem State.publish_credfix (s : State) (n : Nat) : (s.publish n).credfix = s.credfix := rfl
@[simp] theorem State.publish_frameDrops (s : State) (n : Nat) : (s.publish n).frameDrops = s.frameDrops := rfl
@[simp] theorem State.publish_fences (s : State) (n : Nat) : (s.publish n).fences = s.fences := rfl
@[simp] theorem State.publish_renqs (s : State) (n : Nat) : (s.publish n).renqs = s.renqs := rfl
@[simp] theorem State.publish_ctbase (s : State) (n : Nat) : (s.publish n).ctbase = s.ctbase := rfl
@[simp] theorem State.publish_partmap (s : State) (n : Nat) : (s.publish n).partmap = s.partmap := rfl
@[simp] theorem State.publish_boot (s : State) (n : Nat) : (s.publish n).boot = s.boot := rfl
@[simp] theorem State.publish_fenced (s : State) (n : Nat) : (s.publish n).fenced = s.fenced := rfl
@[simp] theorem State.publish_nextPacket (s : State) (n : Nat) : (s.publish n).nextPacket = s.nextPacket := rfl
@[simp] theorem State.publish_turn (s : State) (n : Nat) : (s.publish n).turn = s.turn := rfl
@[simp] theorem State.publish_tick (s : State) (n : Nat) : (s.publish n).tick = s.tick := rfl
@[simp] theorem State.publish_free (s : State) (n : Nat) : (s.publish n).free = s.free := rfl
@[simp] theorem State.publish_inputs (s : State) (n : Nat) : (s.publish n).inputs = s.inputs := rfl
@[simp] theorem State.publish_outbox (s : State) (n : Nat) : (s.publish n).outbox = s.outbox := rfl

/-! ### State.raiseFlags -/

@[simp] theorem State.raiseFlags_self (s : State) (fl : Flags) : (s.raiseFlags fl).self = { s.self with regs := { s.self.regs with fpc := Machine.raiseFlags s.self.regs.fpc fl } } := rfl
@[simp] theorem State.raiseFlags_crew (s : State) (fl : Flags) : (s.raiseFlags fl).crew = s.crew := rfl
@[simp] theorem State.raiseFlags_ctx (s : State) (fl : Flags) : (s.raiseFlags fl).ctx = s.ctx := rfl
@[simp] theorem State.raiseFlags_crews (s : State) (fl : Flags) : (s.raiseFlags fl).crews = s.crews := rfl
@[simp] theorem State.raiseFlags_ctxs (s : State) (fl : Flags) : (s.raiseFlags fl).ctxs = s.ctxs := rfl
@[simp] theorem State.raiseFlags_mem (s : State) (fl : Flags) : (s.raiseFlags fl).mem = s.mem := rfl
@[simp] theorem State.raiseFlags_dirty (s : State) (fl : Flags) : (s.raiseFlags fl).dirty = s.dirty := rfl
@[simp] theorem State.raiseFlags_unpushed (s : State) (fl : Flags) : (s.raiseFlags fl).unpushed = s.unpushed := rfl
@[simp] theorem State.raiseFlags_pois (s : State) (fl : Flags) : (s.raiseFlags fl).pois = s.pois := rfl
@[simp] theorem State.raiseFlags_tlb (s : State) (fl : Flags) : (s.raiseFlags fl).tlb = s.tlb := rfl
@[simp] theorem State.raiseFlags_dies (s : State) (fl : Flags) : (s.raiseFlags fl).dies = s.dies := rfl
@[simp] theorem State.raiseFlags_queues (s : State) (fl : Flags) : (s.raiseFlags fl).queues = s.queues := rfl
@[simp] theorem State.raiseFlags_punty (s : State) (fl : Flags) : (s.raiseFlags fl).punty = s.punty := rfl
@[simp] theorem State.raiseFlags_rounds (s : State) (fl : Flags) : (s.raiseFlags fl).rounds = s.rounds := rfl
@[simp] theorem State.raiseFlags_redps (s : State) (fl : Flags) : (s.raiseFlags fl).redps = s.redps := rfl
@[simp] theorem State.raiseFlags_hub (s : State) (fl : Flags) : (s.raiseFlags fl).hub = s.hub := rfl
@[simp] theorem State.raiseFlags_work (s : State) (fl : Flags) : (s.raiseFlags fl).work = s.work := rfl
@[simp] theorem State.raiseFlags_flits (s : State) (fl : Flags) : (s.raiseFlags fl).flits = s.flits := rfl
@[simp] theorem State.raiseFlags_pod (s : State) (fl : Flags) : (s.raiseFlags fl).pod = s.pod := rfl
@[simp] theorem State.raiseFlags_credits (s : State) (fl : Flags) : (s.raiseFlags fl).credits = s.credits := rfl
@[simp] theorem State.raiseFlags_credfix (s : State) (fl : Flags) : (s.raiseFlags fl).credfix = s.credfix := rfl
@[simp] theorem State.raiseFlags_frameDrops (s : State) (fl : Flags) : (s.raiseFlags fl).frameDrops = s.frameDrops := rfl
@[simp] theorem State.raiseFlags_fences (s : State) (fl : Flags) : (s.raiseFlags fl).fences = s.fences := rfl
@[simp] theorem State.raiseFlags_renqs (s : State) (fl : Flags) : (s.raiseFlags fl).renqs = s.renqs := rfl
@[simp] theorem State.raiseFlags_ctbase (s : State) (fl : Flags) : (s.raiseFlags fl).ctbase = s.ctbase := rfl
@[simp] theorem State.raiseFlags_partmap (s : State) (fl : Flags) : (s.raiseFlags fl).partmap = s.partmap := rfl
@[simp] theorem State.raiseFlags_boot (s : State) (fl : Flags) : (s.raiseFlags fl).boot = s.boot := rfl
@[simp] theorem State.raiseFlags_fenced (s : State) (fl : Flags) : (s.raiseFlags fl).fenced = s.fenced := rfl
@[simp] theorem State.raiseFlags_nextPacket (s : State) (fl : Flags) : (s.raiseFlags fl).nextPacket = s.nextPacket := rfl
@[simp] theorem State.raiseFlags_turn (s : State) (fl : Flags) : (s.raiseFlags fl).turn = s.turn := rfl
@[simp] theorem State.raiseFlags_tick (s : State) (fl : Flags) : (s.raiseFlags fl).tick = s.tick := rfl
@[simp] theorem State.raiseFlags_free (s : State) (fl : Flags) : (s.raiseFlags fl).free = s.free := rfl
@[simp] theorem State.raiseFlags_inputs (s : State) (fl : Flags) : (s.raiseFlags fl).inputs = s.inputs := rfl
@[simp] theorem State.raiseFlags_outbox (s : State) (fl : Flags) : (s.raiseFlags fl).outbox = s.outbox := rfl

/-! ### Agent.retire1 -/

@[simp] theorem Agent.retire1_unit (a : Agent) : a.retire1.unit = a.unit := rfl
@[simp] theorem Agent.retire1_cur (a : Agent) : a.retire1.cur = a.cur := rfl
@[simp] theorem Agent.retire1_splits (a : Agent) : a.retire1.splits = a.splits := rfl
@[simp] theorem Agent.retire1_park (a : Agent) : a.retire1.park = a.park := rfl
@[simp] theorem Agent.retire1_regs (a : Agent) : a.retire1.regs = a.regs := rfl
@[simp] theorem Agent.retire1_tokens (a : Agent) : a.retire1.tokens = a.tokens := rfl
@[simp] theorem Agent.retire1_urg (a : Agent) : a.retire1.urg = a.urg := rfl
@[simp] theorem Agent.retire1_tl (a : Agent) : a.retire1.tl = a.tl := rfl
@[simp] theorem Agent.retire1_t1 (a : Agent) : a.retire1.t1 = a.t1 := rfl
@[simp] theorem Agent.retire1_t2 (a : Agent) : a.retire1.t2 = a.t2 := rfl
@[simp] theorem Agent.retire1_run (a : Agent) : a.retire1.run = a.run := rfl
@[simp] theorem Agent.retire1_replay (a : Agent) : a.retire1.replay = a.replay := rfl
@[simp] theorem Agent.retire1_streams (a : Agent) : a.retire1.streams = a.streams := rfl
@[simp] theorem Agent.retire1_imprecise (a : Agent) : a.retire1.imprecise = a.imprecise := rfl
@[simp] theorem Agent.retire1_version (a : Agent) : a.retire1.version = a.version := rfl
@[simp] theorem Agent.retire1_rotLow (a : Agent) : a.retire1.rotLow = a.rotLow := rfl
@[simp] theorem Agent.retire1_pois (a : Agent) : a.retire1.pois = a.pois := rfl

/-! ### Agent.advance -/

@[simp] theorem Agent.advance_unit (a : Agent) : a.advance.unit = a.unit := rfl
@[simp] theorem Agent.advance_splits (a : Agent) : a.advance.splits = a.splits := rfl
@[simp] theorem Agent.advance_park (a : Agent) : a.advance.park = a.park := rfl
@[simp] theorem Agent.advance_regs (a : Agent) : a.advance.regs = a.regs := rfl
@[simp] theorem Agent.advance_tokens (a : Agent) : a.advance.tokens = a.tokens := rfl
@[simp] theorem Agent.advance_urg (a : Agent) : a.advance.urg = a.urg := rfl
@[simp] theorem Agent.advance_tl (a : Agent) : a.advance.tl = a.tl := rfl
@[simp] theorem Agent.advance_t1 (a : Agent) : a.advance.t1 = a.t1 := rfl
@[simp] theorem Agent.advance_t2 (a : Agent) : a.advance.t2 = a.t2 := rfl
@[simp] theorem Agent.advance_replay (a : Agent) : a.advance.replay = a.replay := rfl
@[simp] theorem Agent.advance_streams (a : Agent) : a.advance.streams = a.streams := rfl
@[simp] theorem Agent.advance_imprecise (a : Agent) : a.advance.imprecise = a.imprecise := rfl
@[simp] theorem Agent.advance_version (a : Agent) : a.advance.version = a.version := rfl
@[simp] theorem Agent.advance_rotLow (a : Agent) : a.advance.rotLow = a.rotLow := rfl
@[simp] theorem Agent.advance_pois (a : Agent) : a.advance.pois = a.pois := rfl
@[simp] theorem Agent.advance_cur_slot (a : Agent) : a.advance.cur.slot = a.cur.slot := rfl
@[simp] theorem Agent.advance_cur_pc (a : Agent) : a.advance.cur.pc = a.cur.pc + 4 := rfl
@[simp] theorem Agent.advance_cur_mask (a : Agent) : a.advance.cur.mask = a.cur.mask := rfl
@[simp] theorem Agent.advance_cur_only (a : Agent) : a.advance.cur.only = none := rfl
@[simp] theorem Agent.advance_cur_stack (a : Agent) : a.advance.cur.stack = a.cur.stack := rfl
@[simp] theorem Agent.advance_cur_pfx (a : Agent) : a.advance.cur.pfx = Pfx.empty := rfl
@[simp] theorem Agent.advance_cur_wait (a : Agent) : a.advance.cur.wait = a.cur.wait := rfl
@[simp] theorem Agent.advance_cur_failed (a : Agent) : a.advance.cur.failed = if a.inRun then a.cur.failed else [] := rfl
@[simp] theorem Agent.advance_cur_handler (a : Agent) : a.advance.cur.handler = a.cur.handler := rfl
@[simp] theorem Agent.advance_cur_since (a : Agent) : a.advance.cur.since = a.cur.since := rfl
@[simp] theorem Agent.advance_run (a : Agent) : a.advance.run = a.run.map fun r => { r with pos := r.pos + 1, count := r.count + 1 } := rfl
@[simp] theorem Agent.advance_retired (a : Agent) : a.advance.retired = if a.inRun then a.retired else a.retire1.retired := rfl

end Sys2Proof.Machine
end

