-- ==== Sys2Proof/Laws/Frames.lean ====
section
/-!
SUPPORT. What each execution frame can do, once: the checks, the pops, the end.
-/
namespace Sys2Proof.Machine

open Sys2Proof

set_option Elab.async false

/-! ### Flags -/

theorem foldl_or_zero {α : Type} (l : List α) (z : Flags) : l.foldl (fun a _ => a ||| (0 : Flags)) z = z := by
  induction l with
  | nil => rfl
  | cons x xs ih => simpa using ih

@[simp] theorem orFlags_zero (m : Mask) : orFlags m (fun _ => 0#5) = 0#5 := foldl_or_zero _ 0

@[simp] theorem raiseFlags_zero (f : Word) : Machine.raiseFlags f 0#5 = f := by simp [Machine.raiseFlags]

@[simp] theorem State.raiseFlags_zero (s : State) : s.raiseFlags 0#5 = s := by
  simp [State.raiseFlags, State.mapRegs, State.mapSelf]

theorem raiseFlags_or (f : Word) (x y : Flags) :
    Machine.raiseFlags (Machine.raiseFlags f x) y = Machine.raiseFlags f (x ||| y) := by
  simp [Machine.raiseFlags, BitVec.or_assoc]

theorem State.raiseFlags_raiseFlags (s : State) (x y : Flags) :
    (s.raiseFlags x).raiseFlags y = s.raiseFlags (x ||| y) := by
  simp [State.raiseFlags, State.mapRegs, State.mapSelf, raiseFlags_or]

@[simp] theorem Exit.withFlags_zero (e : Exit) : e.withFlags 0#5 = e := by cases e <;> simp [Exit.withFlags]

theorem Exit.withFlags_withFlags (e : Exit) (x y : Flags) : (e.withFlags x).withFlags y = e.withFlags (x ||| y) := by
  cases e <;> simp [Exit.withFlags, State.raiseFlags_raiseFlags]

/-! ### Checks -/

@[simp] theorem firstTrap_nil : firstTrap [] = none := rfl
@[simp] theorem firstTrap_none (l : List (Option Trap)) : firstTrap (none :: l) = firstTrap l := rfl
@[simp] theorem firstTrap_some (t : Trap) (l : List (Option Trap)) : firstTrap (some t :: l) = some t := rfl
@[simp] theorem operandIf_false (w : Word) (f : Nat) (m : Mask) : operandIf false w f m = none := rfl

/-- No check of a list traps exactly when each passes. -/
theorem firstTrap_eq_none (l : List (Option Trap)) : firstTrap l = none ↔ ∀ x ∈ l, x = none := by
  induction l with
  | nil => simp
  | cons x xs ih => cases x <;> simp [ih]

/-! ### The frame -/

/-- A failed check traps. -/
theorem frame_trap {s : State} {w : Word} {m : Mask} {cs : List (Option Trap)} {srcs : List (BitVec 7)}
    {k : State → Pops → Exit} {t : Trap} (h : firstTrap cs = some t) : s.frame w m cs srcs k = .next (s.raise t) := by
  simp [State.frame, h]

/-- With the checks passed and the queues popped, the rest of the instruction decides. -/
theorem frame_pops {s s1 : State} {w : Word} {m : Mask} {cs : List (Option Trap)} {srcs : List (BitVec 7)}
    {k : State → Pops → Exit} {ps : Pops} {fl : Nat → Flags} (h : firstTrap cs = none)
    (hp : s.popAll w m (queuesOf srcs) [] (fun _ => 0) = .ok (s1, ps, fl)) :
    s.frame w m cs srcs k = (((k s1 ps).withFlags (orFlags m fl)).unpop s).settle := by
  simp only [State.frame, State.withPops, h, hp]

/-- Without source queues nothing is popped. -/
theorem frame_none {s : State} {w : Word} {m : Mask} {cs : List (Option Trap)} {srcs : List (BitVec 7)}
    {k : State → Pops → Exit} (h : firstTrap cs = none) (hq : queuesOf srcs = []) :
    s.frame w m cs srcs k = ((k s []).unpop s).settle := by
  have := frame_pops (s := s) (w := w) (m := m) (k := k) (ps := []) (fl := fun _ => 0) h
    (by rw [hq]; rfl)
  simpa using this

@[simp] theorem queuesOf_nil : queuesOf [] = [] := rfl

@[simp] theorem Exit.unpop_done (s t : State) : (Exit.done t).unpop s = .done t := rfl
@[simp] theorem Exit.unpop_moved (s t : State) : (Exit.moved t).unpop s = .moved t := rfl
@[simp] theorem Exit.withFlags_done (t : State) (f : Flags) : (Exit.done t).withFlags f = .done (t.raiseFlags f) := rfl
@[simp] theorem Exit.withFlags_moved (t : State) (f : Flags) : (Exit.moved t).withFlags f = .moved (t.raiseFlags f) := rfl
@[simp] theorem Exit.settle_done (t : State) : (Exit.done t).settle = .next t.advance := rfl
@[simp] theorem Exit.settle_moved (t : State) : (Exit.moved t).settle = .next t := rfl
@[simp] theorem Exit.settle_trap (t : State) (x : Trap) : (Exit.trap t x).settle = .next (t.raise x) := rfl
@[simp] theorem Exit.settle_wait (t : State) (w : Wait) : (Exit.wait t w).settle = .next (t.mapSelf fun a => a.hold w) := rfl

/-- Putting back queue registers that have not changed changes nothing. -/
@[simp] theorem State.restoreQueues_self (s : State) : s.restoreQueues s = s := rfl

@[simp] theorem Exit.unpop_trap_self (s : State) (x : Trap) : (Exit.trap s x).unpop s = .trap s x := rfl
@[simp] theorem Exit.unpop_wait_self (s : State) (w : Wait) : (Exit.wait s w).unpop s = .wait s w := rfl

/-! ### Vector instructions -/

/-- A vector instruction whose operation succeeds gives the result in its destination. -/
theorem vec_done {s s1 s2 : State} {i : Instr} {n : Needs} {m : Mask} {d a : BitVec 7} {b : BSrc} {rd : Bool}
    {op : Lanes → Lanes → Lanes → LaneRes} {ps : Pops} {fl : Nat → Flags} {v : Lanes} {f : Flags}
    (hc : firstTrap (s.vecChecks i n m rd d a b) = none) (hp : s.pops i m (a :: b.specs) = .ok (s1, ps, fl))
    (ho : op (s.readV ps a) (s.readB ps b) (if rd then s.oldDest d else Lanes.const 0) = .ok (v, f))
    (hw : s1.writeDest d (encode i) m v = .done s2) :
    s.vec (encode i) n false m d a b rd op = .next (s2.raiseFlags (f ||| orFlags m fl)).advance := by
  refine (frame_pops hc hp).trans ?_
  rw [ho]
  simp [hw, State.raiseFlags_raiseFlags]

theorem vec_trap {s : State} {i : Instr} {n : Needs} {m : Mask} {d a : BitVec 7} {b : BSrc} {rd : Bool}
    {op : Lanes → Lanes → Lanes → LaneRes} {t : Trap} (hc : firstTrap (s.vecChecks i n m rd d a b) = some t) :
    s.vec (encode i) n false m d a b rd op = .next (s.raise t) := frame_trap hc

/-- A predicate instruction. -/
theorem vecP_done {s s1 : State} {i : Instr} {n : Needs} {m : Mask} {p : BitVec 3} {a : BitVec 7} {b : BSrc}
    {op : Lanes → Lanes → Mask × Flags} {ps : Pops} {fl : Nat → Flags}
    (hc : firstTrap (s.predChecks i n m a b) = none) (hp : s.pops i m (a :: b.specs) = .ok (s1, ps, fl)) :
    s.vecP (encode i) n false m p a b op = .next ((s1.putP p m (op (s.readV ps a) (s.readB ps b)).1).raiseFlags
      ((op (s.readV ps a) (s.readB ps b)).2 ||| orFlags m fl)).advance := by
  refine (frame_pops hc hp).trans ?_
  simp [State.raiseFlags_raiseFlags]

theorem vecP_trap {s : State} {i : Instr} {n : Needs} {m : Mask} {p : BitVec 3} {a : BitVec 7} {b : BSrc}
    {op : Lanes → Lanes → Mask × Flags} {t : Trap} (hc : firstTrap (s.predChecks i n m a b) = some t) :
    s.vecP (encode i) n false m p a b op = .next (s.raise t) := frame_trap hc

/-! ### Scalar instructions -/

theorem scalar_done {s : State} {i : Instr} {h : HmodUse} {g : BitVec 3} {d a : BitVec 7} {b : SSrc}
    {op : DWord → DWord → DWord} (hc : firstTrap (s.scalarChecks i h d a b) = none) :
    s.scalar (encode i) h g d a b op = .next
      (if s.uniform g then s.putS (d.toNat - 0x40) (op (s.readS a) (s.readSB b)) else s).advance := by
  refine (frame_none hc rfl).trans ?_
  split <;> simp

theorem scalar_trap {s : State} {i : Instr} {h : HmodUse} {g : BitVec 3} {d a : BitVec 7} {b : SSrc}
    {op : DWord → DWord → DWord} {t : Trap} (hc : firstTrap (s.scalarChecks i h d a b) = some t) :
    s.scalar (encode i) h g d a b op = .next (s.raise t) := frame_trap hc

/-! ### FX, FE and FS instructions -/

/-- An FX instruction that passes its checks is its rest. -/
theorem fx_ready {s : State} {i : Instr} {n : Needs} {cs : List (Option Trap)} {k : State → Exit}
    (h : s.FxReady i n) (hc : firstTrap cs = none) : s.fx (encode i) n cs k = ((k s).unpop s).settle := by
  unfold State.fx
  rw [frame_none (by simpa [h.1] using hc) rfl, if_neg h.2]

theorem fx_done {s t : State} {i : Instr} {n : Needs} {cs : List (Option Trap)} {k : State → Exit}
    (h : s.FxReady i n) (hc : firstTrap cs = none) (hk : k s = .done t) : s.fx (encode i) n cs k = .next t.advance := by
  rw [fx_ready h hc, hk]; rfl

theorem fx_moved {s t : State} {i : Instr} {n : Needs} {cs : List (Option Trap)} {k : State → Exit}
    (h : s.FxReady i n) (hc : firstTrap cs = none) (hk : k s = .moved t) : s.fx (encode i) n cs k = .next t := by
  rw [fx_ready h hc, hk]; rfl

/-- An FX instruction of which no lane executes does nothing. -/
theorem fx_idle {s : State} {w : Word} {n : Needs} {cs : List (Option Trap)} {k : State → Exit}
    (hc : firstTrap (s.issueCheck n false w s.self.cur.lanes :: cs) = none) (h0 : s.self.cur.lanes = 0) :
    s.fx w n cs k = .next s.advance := by
  unfold State.fx
  rw [frame_none hc rfl, if_pos h0]; rfl

@[simp] theorem Exit.withRef_ok (s : State) (r : ScrRef) (k : ScrRef → Exit) : Exit.withRef s (.ok r) k = k r := rfl
@[simp] theorem Exit.withRef_error (s : State) (t : Trap) (k : ScrRef → Exit) : Exit.withRef s (.error t) k = .trap s t := rfl

/-- A release with an empty replay queue goes on at once. -/
theorem release_empty {s : State} {k : State → Exit} (h : s.self.replay = []) : s.release k = k s := by
  simp [State.release, h]

end Sys2Proof.Machine
end

