-- ==== Sys2Proof/Laws/Memory.lean ====
section
/-!
SUPPORT. The laws of sparse maps and of byte memory: what a write changes, and that every operation keeps the canonical form.
-/
namespace Sys2Proof.Machine

open Sys2Proof

/-! ### Sparse maps -/

/-- A write changes the value at its key and no other. -/
theorem Sparse.get_set {β : Type} [DecidableEq β] (d : β) (m : List (Nat × β)) (h : Sparse.wf d m = true) (a x : Nat) (v : β) :
    Sparse.get d (Sparse.set d m a v) x = if a = x then v else Sparse.get d m x := by
  induction m with
  | nil => by_cases hv : v = d <;> by_cases hx : a = x <;> simp_all [Sparse.set, Sparse.get]
  | cons c t ih =>
    obtain ⟨k, w⟩ := c
    simp only [Sparse.wf, Bool.and_eq_true, decide_eq_true_eq] at h
    obtain ⟨⟨hw, hk⟩, ht⟩ := h
    have low : ∀ y, y ≤ k → Sparse.get d t y = d := by
      intro y hy
      clear ih ht
      induction t with
      | nil => rfl
      | cons c u ih =>
        simp only [Sparse.above, List.all_cons, Bool.and_eq_true, decide_eq_true_eq] at hk ih
        have hne : c.1 ≠ y := by omega
        simp only [Sparse.get, hne, if_false]
        exact ih hk.2
    simp only [Sparse.set]
    by_cases h1 : a < k
    · by_cases hv : v = d
      · by_cases hx : a = x
        · subst hx
          have : ¬ k = a := by omega
          simp [h1, hv, Sparse.get, this, low a (by omega)]
        · simp [h1, hv, hx]
      · simp [h1, hv, Sparse.get]
    · by_cases h2 : a = k
      · subst h2
        by_cases hv : v = d
        · by_cases hx : a = x
          · subst hx; simp [hv, low a (by omega)]
          · simp [hv, hx, Sparse.get]
        · by_cases hx : a = x <;> simp [hv, hx, Sparse.get]
      · by_cases hkx : k = x
        · have : ¬ a = x := by omega
          subst hkx
          simp [h1, h2, Sparse.get]
        · simp [h1, h2, Sparse.get, hkx, ih ht]

/-- A write puts no key but its own into a map. -/
theorem Sparse.above_set {β : Type} [DecidableEq β] (d : β) (m : List (Nat × β)) (lo a : Nat) (v : β) (ha : lo < a)
    (hm : Sparse.above lo m = true) : Sparse.above lo (Sparse.set d m a v) = true := by
  induction m with
  | nil => by_cases hv : v = d <;> simp [Sparse.set, Sparse.above, hv, ha]
  | cons c t ih =>
    obtain ⟨k, w⟩ := c
    simp only [Sparse.above, List.all_cons, Bool.and_eq_true, decide_eq_true_eq] at hm ih
    simp only [Sparse.set]
    split
    · split <;> simp [Sparse.above, ha, hm.1, hm.2]
    · split
      · split <;> simp [Sparse.above, ha, hm.2]
      · simp only [Sparse.above, List.all_cons, Bool.and_eq_true, decide_eq_true_eq]
        exact ⟨hm.1, ih hm.2⟩

/-- Keys above a bound lie above every lower one. -/
theorem Sparse.above_mono {β : Type} (m : List (Nat × β)) (lo hi : Nat) (h : lo ≤ hi) (hm : Sparse.above hi m = true) :
    Sparse.above lo m = true := by
  simp only [Sparse.above, List.all_eq_true, decide_eq_true_eq] at *
  exact fun c hc => Nat.lt_of_le_of_lt h (hm c hc)

/-- A write keeps the canonical form. -/
theorem Sparse.set_wf {β : Type} [DecidableEq β] (d : β) (m : List (Nat × β)) (a : Nat) (v : β) (h : Sparse.wf d m = true) :
    Sparse.wf d (Sparse.set d m a v) = true := by
  induction m with
  | nil => by_cases hv : v = d <;> simp [Sparse.set, Sparse.wf, Sparse.above, hv]
  | cons c t ih =>
    obtain ⟨k, w⟩ := c
    simp only [Sparse.wf, Bool.and_eq_true, decide_eq_true_eq] at h
    obtain ⟨⟨hw, hk⟩, ht⟩ := h
    simp only [Sparse.set]
    by_cases h1 : a < k
    · by_cases hv : v = d
      · simp [h1, hv, Sparse.wf, hw, hk, ht]
      · have hk' := Sparse.above_mono t a k (by omega) hk
        simp only [Sparse.above] at hk hk'
        simp [h1, hv, Sparse.wf, hw, ht, Sparse.above]
        simp at hk hk'
        exact ⟨hk', hk⟩
    · by_cases h2 : a = k
      · subst h2
        by_cases hv : v = d <;> simp [hv, Sparse.wf, hk, ht]
      · simp [h1, h2, Sparse.wf, hw, ih ht, Sparse.above_set d t k a v (by omega) hk]

/-! ### Byte memory -/

/-- Reading a byte after a write. -/
theorem Memory.read_write (m : Memory) (h : m.wf = true) (a x : Nat) (b : Byte) :
    (m.write a b).read x = if a = x then b else m.read x := Sparse.get_set _ m h a x b

/-- Writing a byte keeps the canonical form. -/
theorem Memory.write_wf (m : Memory) (a : Nat) (b : Byte) (h : m.wf = true) : (m.write a b).wf = true :=
  Sparse.set_wf _ m a b h

/-- Writing bytes keeps the canonical form. -/
theorem Memory.writeBytes_wf (m : Memory) (a : Nat) (bs : List Byte) (h : m.wf = true) : (m.writeBytes a bs).wf = true := by
  induction bs generalizing m a with
  | nil => exact h
  | cons b bs ih => exact ih (m.write a b) (a + 1) (Memory.write_wf m a b h)

/-- Writing a number keeps the canonical form. -/
theorem Memory.writeLe_wf (m : Memory) (a n v : Nat) (h : m.wf = true) : (m.writeLe a n v).wf = true :=
  Memory.writeBytes_wf m a _ h

/-- Bytes outside those written read as before. -/
theorem Memory.read_writeBytes (m : Memory) (h : m.wf = true) (a x : Nat) (bs : List Byte) (hx : x < a ∨ a + bs.length ≤ x) :
    (m.writeBytes a bs).read x = m.read x := by
  induction bs generalizing m a with
  | nil => rfl
  | cons b bs ih =>
    simp only [List.length_cons] at hx
    rw [Memory.writeBytes, ih (m.write a b) (Memory.write_wf m a b h) (a + 1) (by omega), Memory.read_write m h]
    have : ¬ a = x := by omega
    simp [this]

/-! ### Overlays -/

/-- Writing a byte of an overlay keeps the canonical form. -/
theorem Overlay.write_wf (o : Overlay) (a : Nat) (b : Byte) (h : o.wf = true) : (o.write a b).wf = true :=
  Sparse.set_wf _ o a (some b) h

/-- Dropping a byte of an overlay keeps the canonical form. -/
theorem Overlay.erase_wf (o : Overlay) (a : Nat) (h : o.wf = true) : (o.erase a).wf = true := Sparse.set_wf _ o a none h

/-- Reading a byte of an overlay after a write. -/
theorem Overlay.read_write (o : Overlay) (h : o.wf = true) (a x : Nat) (b : Byte) :
    (o.write a b).read x = if a = x then some b else o.read x := Sparse.get_set _ o h a x (some b)

end Sys2Proof.Machine
end

