-- ==== Sys2Proof/Laws/PerInstr.lean ====
section
/-!
SUPPORT. What is said of every instruction, constructor by constructor: a word decodes to the instruction it encodes.
-/
namespace Sys2Proof.Laws

open Sys2Proof

set_option Elab.async false

/-- A well-formed instruction word decodes to the instruction that it encodes; an event has no word. -/
def RoundTrip.Statement (i : Instr) : Prop := i.isWord = true → i.wellFormed = true → decode (encode i) = .ok i

theorem RoundTrip.iadd (g : BitVec 3) (d : BitVec 7) (a : BitVec 7) (b : BitVec 7) : RoundTrip.Statement (.iadd g d a b) := by
  intro _ h
  simp_all [decode, decodeRaw, decodeMaj0, encode, Instr.wellFormed]

theorem RoundTrip.isub (g : BitVec 3) (d : BitVec 7) (a : BitVec 7) (b : BitVec 7) : RoundTrip.Statement (.isub g d a b) := by
  intro _ h
  simp_all [decode, decodeRaw, decodeMaj0, encode, Instr.wellFormed]

theorem RoundTrip.iadds (g : BitVec 3) (d : BitVec 7) (a : BitVec 7) (b : BitVec 7) : RoundTrip.Statement (.iadds g d a b) := by
  intro _ h
  simp_all [decode, decodeRaw, decodeMaj0, encode, Instr.wellFormed]

theorem RoundTrip.isubs (g : BitVec 3) (d : BitVec 7) (a : BitVec 7) (b : BitVec 7) : RoundTrip.Statement (.isubs g d a b) := by
  intro _ h
  simp_all [decode, decodeRaw, decodeMaj0, encode, Instr.wellFormed]

theorem RoundTrip.imul (g : BitVec 3) (d : BitVec 7) (a : BitVec 7) (b : BitVec 7) : RoundTrip.Statement (.imul g d a b) := by
  intro _ h
  simp_all [decode, decodeRaw, decodeMaj0, encode, Instr.wellFormed]

theorem RoundTrip.imulh (g : BitVec 3) (d : BitVec 7) (a : BitVec 7) (b : BitVec 7) : RoundTrip.Statement (.imulh g d a b) := by
  intro _ h
  simp_all [decode, decodeRaw, decodeMaj0, encode, Instr.wellFormed]

theorem RoundTrip.imad (g : BitVec 3) (d : BitVec 7) (a : BitVec 7) (b : BitVec 7) : RoundTrip.Statement (.imad g d a b) := by
  intro _ h
  simp_all [decode, decodeRaw, decodeMaj0, encode, Instr.wellFormed]

theorem RoundTrip.idiv (g : BitVec 3) (d : BitVec 7) (a : BitVec 7) (b : BitVec 7) : RoundTrip.Statement (.idiv g d a b) := by
  intro _ h
  simp_all [decode, decodeRaw, decodeMaj0, encode, Instr.wellFormed]

theorem RoundTrip.irem (g : BitVec 3) (d : BitVec 7) (a : BitVec 7) (b : BitVec 7) : RoundTrip.Statement (.irem g d a b) := by
  intro _ h
  simp_all [decode, decodeRaw, decodeMaj0, encode, Instr.wellFormed]

theorem RoundTrip.imin (g : BitVec 3) (d : BitVec 7) (a : BitVec 7) (b : BitVec 7) : RoundTrip.Statement (.imin g d a b) := by
  intro _ h
  simp_all [decode, decodeRaw, decodeMaj0, encode, Instr.wellFormed]

theorem RoundTrip.imax (g : BitVec 3) (d : BitVec 7) (a : BitVec 7) (b : BitVec 7) : RoundTrip.Statement (.imax g d a b) := by
  intro _ h
  simp_all [decode, decodeRaw, decodeMaj0, encode, Instr.wellFormed]

theorem RoundTrip.and (g : BitVec 3) (d : BitVec 7) (a : BitVec 7) (b : BitVec 7) : RoundTrip.Statement (.and g d a b) := by
  intro _ h
  simp_all [decode, decodeRaw, decodeMaj0, encode, Instr.wellFormed]

theorem RoundTrip.or (g : BitVec 3) (d : BitVec 7) (a : BitVec 7) (b : BitVec 7) : RoundTrip.Statement (.or g d a b) := by
  intro _ h
  simp_all [decode, decodeRaw, decodeMaj0, encode, Instr.wellFormed]

theorem RoundTrip.xor (g : BitVec 3) (d : BitVec 7) (a : BitVec 7) (b : BitVec 7) : RoundTrip.Statement (.xor g d a b) := by
  intro _ h
  simp_all [decode, decodeRaw, decodeMaj0, encode, Instr.wellFormed]

theorem RoundTrip.andn (g : BitVec 3) (d : BitVec 7) (a : BitVec 7) (b : BitVec 7) : RoundTrip.Statement (.andn g d a b) := by
  intro _ h
  simp_all [decode, decodeRaw, decodeMaj0, encode, Instr.wellFormed]

theorem RoundTrip.shl (g : BitVec 3) (d : BitVec 7) (a : BitVec 7) (b : BitVec 7) : RoundTrip.Statement (.shl g d a b) := by
  intro _ h
  simp_all [decode, decodeRaw, decodeMaj0, encode, Instr.wellFormed]

theorem RoundTrip.shr (g : BitVec 3) (d : BitVec 7) (a : BitVec 7) (b : BitVec 7) : RoundTrip.Statement (.shr g d a b) := by
  intro _ h
  simp_all [decode, decodeRaw, decodeMaj0, encode, Instr.wellFormed]

theorem RoundTrip.sar (g : BitVec 3) (d : BitVec 7) (a : BitVec 7) (b : BitVec 7) : RoundTrip.Statement (.sar g d a b) := by
  intro _ h
  simp_all [decode, decodeRaw, decodeMaj0, encode, Instr.wellFormed]

theorem RoundTrip.rotl (g : BitVec 3) (d : BitVec 7) (a : BitVec 7) (b : BitVec 7) : RoundTrip.Statement (.rotl g d a b) := by
  intro _ h
  simp_all [decode, decodeRaw, decodeMaj0, encode, Instr.wellFormed]

theorem RoundTrip.icmp (g : BitVec 3) (c : BitVec 4) (p : BitVec 3) (a : BitVec 7) (b : BitVec 7) : RoundTrip.Statement (.icmp g c p a b) := by
  intro _ h
  simp_all [decode, decodeRaw, decodeMaj0, encode, Instr.wellFormed]

theorem RoundTrip.sel (g : BitVec 3) (d : BitVec 7) (a : BitVec 7) (b : BitVec 7) : RoundTrip.Statement (.sel g d a b) := by
  intro _ h
  simp_all [decode, decodeRaw, decodeMaj0, encode, Instr.wellFormed]

theorem RoundTrip.bfe (g : BitVec 3) (d : BitVec 7) (a : BitVec 7) (b : BitVec 7) : RoundTrip.Statement (.bfe g d a b) := by
  intro _ h
  simp_all [decode, decodeRaw, decodeMaj0, encode, Instr.wellFormed]

theorem RoundTrip.bfi (g : BitVec 3) (d : BitVec 7) (a : BitVec 7) (b : BitVec 7) : RoundTrip.Statement (.bfi g d a b) := by
  intro _ h
  simp_all [decode, decodeRaw, decodeMaj0, encode, Instr.wellFormed]

theorem RoundTrip.popc (g : BitVec 3) (d : BitVec 7) (a : BitVec 7) : RoundTrip.Statement (.popc g d a) := by
  intro _ h
  simp_all [decode, decodeRaw, decodeMaj0, encode, Instr.wellFormed]

theorem RoundTrip.clz (g : BitVec 3) (d : BitVec 7) (a : BitVec 7) : RoundTrip.Statement (.clz g d a) := by
  intro _ h
  simp_all [decode, decodeRaw, decodeMaj0, encode, Instr.wellFormed]

theorem RoundTrip.brev (g : BitVec 3) (d : BitVec 7) (a : BitVec 7) : RoundTrip.Statement (.brev g d a) := by
  intro _ h
  simp_all [decode, decodeRaw, decodeMaj0, encode, Instr.wellFormed]

theorem RoundTrip.iabs (g : BitVec 3) (d : BitVec 7) (a : BitVec 7) : RoundTrip.Statement (.iabs g d a) := by
  intro _ h
  simp_all [decode, decodeRaw, decodeMaj0, encode, Instr.wellFormed]

theorem RoundTrip.dp4 (g : BitVec 3) (d : BitVec 7) (a : BitVec 7) (b : BitVec 7) : RoundTrip.Statement (.dp4 g d a b) := by
  intro _ h
  simp_all [decode, decodeRaw, decodeMaj1, encode, Instr.wellFormed]

theorem RoundTrip.dp4s (g : BitVec 3) (d : BitVec 7) (a : BitVec 7) (b : BitVec 7) : RoundTrip.Statement (.dp4s g d a b) := by
  intro _ h
  simp_all [decode, decodeRaw, decodeMaj1, encode, Instr.wellFormed]

theorem RoundTrip.dp2 (g : BitVec 3) (d : BitVec 7) (a : BitVec 7) (b : BitVec 7) : RoundTrip.Statement (.dp2 g d a b) := by
  intro _ h
  simp_all [decode, decodeRaw, decodeMaj1, encode, Instr.wellFormed]

theorem RoundTrip.dp2s (g : BitVec 3) (d : BitVec 7) (a : BitVec 7) (b : BitVec 7) : RoundTrip.Statement (.dp2s g d a b) := by
  intro _ h
  simp_all [decode, decodeRaw, decodeMaj1, encode, Instr.wellFormed]

theorem RoundTrip.iaddi (g : BitVec 3) (d : BitVec 7) (a : BitVec 7) (i : BitVec 8) : RoundTrip.Statement (.iaddi g d a i) := by
  intro _ h
  simp_all [decode, decodeRaw, decodeMaj1, encode, Instr.wellFormed]

theorem RoundTrip.andi (g : BitVec 3) (d : BitVec 7) (a : BitVec 7) (i : BitVec 8) : RoundTrip.Statement (.andi g d a i) := by
  intro _ h
  simp_all [decode, decodeRaw, decodeMaj1, encode, Instr.wellFormed]

theorem RoundTrip.ori (g : BitVec 3) (d : BitVec 7) (a : BitVec 7) (i : BitVec 8) : RoundTrip.Statement (.ori g d a i) := by
  intro _ h
  simp_all [decode, decodeRaw, decodeMaj1, encode, Instr.wellFormed]

theorem RoundTrip.xori (g : BitVec 3) (d : BitVec 7) (a : BitVec 7) (i : BitVec 8) : RoundTrip.Statement (.xori g d a i) := by
  intro _ h
  simp_all [decode, decodeRaw, decodeMaj1, encode, Instr.wellFormed]

theorem RoundTrip.shli (g : BitVec 3) (d : BitVec 7) (a : BitVec 7) (i : BitVec 8) : RoundTrip.Statement (.shli g d a i) := by
  intro _ h
  simp_all [decode, decodeRaw, decodeMaj1, encode, Instr.wellFormed]

theorem RoundTrip.shri (g : BitVec 3) (d : BitVec 7) (a : BitVec 7) (i : BitVec 8) : RoundTrip.Statement (.shri g d a i) := by
  intro _ h
  simp_all [decode, decodeRaw, decodeMaj1, encode, Instr.wellFormed]

theorem RoundTrip.sari (g : BitVec 3) (d : BitVec 7) (a : BitVec 7) (i : BitVec 8) : RoundTrip.Statement (.sari g d a i) := by
  intro _ h
  simp_all [decode, decodeRaw, decodeMaj1, encode, Instr.wellFormed]

theorem RoundTrip.icmpi (g : BitVec 3) (c : BitVec 4) (p : BitVec 3) (a : BitVec 7) (i : BitVec 8) : RoundTrip.Statement (.icmpi g c p a i) := by
  intro _ h
  simp_all [decode, decodeRaw, decodeMaj1, encode, Instr.wellFormed]

theorem RoundTrip.imuli (g : BitVec 3) (d : BitVec 7) (a : BitVec 7) (i : BitVec 8) : RoundTrip.Statement (.imuli g d a i) := by
  intro _ h
  simp_all [decode, decodeRaw, decodeMaj1, encode, Instr.wellFormed]

theorem RoundTrip.fadd (g : BitVec 3) (d : BitVec 7) (a : BitVec 7) (b : BitVec 7) : RoundTrip.Statement (.fadd g d a b) := by
  intro _ h
  simp_all [decode, decodeRaw, decodeMaj2, encode, Instr.wellFormed]

theorem RoundTrip.fsub (g : BitVec 3) (d : BitVec 7) (a : BitVec 7) (b : BitVec 7) : RoundTrip.Statement (.fsub g d a b) := by
  intro _ h
  simp_all [decode, decodeRaw, decodeMaj2, encode, Instr.wellFormed]

theorem RoundTrip.fmul (g : BitVec 3) (d : BitVec 7) (a : BitVec 7) (b : BitVec 7) : RoundTrip.Statement (.fmul g d a b) := by
  intro _ h
  simp_all [decode, decodeRaw, decodeMaj2, encode, Instr.wellFormed]

theorem RoundTrip.fdiv (g : BitVec 3) (d : BitVec 7) (a : BitVec 7) (b : BitVec 7) : RoundTrip.Statement (.fdiv g d a b) := by
  intro _ h
  simp_all [decode, decodeRaw, decodeMaj2, encode, Instr.wellFormed]

theorem RoundTrip.ffma (g : BitVec 3) (d : BitVec 7) (a : BitVec 7) (b : BitVec 7) : RoundTrip.Statement (.ffma g d a b) := by
  intro _ h
  simp_all [decode, decodeRaw, decodeMaj2, encode, Instr.wellFormed]

theorem RoundTrip.ffms (g : BitVec 3) (d : BitVec 7) (a : BitVec 7) (b : BitVec 7) : RoundTrip.Statement (.ffms g d a b) := by
  intro _ h
  simp_all [decode, decodeRaw, decodeMaj2, encode, Instr.wellFormed]

theorem RoundTrip.fmin (g : BitVec 3) (d : BitVec 7) (a : BitVec 7) (b : BitVec 7) : RoundTrip.Statement (.fmin g d a b) := by
  intro _ h
  simp_all [decode, decodeRaw, decodeMaj2, encode, Instr.wellFormed]

theorem RoundTrip.fmax (g : BitVec 3) (d : BitVec 7) (a : BitVec 7) (b : BitVec 7) : RoundTrip.Statement (.fmax g d a b) := by
  intro _ h
  simp_all [decode, decodeRaw, decodeMaj2, encode, Instr.wellFormed]

theorem RoundTrip.fcmp (g : BitVec 3) (c : BitVec 4) (p : BitVec 3) (a : BitVec 7) (b : BitVec 7) : RoundTrip.Statement (.fcmp g c p a b) := by
  intro _ h
  simp_all [decode, decodeRaw, decodeMaj2, encode, Instr.wellFormed]

theorem RoundTrip.fclass (g : BitVec 3) (p : BitVec 3) (a : BitVec 7) (b : BitVec 7) : RoundTrip.Statement (.fclass g p a b) := by
  intro _ h
  simp_all [decode, decodeRaw, decodeMaj2, encode, Instr.wellFormed]

theorem RoundTrip.fsfu (g : BitVec 3) (d : BitVec 7) (a : BitVec 7) (b : BitVec 7) : RoundTrip.Statement (.fsfu g d a b) := by
  intro _ h
  simp_all [decode, decodeRaw, decodeMaj2, encode, Instr.wellFormed]

theorem RoundTrip.fcvt (g : BitVec 3) (d : BitVec 7) (a : BitVec 7) (b : BitVec 7) : RoundTrip.Statement (.fcvt g d a b) := by
  intro _ h
  simp_all [decode, decodeRaw, decodeMaj2, encode, Instr.wellFormed]

theorem RoundTrip.frnd (g : BitVec 3) (d : BitVec 7) (a : BitVec 7) (b : BitVec 7) : RoundTrip.Statement (.frnd g d a b) := by
  intro _ h
  simp_all [decode, decodeRaw, decodeMaj2, encode, Instr.wellFormed]

theorem RoundTrip.hadd2 (g : BitVec 3) (d : BitVec 7) (a : BitVec 7) (b : BitVec 7) : RoundTrip.Statement (.hadd2 g d a b) := by
  intro _ h
  simp_all [decode, decodeRaw, decodeMaj2, encode, Instr.wellFormed]

theorem RoundTrip.hmul2 (g : BitVec 3) (d : BitVec 7) (a : BitVec 7) (b : BitVec 7) : RoundTrip.Statement (.hmul2 g d a b) := by
  intro _ h
  simp_all [decode, decodeRaw, decodeMaj2, encode, Instr.wellFormed]

theorem RoundTrip.hfma2 (g : BitVec 3) (d : BitVec 7) (a : BitVec 7) (b : BitVec 7) : RoundTrip.Statement (.hfma2 g d a b) := by
  intro _ h
  simp_all [decode, decodeRaw, decodeMaj2, encode, Instr.wellFormed]

theorem RoundTrip.hdot2 (g : BitVec 3) (d : BitVec 7) (a : BitVec 7) (b : BitVec 7) : RoundTrip.Statement (.hdot2 g d a b) := by
  intro _ h
  simp_all [decode, decodeRaw, decodeMaj2, encode, Instr.wellFormed]

theorem RoundTrip.faddx (g : BitVec 3) (d : BitVec 7) (a : BitVec 7) (b : BitVec 7) : RoundTrip.Statement (.faddx g d a b) := by
  intro _ h
  simp_all [decode, decodeRaw, decodeMaj2, encode, Instr.wellFormed]

theorem RoundTrip.fmulx (g : BitVec 3) (d : BitVec 7) (a : BitVec 7) (b : BitVec 7) : RoundTrip.Statement (.fmulx g d a b) := by
  intro _ h
  simp_all [decode, decodeRaw, decodeMaj2, encode, Instr.wellFormed]

theorem RoundTrip.fabs (g : BitVec 3) (d : BitVec 7) (a : BitVec 7) : RoundTrip.Statement (.fabs g d a) := by
  intro _ h
  simp_all [decode, decodeRaw, decodeMaj2, encode, Instr.wellFormed]

theorem RoundTrip.fneg (g : BitVec 3) (d : BitVec 7) (a : BitVec 7) : RoundTrip.Statement (.fneg g d a) := by
  intro _ h
  simp_all [decode, decodeRaw, decodeMaj2, encode, Instr.wellFormed]

theorem RoundTrip.fscale (g : BitVec 3) (d : BitVec 7) (a : BitVec 7) (b : BitVec 7) : RoundTrip.Statement (.fscale g d a b) := by
  intro _ h
  simp_all [decode, decodeRaw, decodeMaj2, encode, Instr.wellFormed]

theorem RoundTrip.mov (g : BitVec 3) (d : BitVec 7) (a : BitVec 7) : RoundTrip.Statement (.mov g d a) := by
  intro _ h
  simp_all [decode, decodeRaw, decodeMaj4, encode, Instr.wellFormed]

theorem RoundTrip.movi (g : BitVec 3) (d : BitVec 7) (i : BitVec 8) : RoundTrip.Statement (.movi g d i) := by
  intro _ h
  simp_all [decode, decodeRaw, decodeMaj4, encode, Instr.wellFormed]

theorem RoundTrip.shfl (g : BitVec 3) (d : BitVec 7) (a : BitVec 7) (b : BitVec 7) : RoundTrip.Statement (.shfl g d a b) := by
  intro _ h
  simp_all [decode, decodeRaw, decodeMaj4, encode, Instr.wellFormed]

theorem RoundTrip.vote (g : BitVec 3) (m : BitVec 4) (p : BitVec 3) (a : BitVec 7) : RoundTrip.Statement (.vote g m p a) := by
  intro _ h
  simp_all [decode, decodeRaw, decodeMaj4, encode, Instr.wellFormed]

theorem RoundTrip.ballot (g : BitVec 3) (d : BitVec 7) (a : BitVec 7) : RoundTrip.Statement (.ballot g d a) := by
  intro _ h
  simp_all [decode, decodeRaw, decodeMaj4, encode, Instr.wellFormed]

theorem RoundTrip.redl (g : BitVec 3) (d : BitVec 7) (a : BitVec 7) (b : BitVec 7) : RoundTrip.Statement (.redl g d a b) := by
  intro _ h
  simp_all [decode, decodeRaw, decodeMaj4, encode, Instr.wellFormed]

theorem RoundTrip.fredl (g : BitVec 3) (d : BitVec 7) (a : BitVec 7) (b : BitVec 7) : RoundTrip.Statement (.fredl g d a b) := by
  intro _ h
  simp_all [decode, decodeRaw, decodeMaj4, encode, Instr.wellFormed]

theorem RoundTrip.scanl (g : BitVec 3) (d : BitVec 7) (a : BitVec 7) (b : BitVec 7) : RoundTrip.Statement (.scanl g d a b) := by
  intro _ h
  simp_all [decode, decodeRaw, decodeMaj4, encode, Instr.wellFormed]

theorem RoundTrip.fscanl (g : BitVec 3) (d : BitVec 7) (a : BitVec 7) (b : BitVec 7) : RoundTrip.Statement (.fscanl g d a b) := by
  intro _ h
  simp_all [decode, decodeRaw, decodeMaj4, encode, Instr.wellFormed]

theorem RoundTrip.part (g : BitVec 3) (b : BitVec 7) : RoundTrip.Statement (.part g b) := by
  intro _ h
  simp_all [decode, decodeRaw, decodeMaj4, encode, Instr.wellFormed]

theorem RoundTrip.plop (g : BitVec 3) (f : BitVec 4) (d : BitVec 3) (a : BitVec 3) (b : BitVec 3) : RoundTrip.Statement (.plop g f d a b) := by
  intro _ h
  simp_all [decode, decodeRaw, decodeMaj4, encode, Instr.wellFormed]

theorem RoundTrip.pmov (g : BitVec 3) (d : BitVec 7) (a : BitVec 7) (b : BitVec 7) : RoundTrip.Statement (.pmov g d a b) := by
  intro _ h
  simp_all [decode, decodeRaw, decodeMaj4, encode, Instr.wellFormed]

theorem RoundTrip.ixset (g : BitVec 3) (i : BitVec 8) : RoundTrip.Statement (.ixset g i) := by
  intro _ h
  simp_all [decode, decodeRaw, decodeMaj4, encode, Instr.wellFormed]

theorem RoundTrip.v2s (g : BitVec 3) (d : BitVec 7) (a : BitVec 7) : RoundTrip.Statement (.v2s g d a) := by
  intro _ h
  simp_all [decode, decodeRaw, decodeMaj4, encode, Instr.wellFormed]

theorem RoundTrip.sadd (g : BitVec 3) (d : BitVec 7) (a : BitVec 7) (b : BitVec 7) : RoundTrip.Statement (.sadd g d a b) := by
  intro _ h
  simp_all [decode, decodeRaw, decodeMaj5, encode, Instr.wellFormed]

theorem RoundTrip.ssub (g : BitVec 3) (d : BitVec 7) (a : BitVec 7) (b : BitVec 7) : RoundTrip.Statement (.ssub g d a b) := by
  intro _ h
  simp_all [decode, decodeRaw, decodeMaj5, encode, Instr.wellFormed]

theorem RoundTrip.smul (g : BitVec 3) (d : BitVec 7) (a : BitVec 7) (b : BitVec 7) : RoundTrip.Statement (.smul g d a b) := by
  intro _ h
  simp_all [decode, decodeRaw, decodeMaj5, encode, Instr.wellFormed]

theorem RoundTrip.smulh (g : BitVec 3) (d : BitVec 7) (a : BitVec 7) (b : BitVec 7) : RoundTrip.Statement (.smulh g d a b) := by
  intro _ h
  simp_all [decode, decodeRaw, decodeMaj5, encode, Instr.wellFormed]

theorem RoundTrip.sand (g : BitVec 3) (d : BitVec 7) (a : BitVec 7) (b : BitVec 7) : RoundTrip.Statement (.sand g d a b) := by
  intro _ h
  simp_all [decode, decodeRaw, decodeMaj5, encode, Instr.wellFormed]

theorem RoundTrip.sor (g : BitVec 3) (d : BitVec 7) (a : BitVec 7) (b : BitVec 7) : RoundTrip.Statement (.sor g d a b) := by
  intro _ h
  simp_all [decode, decodeRaw, decodeMaj5, encode, Instr.wellFormed]

theorem RoundTrip.sxor (g : BitVec 3) (d : BitVec 7) (a : BitVec 7) (b : BitVec 7) : RoundTrip.Statement (.sxor g d a b) := by
  intro _ h
  simp_all [decode, decodeRaw, decodeMaj5, encode, Instr.wellFormed]

theorem RoundTrip.sshl (g : BitVec 3) (d : BitVec 7) (a : BitVec 7) (b : BitVec 7) : RoundTrip.Statement (.sshl g d a b) := by
  intro _ h
  simp_all [decode, decodeRaw, decodeMaj5, encode, Instr.wellFormed]

theorem RoundTrip.sshr (g : BitVec 3) (d : BitVec 7) (a : BitVec 7) (b : BitVec 7) : RoundTrip.Statement (.sshr g d a b) := by
  intro _ h
  simp_all [decode, decodeRaw, decodeMaj5, encode, Instr.wellFormed]

theorem RoundTrip.ssar (g : BitVec 3) (d : BitVec 7) (a : BitVec 7) (b : BitVec 7) : RoundTrip.Statement (.ssar g d a b) := by
  intro _ h
  simp_all [decode, decodeRaw, decodeMaj5, encode, Instr.wellFormed]

theorem RoundTrip.scmp (g : BitVec 3) (c : BitVec 4) (p : BitVec 3) (a : BitVec 7) (b : BitVec 7) : RoundTrip.Statement (.scmp g c p a b) := by
  intro _ h
  simp_all [decode, decodeRaw, decodeMaj5, encode, Instr.wellFormed]

theorem RoundTrip.smov (g : BitVec 3) (d : BitVec 7) (a : BitVec 7) : RoundTrip.Statement (.smov g d a) := by
  intro _ h
  simp_all [decode, decodeRaw, decodeMaj5, encode, Instr.wellFormed]

theorem RoundTrip.saddi (g : BitVec 3) (d : BitVec 7) (a : BitVec 7) (i : BitVec 8) : RoundTrip.Statement (.saddi g d a i) := by
  intro _ h
  simp_all [decode, decodeRaw, decodeMaj5, encode, Instr.wellFormed]

theorem RoundTrip.sld (g : BitVec 3) (d : BitVec 7) (a : BitVec 7) (b : BitVec 7) : RoundTrip.Statement (.sld g d a b) := by
  intro _ h
  simp_all [decode, decodeRaw, decodeMaj5, encode, Instr.wellFormed]

theorem RoundTrip.sst (g : BitVec 3) (d : BitVec 7) (a : BitVec 7) (b : BitVec 7) : RoundTrip.Statement (.sst g d a b) := by
  intro _ h
  simp_all [decode, decodeRaw, decodeMaj5, encode, Instr.wellFormed]

theorem RoundTrip.smin (g : BitVec 3) (d : BitVec 7) (a : BitVec 7) (b : BitVec 7) : RoundTrip.Statement (.smin g d a b) := by
  intro _ h
  simp_all [decode, decodeRaw, decodeMaj5, encode, Instr.wellFormed]

theorem RoundTrip.smax (g : BitVec 3) (d : BitVec 7) (a : BitVec 7) (b : BitVec 7) : RoundTrip.Statement (.smax g d a b) := by
  intro _ h
  simp_all [decode, decodeRaw, decodeMaj5, encode, Instr.wellFormed]

theorem RoundTrip.smovi (g : BitVec 3) (d : BitVec 7) (i : BitVec 8) : RoundTrip.Statement (.smovi g d i) := by
  intro _ h
  simp_all [decode, decodeRaw, decodeMaj5, encode, Instr.wellFormed]

theorem RoundTrip.br (g : BitVec 3) (o : BitVec 22) : RoundTrip.Statement (.br g o) := by
  intro _ h
  simp_all [decode, decodeRaw, decodeMaj6, encode, Instr.wellFormed]

theorem RoundTrip.call (g : BitVec 3) (o : BitVec 22) : RoundTrip.Statement (.call g o) := by
  intro _ h
  simp_all [decode, decodeRaw, decodeMaj6, encode, Instr.wellFormed]

theorem RoundTrip.calli (g : BitVec 3) (a : BitVec 7) : RoundTrip.Statement (.calli g a) := by
  intro _ h
  simp_all [decode, decodeRaw, decodeMaj6, encode, Instr.wellFormed]

theorem RoundTrip.jmpi (g : BitVec 3) (a : BitVec 7) : RoundTrip.Statement (.jmpi g a) := by
  intro _ h
  simp_all [decode, decodeRaw, decodeMaj6, encode, Instr.wellFormed]

theorem RoundTrip.ret (g : BitVec 3) : RoundTrip.Statement (.ret g) := by
  intro _ h
  simp_all [decode, decodeRaw, decodeMaj6, encode, Instr.wellFormed]

theorem RoundTrip.exit (g : BitVec 3) : RoundTrip.Statement (.exit g) := by
  intro _ h
  simp_all [decode, decodeRaw, decodeMaj6, encode, Instr.wellFormed]

theorem RoundTrip.yield (g : BitVec 3) (i : BitVec 8) : RoundTrip.Statement (.yield g i) := by
  intro _ h
  simp_all [decode, decodeRaw, decodeMaj6, encode, Instr.wellFormed]

theorem RoundTrip.trap (g : BitVec 3) (i : BitVec 8) : RoundTrip.Statement (.trap g i) := by
  intro _ h
  simp_all [decode, decodeRaw, decodeMaj6, encode, Instr.wellFormed]

theorem RoundTrip.featq (g : BitVec 3) (d : BitVec 7) (i : BitVec 8) : RoundTrip.Statement (.featq g d i) := by
  intro _ h
  simp_all [decode, decodeRaw, decodeMaj6, encode, Instr.wellFormed]

theorem RoundTrip.nop (g : BitVec 3) : RoundTrip.Statement (.nop g) := by
  intro _ h
  simp_all [decode, decodeRaw, decodeMaj6, encode, Instr.wellFormed]

theorem RoundTrip.tret (g : BitVec 3) : RoundTrip.Statement (.tret g) := by
  intro _ h
  simp_all [decode, decodeRaw, decodeMaj6, encode, Instr.wellFormed]

theorem RoundTrip.ld (g : BitVec 3) (d : BitVec 7) (t : BitVec 3) (x : BitVec 7) (w : BitVec 3) (c : BitVec 2) : RoundTrip.Statement (.ld g d t x w c) := by
  intro _ h
  simp_all [decode, decodeRaw, decodeMaj6, encode, Instr.wellFormed]

theorem RoundTrip.st (g : BitVec 3) (d : BitVec 7) (t : BitVec 3) (x : BitVec 7) (w : BitVec 3) (c : BitVec 2) : RoundTrip.Statement (.st g d t x w c) := by
  intro _ h
  simp_all [decode, decodeRaw, decodeMaj6, encode, Instr.wellFormed]

theorem RoundTrip.lds (g : BitVec 3) (d : BitVec 7) (t : BitVec 3) (x : BitVec 7) (w : BitVec 3) (c : BitVec 2) : RoundTrip.Statement (.lds g d t x w c) := by
  intro _ h
  simp_all [decode, decodeRaw, decodeMaj6, encode, Instr.wellFormed]

theorem RoundTrip.sts (g : BitVec 3) (d : BitVec 7) (t : BitVec 3) (x : BitVec 7) (w : BitVec 3) (c : BitVec 2) : RoundTrip.Statement (.sts g d t x w c) := by
  intro _ h
  simp_all [decode, decodeRaw, decodeMaj6, encode, Instr.wellFormed]

theorem RoundTrip.mcst (g : BitVec 3) (d : BitVec 7) (t : BitVec 3) (x : BitVec 7) (m : BitVec 4) : RoundTrip.Statement (.mcst g d t x m) := by
  intro _ h
  simp_all [decode, decodeRaw, decodeMaj6, encode, Instr.wellFormed]

theorem RoundTrip.pfx (g : BitVec 3) (t : BitVec 3) (x : BitVec 7) (w : BitVec 3) (c : BitVec 2) : RoundTrip.Statement (.pfx g t x w c) := by
  intro _ h
  simp_all [decode, decodeRaw, decodeMaj6, encode, Instr.wellFormed]

theorem RoundTrip.abind (g : BitVec 3) (t : BitVec 3) (x : BitVec 7) : RoundTrip.Statement (.abind g t x) := by
  intro _ h
  simp_all [decode, decodeRaw, decodeMaj6, encode, Instr.wellFormed]

theorem RoundTrip.abindH (g : BitVec 3) (t : BitVec 3) (x : BitVec 7) : RoundTrip.Statement (.abindH g t x) := by
  intro _ h
  simp_all [decode, decodeRaw, decodeMaj6, encode, Instr.wellFormed]

theorem RoundTrip.lda (g : BitVec 3) (d : BitVec 7) (t : BitVec 3) (x : BitVec 7) (s : BitVec 4) : RoundTrip.Statement (.lda g d t x s) := by
  intro _ h
  simp_all [decode, decodeRaw, decodeMaj6, encode, Instr.wellFormed]

theorem RoundTrip.stl (g : BitVec 3) (d : BitVec 7) (t : BitVec 3) (x : BitVec 7) (s : BitVec 4) : RoundTrip.Statement (.stl g d t x s) := by
  intro _ h
  simp_all [decode, decodeRaw, decodeMaj6, encode, Instr.wellFormed]

theorem RoundTrip.atom (g : BitVec 3) (d : BitVec 7) (t : BitVec 3) (x : BitVec 7) (o : BitVec 4) (p : BitVec 1) : RoundTrip.Statement (.atom g d t x o p) := by
  intro _ h
  simp_all [decode, decodeRaw, decodeMaj7, encode, Instr.wellFormed]

theorem RoundTrip.red (g : BitVec 3) (d : BitVec 7) (t : BitVec 3) (x : BitVec 7) (o : BitVec 4) (p : BitVec 1) : RoundTrip.Statement (.red g d t x o p) := by
  intro _ h
  simp_all [decode, decodeRaw, decodeMaj7, encode, Instr.wellFormed]

theorem RoundTrip.fence (g : BitVec 3) : RoundTrip.Statement (.fence g) := by
  intro _ h
  simp_all [decode, decodeRaw, decodeMaj7, encode, Instr.wellFormed]

theorem RoundTrip.waitv (g : BitVec 3) (d : BitVec 7) (t : BitVec 3) (x : BitVec 7) (w : BitVec 3) (c : BitVec 2) : RoundTrip.Statement (.waitv g d t x w c) := by
  intro _ h
  simp_all [decode, decodeRaw, decodeMaj7, encode, Instr.wellFormed]

theorem RoundTrip.cpy (a : BitVec 5) (b : BitVec 5) (y : BitVec 1) : RoundTrip.Statement (.cpy a b y) := by
  intro _ h
  simp_all [decode, decodeRaw, decodeMaj7, decodeFX74, encode, Instr.wellFormed]

theorem RoundTrip.cpyo (a : BitVec 5) (b : BitVec 5) (y : BitVec 1) : RoundTrip.Statement (.cpyo a b y) := by
  intro _ h
  simp_all [decode, decodeRaw, decodeMaj7, decodeFX74, encode, Instr.wellFormed]

theorem RoundTrip.cpyg (a : BitVec 5) (b : BitVec 5) (y : BitVec 1) : RoundTrip.Statement (.cpyg a b y) := by
  intro _ h
  simp_all [decode, decodeRaw, decodeMaj7, decodeFX74, encode, Instr.wellFormed]

theorem RoundTrip.cpys (a : BitVec 5) (b : BitVec 5) (y : BitVec 1) : RoundTrip.Statement (.cpys a b y) := by
  intro _ h
  simp_all [decode, decodeRaw, decodeMaj7, decodeFX74, encode, Instr.wellFormed]

theorem RoundTrip.cpym (a : BitVec 5) (b : BitVec 5) (y : BitVec 1) : RoundTrip.Statement (.cpym a b y) := by
  intro _ h
  simp_all [decode, decodeRaw, decodeMaj7, decodeFX74, encode, Instr.wellFormed]

theorem RoundTrip.cpye (a : BitVec 5) (b : BitVec 5) (y : BitVec 1) : RoundTrip.Statement (.cpye a b y) := by
  intro _ h
  simp_all [decode, decodeRaw, decodeMaj7, decodeFX74, encode, Instr.wellFormed]

theorem RoundTrip.binit (a : BitVec 5) (b : BitVec 5) : RoundTrip.Statement (.binit a b) := by
  intro _ h
  simp_all [decode, decodeRaw, decodeMaj7, decodeFX75, encode, Instr.wellFormed]

theorem RoundTrip.barv (d : BitVec 5) (a : BitVec 5) : RoundTrip.Statement (.barv d a) := by
  intro _ h
  simp_all [decode, decodeRaw, decodeMaj7, decodeFX75, encode, Instr.wellFormed]

theorem RoundTrip.bexp (a : BitVec 5) (b : BitVec 5) : RoundTrip.Statement (.bexp a b) := by
  intro _ h
  simp_all [decode, decodeRaw, decodeMaj7, decodeFX75, encode, Instr.wellFormed]

theorem RoundTrip.bwait (a : BitVec 5) (b : BitVec 5) : RoundTrip.Statement (.bwait a b) := by
  intro _ h
  simp_all [decode, decodeRaw, decodeMaj7, decodeFX75, encode, Instr.wellFormed]

theorem RoundTrip.btest (d : BitVec 5) (a : BitVec 5) (b : BitVec 5) : RoundTrip.Statement (.btest d a b) := by
  intro _ h
  simp_all [decode, decodeRaw, decodeMaj7, decodeFX75, encode, Instr.wellFormed]

theorem RoundTrip.cbar  : RoundTrip.Statement (.cbar) := by
  intro _ h
  simp_all [decode, decodeRaw, decodeMaj7, decodeFX75, encode, Instr.wellFormed]

theorem RoundTrip.qcfg (d : BitVec 5) (a : BitVec 5) : RoundTrip.Statement (.qcfg d a) := by
  intro _ h
  simp_all [decode, decodeRaw, decodeMaj7, decodeFX76, encode, Instr.wellFormed]

theorem RoundTrip.qdrn (d : BitVec 5) : RoundTrip.Statement (.qdrn d) := by
  intro _ h
  simp_all [decode, decodeRaw, decodeMaj7, decodeFX76, encode, Instr.wellFormed]

theorem RoundTrip.qpop (d : BitVec 5) (a : BitVec 5) (b : BitVec 5) : RoundTrip.Statement (.qpop d a b) := by
  intro _ h
  simp_all [decode, decodeRaw, decodeMaj7, decodeFX78, encode, Instr.wellFormed]

theorem RoundTrip.qpush (d : BitVec 5) (a : BitVec 5) (b : BitVec 5) : RoundTrip.Statement (.qpush d a b) := by
  intro _ h
  simp_all [decode, decodeRaw, decodeMaj7, decodeFX78, encode, Instr.wellFormed]

theorem RoundTrip.renq (d : BitVec 5) (a : BitVec 5) (b : BitVec 5) (k : BitVec 1) : RoundTrip.Statement (.renq d a b k) := by
  intro _ h
  simp_all [decode, decodeRaw, decodeMaj7, decodeFX78, encode, Instr.wellFormed]

theorem RoundTrip.fetchw (a : BitVec 5) : RoundTrip.Statement (.fetchw a) := by
  intro _ h
  simp_all [decode, decodeRaw, decodeMaj7, decodeFX78, encode, Instr.wellFormed]

theorem RoundTrip.taske (a : BitVec 5) : RoundTrip.Statement (.taske a) := by
  intro _ h
  simp_all [decode, decodeRaw, decodeMaj7, decodeFX78, encode, Instr.wellFormed]

theorem RoundTrip.taska (a : BitVec 5) : RoundTrip.Statement (.taska a) := by
  intro _ h
  simp_all [decode, decodeRaw, decodeMaj7, decodeFX78, encode, Instr.wellFormed]

theorem RoundTrip.qstat (d : BitVec 5) (a : BitVec 5) : RoundTrip.Statement (.qstat d a) := by
  intro _ h
  simp_all [decode, decodeRaw, decodeMaj7, decodeFX78, encode, Instr.wellFormed]

theorem RoundTrip.dopen (d : BitVec 5) (a : BitVec 5) (w : BitVec 1) : RoundTrip.Statement (.dopen d a w) := by
  intro _ h
  simp_all [decode, decodeRaw, decodeMaj7, decodeFX79, encode, Instr.wellFormed]

theorem RoundTrip.dclose (d : BitVec 5) (a : BitVec 5) : RoundTrip.Statement (.dclose d a) := by
  intro _ h
  simp_all [decode, decodeRaw, decodeMaj7, decodeFX79, encode, Instr.wellFormed]

theorem RoundTrip.dinfo (d : BitVec 5) (a : BitVec 5) (b : BitVec 5) : RoundTrip.Statement (.dinfo d a b) := by
  intro _ h
  simp_all [decode, decodeRaw, decodeMaj7, decodeFX79, encode, Instr.wellFormed]

theorem RoundTrip.dbind (d : BitVec 5) (a : BitVec 5) (o : BitVec 1) : RoundTrip.Statement (.dbind d a o) := by
  intro _ h
  simp_all [decode, decodeRaw, decodeMaj7, decodeFX79, encode, Instr.wellFormed]

theorem RoundTrip.tstamp (d : BitVec 5) : RoundTrip.Statement (.tstamp d) := by
  intro _ h
  simp_all [decode, decodeRaw, decodeMaj7, decodeFX7A, encode, Instr.wellFormed]

theorem RoundTrip.tserr (d : BitVec 5) : RoundTrip.Statement (.tserr d) := by
  intro _ h
  simp_all [decode, decodeRaw, decodeMaj7, decodeFX7A, encode, Instr.wellFormed]

theorem RoundTrip.osend (d : BitVec 5) (a : BitVec 5) (b : BitVec 5) : RoundTrip.Statement (.osend d a b) := by
  intro _ h
  simp_all [decode, decodeRaw, decodeMaj7, decodeFX7A, encode, Instr.wellFormed]

theorem RoundTrip.redp (a : BitVec 5) (b : BitVec 5) (o : BitVec 4) : RoundTrip.Statement (.redp a b o) := by
  intro _ h
  simp_all [decode, decodeRaw, decodeMaj7, decodeFX7A, encode, Instr.wellFormed]

theorem RoundTrip.redw (d : BitVec 5) (a : BitVec 5) (b : BitVec 5) (o : BitVec 4) : RoundTrip.Statement (.redw d a b o) := by
  intro _ h
  simp_all [decode, decodeRaw, decodeMaj7, decodeFX7A, encode, Instr.wellFormed]

theorem RoundTrip.twait (a : BitVec 5) : RoundTrip.Statement (.twait a) := by
  intro _ h
  simp_all [decode, decodeRaw, decodeMaj7, decodeFX7A, encode, Instr.wellFormed]

theorem RoundTrip.mrule (a : BitVec 5) (b : BitVec 5) : RoundTrip.Statement (.mrule a b) := by
  intro _ h
  simp_all [decode, decodeRaw, decodeMaj7, decodeFX7C, encode, Instr.wellFormed]

theorem RoundTrip.mcfg (d : BitVec 5) (a : BitVec 5) : RoundTrip.Statement (.mcfg d a) := by
  intro _ h
  simp_all [decode, decodeRaw, decodeMaj7, decodeFX7C, encode, Instr.wellFormed]

theorem RoundTrip.mstat (a : BitVec 5) (b : BitVec 5) : RoundTrip.Statement (.mstat a b) := by
  intro _ h
  simp_all [decode, decodeRaw, decodeMaj7, decodeFX7C, encode, Instr.wellFormed]

theorem RoundTrip.mswap (b : BitVec 5) : RoundTrip.Statement (.mswap b) := by
  intro _ h
  simp_all [decode, decodeRaw, decodeMaj7, decodeFX7C, encode, Instr.wellFormed]

theorem RoundTrip.mstrm (a : BitVec 5) (b : BitVec 5) (s : BitVec 1) : RoundTrip.Statement (.mstrm a b s) := by
  intro _ h
  simp_all [decode, decodeRaw, decodeMaj7, decodeFX7C, encode, Instr.wellFormed]

theorem RoundTrip.mwave (a : BitVec 5) (b : BitVec 5) : RoundTrip.Statement (.mwave a b) := by
  intro _ h
  simp_all [decode, decodeRaw, decodeMaj7, decodeFX7C, encode, Instr.wellFormed]

theorem RoundTrip.mback (a : BitVec 5) (b : BitVec 5) : RoundTrip.Statement (.mback a b) := by
  intro _ h
  simp_all [decode, decodeRaw, decodeMaj7, decodeFX7C, encode, Instr.wellFormed]

theorem RoundTrip.mdrain (a : BitVec 5) (b : BitVec 5) : RoundTrip.Statement (.mdrain a b) := by
  intro _ h
  simp_all [decode, decodeRaw, decodeMaj7, decodeFX7C, encode, Instr.wellFormed]

theorem RoundTrip.mzero (b : BitVec 5) : RoundTrip.Statement (.mzero b) := by
  intro _ h
  simp_all [decode, decodeRaw, decodeMaj7, decodeFX7C, encode, Instr.wellFormed]

theorem RoundTrip.mtrn (a : BitVec 5) (b : BitVec 5) : RoundTrip.Statement (.mtrn a b) := by
  intro _ h
  simp_all [decode, decodeRaw, decodeMaj7, decodeFX7C, encode, Instr.wellFormed]

theorem RoundTrip.mprm (a : BitVec 5) (b : BitVec 5) : RoundTrip.Statement (.mprm a b) := by
  intro _ h
  simp_all [decode, decodeRaw, decodeMaj7, decodeFX7C, encode, Instr.wellFormed]

theorem RoundTrip.mred (b : BitVec 5) (s : BitVec 1) : RoundTrip.Statement (.mred b s) := by
  intro _ h
  simp_all [decode, decodeRaw, decodeMaj7, decodeFX7C, encode, Instr.wellFormed]

theorem RoundTrip.mwait (d : BitVec 5) : RoundTrip.Statement (.mwait d) := by
  intro _ h
  simp_all [decode, decodeRaw, decodeMaj7, decodeFX7C, encode, Instr.wellFormed]

theorem RoundTrip.mstep (d : BitVec 5) : RoundTrip.Statement (.mstep d) := by
  intro _ h
  simp_all [decode, decodeRaw, decodeMaj7, decodeFX7C, encode, Instr.wellFormed]

theorem RoundTrip.mstepRes (d : BitVec 5) : RoundTrip.Statement (.mstepRes d) := by
  intro _ h
  simp_all [decode, decodeRaw, decodeMaj7, decodeFX7C, encode, Instr.wellFormed]

theorem RoundTrip.mstepResat (d : BitVec 5) (a : BitVec 5) : RoundTrip.Statement (.mstepResat d a) := by
  intro _ h
  simp_all [decode, decodeRaw, decodeMaj7, decodeFX7C, encode, Instr.wellFormed]

theorem RoundTrip.mstepDis (d : BitVec 5) : RoundTrip.Statement (.mstepDis d) := by
  intro _ h
  simp_all [decode, decodeRaw, decodeMaj7, decodeFX7C, encode, Instr.wellFormed]

theorem RoundTrip.mfence (d : BitVec 5) : RoundTrip.Statement (.mfence d) := by
  intro _ h
  simp_all [decode, decodeRaw, decodeMaj7, decodeFX7C, encode, Instr.wellFormed]

theorem RoundTrip.rdsr (d : BitVec 5) (a : BitVec 5) : RoundTrip.Statement (.rdsr d a) := by
  intro _ h
  simp_all [decode, decodeRaw, decodeMaj7, decodeFX7D, encode, Instr.wellFormed]

theorem RoundTrip.wrsr (a : BitVec 5) (b : BitVec 5) : RoundTrip.Statement (.wrsr a b) := by
  intro _ h
  simp_all [decode, decodeRaw, decodeMaj7, decodeFX7D, encode, Instr.wellFormed]

theorem RoundTrip.tlbiPage (d : BitVec 5) (a : BitVec 5) (b : BitVec 5) : RoundTrip.Statement (.tlbiPage d a b) := by
  intro _ h
  simp_all [decode, decodeRaw, decodeMaj7, decodeFX7D, encode, Instr.wellFormed]

theorem RoundTrip.tlbiCtx (d : BitVec 5) (b : BitVec 5) : RoundTrip.Statement (.tlbiCtx d b) := by
  intro _ h
  simp_all [decode, decodeRaw, decodeMaj7, decodeFX7D, encode, Instr.wellFormed]

theorem RoundTrip.xrinv (d : BitVec 5) (a : BitVec 5) (b : BitVec 5) : RoundTrip.Statement (.xrinv d a b) := by
  intro _ h
  simp_all [decode, decodeRaw, decodeMaj7, decodeFX7D, encode, Instr.wellFormed]

theorem RoundTrip.ctxsv (d : BitVec 5) (a : BitVec 5) (b : BitVec 5) : RoundTrip.Statement (.ctxsv d a b) := by
  intro _ h
  simp_all [decode, decodeRaw, decodeMaj7, decodeFX7D, encode, Instr.wellFormed]

theorem RoundTrip.ctxld (d : BitVec 5) (a : BitVec 5) (b : BitVec 5) : RoundTrip.Statement (.ctxld d a b) := by
  intro _ h
  simp_all [decode, decodeRaw, decodeMaj7, decodeFX7D, encode, Instr.wellFormed]

theorem RoundTrip.engrst (d : BitVec 5) (a : BitVec 5) (b : BitVec 5) : RoundTrip.Statement (.engrst d a b) := by
  intro _ h
  simp_all [decode, decodeRaw, decodeMaj7, decodeFX7D, encode, Instr.wellFormed]

theorem RoundTrip.cfenceWb (a : BitVec 5) (b : BitVec 5) : RoundTrip.Statement (.cfenceWb a b) := by
  intro _ h
  simp_all [decode, decodeRaw, decodeMaj7, decodeFX7D, encode, Instr.wellFormed]

theorem RoundTrip.cfenceInv (a : BitVec 5) (b : BitVec 5) : RoundTrip.Statement (.cfenceInv a b) := by
  intro _ h
  simp_all [decode, decodeRaw, decodeMaj7, decodeFX7D, encode, Instr.wellFormed]

theorem RoundTrip.cfenceDrop (a : BitVec 5) (b : BitVec 5) : RoundTrip.Statement (.cfenceDrop a b) := by
  intro _ h
  simp_all [decode, decodeRaw, decodeMaj7, decodeFX7D, encode, Instr.wellFormed]

theorem RoundTrip.idle (d : BitVec 5) (a : BitVec 5) (b : BitVec 5) (q : BitVec 1) (t : BitVec 1) : RoundTrip.Statement (.idle d a b q t) := by
  intro _ h
  simp_all [decode, decodeRaw, decodeMaj7, decodeFX7D, encode, Instr.wellFormed]

theorem RoundTrip.runb (n : BitVec 5) (a : BitVec 8) : RoundTrip.Statement (.runb n a) := by
  intro _ h
  simp_all [decode, decodeRaw, decodeMaj7, encode, Instr.wellFormed]

theorem RoundTrip.trl (t : BitVec 3) (v : BitVec 1) : RoundTrip.Statement (.trl t v) := by
  intro _ h
  simp_all [decode, decodeRaw, decodeMaj7, encode, Instr.wellFormed]

theorem RoundTrip.himm (p : BitVec 24) : RoundTrip.Statement (.himm p) := by
  intro _ h
  simp_all [decode, decodeRaw, decodeMaj7, decodeHint, encode, Instr.wellFormed]

theorem RoundTrip.hmod (s : BitVec 4) (o : BitVec 2) (r : BitVec 3) (a : BitVec 1) (u : BitVec 1) (v : BitVec 3) (z : BitVec 7) : RoundTrip.Statement (.hmod s o r a u v z) := by
  intro _ h
  simp_all [decode, decodeRaw, decodeMaj7, decodeHint, encode, Instr.wellFormed]

theorem RoundTrip.hsched (u : BitVec 3) : RoundTrip.Statement (.hsched u) := by
  intro _ h
  simp_all [decode, decodeRaw, decodeMaj7, decodeHint, encode, Instr.wellFormed]

theorem RoundTrip.hcache (l : BitVec 2) : RoundTrip.Statement (.hcache l) := by
  intro _ h
  simp_all [decode, decodeRaw, decodeMaj7, decodeHint, encode, Instr.wellFormed]

theorem RoundTrip.hfunc (b : BitVec 5) : RoundTrip.Statement (.hfunc b) := by
  intro _ h
  simp_all [decode, decodeRaw, decodeMaj7, decodeHint, encode, Instr.wellFormed]

theorem RoundTrip.write (c : Cmd) : RoundTrip.Statement (.write c) := by
  simp [RoundTrip.Statement, Instr.isWord]

theorem RoundTrip.read (c : Cmd) : RoundTrip.Statement (.read c) := by
  simp [RoundTrip.Statement, Instr.isWord]

theorem RoundTrip.launch (c : Cmd) : RoundTrip.Statement (.launch c) := by
  simp [RoundTrip.Statement, Instr.isWord]

theorem RoundTrip.remove (c : Cmd) : RoundTrip.Statement (.remove c) := by
  simp [RoundTrip.Statement, Instr.isWord]

theorem RoundTrip.regctx (c : Cmd) : RoundTrip.Statement (.regctx c) := by
  simp [RoundTrip.Statement, Instr.isWord]

theorem RoundTrip.regobj (c : Cmd) : RoundTrip.Statement (.regobj c) := by
  simp [RoundTrip.Statement, Instr.isWord]

theorem RoundTrip.bind (c : Cmd) : RoundTrip.Statement (.bind c) := by
  simp [RoundTrip.Statement, Instr.isWord]

theorem RoundTrip.loadobj (c : Cmd) : RoundTrip.Statement (.loadobj c) := by
  simp [RoundTrip.Statement, Instr.isWord]

theorem RoundTrip.qconf (c : Cmd) : RoundTrip.Statement (.qconf c) := by
  simp [RoundTrip.Statement, Instr.isWord]

theorem RoundTrip.featneg (c : Cmd) : RoundTrip.Statement (.featneg c) := by
  simp [RoundTrip.Statement, Instr.isWord]

theorem RoundTrip.podcfg (c : Cmd) : RoundTrip.Statement (.podcfg c) := by
  simp [RoundTrip.Statement, Instr.isWord]

theorem RoundTrip.powerUp (p : PowerUp) : RoundTrip.Statement (.powerUp p) := by
  simp [RoundTrip.Statement, Instr.isWord]

theorem RoundTrip.bootWrite (c : Cmd) : RoundTrip.Statement (.bootWrite c) := by
  simp [RoundTrip.Statement, Instr.isWord]

theorem RoundTrip.preemptionRequest (k : CrewKey) (area : Nat) : RoundTrip.Statement (.preemptionRequest k area) := by
  simp [RoundTrip.Statement, Instr.isWord]

theorem RoundTrip.quantumExpiry (k : CrewKey) (area : Nat) : RoundTrip.Statement (.quantumExpiry k area) := by
  simp [RoundTrip.Statement, Instr.isWord]

theorem RoundTrip.parkRotation (u : AgentKey) : RoundTrip.Statement (.parkRotation u) := by
  simp [RoundTrip.Statement, Instr.isWord]

theorem RoundTrip.pathMerge (u : AgentKey) (p q : PathKey) : RoundTrip.Statement (.pathMerge u p q) := by
  simp [RoundTrip.Statement, Instr.isWord]

theorem RoundTrip.resultWriteback (u : AgentKey) (token : Nat) : RoundTrip.Statement (.resultWriteback u token) := by
  simp [RoundTrip.Statement, Instr.isWord]

theorem RoundTrip.impreciseTrapTaken (u : AgentKey) (slot : Nat) : RoundTrip.Statement (.impreciseTrapTaken u slot) := by
  simp [RoundTrip.Statement, Instr.isWord]

theorem RoundTrip.waitvRecheck (u : AgentKey) (slot : Nat) : RoundTrip.Statement (.waitvRecheck u slot) := by
  simp [RoundTrip.Statement, Instr.isWord]

theorem RoundTrip.waitvDeadline (u : AgentKey) (slot : Nat) : RoundTrip.Statement (.waitvDeadline u slot) := by
  simp [RoundTrip.Statement, Instr.isWord]

theorem RoundTrip.twaitTargetReached (u : AgentKey) (slot : Nat) : RoundTrip.Statement (.twaitTargetReached u slot) := by
  simp [RoundTrip.Statement, Instr.isWord]

theorem RoundTrip.idleWake (u : AgentKey) (slot : Nat) : RoundTrip.Statement (.idleWake u slot) := by
  simp [RoundTrip.Statement, Instr.isWord]

theorem RoundTrip.queueStreamFetch (u : AgentKey) (q : Nat) : RoundTrip.Statement (.queueStreamFetch u q) := by
  simp [RoundTrip.Statement, Instr.isWord]

theorem RoundTrip.copySectorCount (k : CrewKey) (id : Nat) : RoundTrip.Statement (.copySectorCount k id) := by
  simp [RoundTrip.Statement, Instr.isWord]

theorem RoundTrip.marverOpStart (k : CrewKey) (ix : Nat) : RoundTrip.Statement (.marverOpStart k ix) := by
  simp [RoundTrip.Statement, Instr.isWord]

theorem RoundTrip.marverOpComplete (k : CrewKey) (ix : Nat) : RoundTrip.Statement (.marverOpComplete k ix) := by
  simp [RoundTrip.Statement, Instr.isWord]

theorem RoundTrip.lehrBatchFlush (die : Nat) : RoundTrip.Statement (.lehrBatchFlush die) := by
  simp [RoundTrip.Statement, Instr.isWord]

theorem RoundTrip.faultReplyRetry (die : Nat) : RoundTrip.Statement (.faultReplyRetry die) := by
  simp [RoundTrip.Statement, Instr.isWord]

theorem RoundTrip.faultReplyFail (die : Nat) : RoundTrip.Statement (.faultReplyFail die) := by
  simp [RoundTrip.Statement, Instr.isWord]

theorem RoundTrip.bindRecordWrite (die cluster slot : Nat) (record : List Byte) : RoundTrip.Statement (.bindRecordWrite die cluster slot record) := by
  simp [RoundTrip.Statement, Instr.isWord]

theorem RoundTrip.crewPlacement (die cluster : Nat) : RoundTrip.Statement (.crewPlacement die cluster) := by
  simp [RoundTrip.Statement, Instr.isWord]

theorem RoundTrip.crewRetire (k : CrewKey) : RoundTrip.Statement (.crewRetire k) := by
  simp [RoundTrip.Statement, Instr.isWord]

theorem RoundTrip.distributorCycle (die : Nat) : RoundTrip.Statement (.distributorCycle die) := by
  simp [RoundTrip.Statement, Instr.isWord]

theorem RoundTrip.registerWrite (die offset width value : Nat) : RoundTrip.Statement (.registerWrite die offset width value) := by
  simp [RoundTrip.Statement, Instr.isWord]

theorem RoundTrip.timeExchange (die : Nat) (x : TimeExchange) : RoundTrip.Statement (.timeExchange die x) := by
  simp [RoundTrip.Statement, Instr.isWord]

theorem RoundTrip.timeHealthTimeout (die : Nat) : RoundTrip.Statement (.timeHealthTimeout die) := by
  simp [RoundTrip.Statement, Instr.isWord]

theorem RoundTrip.orderedPacketArrival (port : Option Nat) (p : OrdPacket) : RoundTrip.Statement (.orderedPacketArrival port p) := by
  simp [RoundTrip.Statement, Instr.isWord]

theorem RoundTrip.watermarkFlitReceive (port : Nat) (inOrder : Bool) (vec : List Nat) : RoundTrip.Statement (.watermarkFlitReceive port inOrder vec) := by
  simp [RoundTrip.Statement, Instr.isWord]

theorem RoundTrip.watermarkBeacon (port : Nat) : RoundTrip.Statement (.watermarkBeacon port) := by
  simp [RoundTrip.Statement, Instr.isWord]

theorem RoundTrip.portStall (port : Nat) : RoundTrip.Statement (.portStall port) := by
  simp [RoundTrip.Statement, Instr.isWord]

theorem RoundTrip.fabricAck (u : AgentKey) (part : Nat) : RoundTrip.Statement (.fabricAck u part) := by
  simp [RoundTrip.Statement, Instr.isWord]

theorem RoundTrip.creditAuditSend (l : LinkKey) (vc : Nat) : RoundTrip.Statement (.creditAuditSend l vc) := by
  simp [RoundTrip.Statement, Instr.isWord]

theorem RoundTrip.creditAuditReceive (l : LinkKey) (vc freed : Nat) (intact : Bool) : RoundTrip.Statement (.creditAuditReceive l vc freed intact) := by
  simp [RoundTrip.Statement, Instr.isWord]

theorem RoundTrip.renqDelivery (p : RenqPacket) : RoundTrip.Statement (.renqDelivery p) := by
  simp [RoundTrip.Statement, Instr.isWord]

theorem RoundTrip.renqAck (id status : Nat) : RoundTrip.Statement (.renqAck id status) := by
  simp [RoundTrip.Statement, Instr.isWord]

theorem RoundTrip.redpArrival (id : Nat) : RoundTrip.Statement (.redpArrival id) := by
  simp [RoundTrip.Statement, Instr.isWord]

theorem RoundTrip.redwDeadline (u : AgentKey) (slot : Nat) : RoundTrip.Statement (.redwDeadline u slot) := by
  simp [RoundTrip.Statement, Instr.isWord]

theorem RoundTrip.correctedError (die : Nat) : RoundTrip.Statement (.correctedError die) := by
  simp [RoundTrip.Statement, Instr.isWord]

theorem RoundTrip.uncorrectableDataError (pa : Nat) : RoundTrip.Statement (.uncorrectableDataError pa) := by
  simp [RoundTrip.Statement, Instr.isWord]

theorem RoundTrip.coreStateError (e : CoreError) : RoundTrip.Statement (.coreStateError e) := by
  simp [RoundTrip.Statement, Instr.isWord]

theorem RoundTrip.fatalError (c : CtxId) : RoundTrip.Statement (.fatalError c) := by
  simp [RoundTrip.Statement, Instr.isWord]

theorem RoundTrip.powerThermalLimit (die : Nat) : RoundTrip.Statement (.powerThermalLimit die) := by
  simp [RoundTrip.Statement, Instr.isWord]

theorem RoundTrip.reservedEncoding (w : Word) : RoundTrip.Statement (.reservedEncoding w) := by
  simp [RoundTrip.Statement, Instr.isWord]

theorem RoundTrip.fabricAccessArrival (p : FabricPacket) : RoundTrip.Statement (.fabricAccessArrival p) := by
  simp [RoundTrip.Statement, Instr.isWord]

theorem RoundTrip.computeDiePromise (die : Nat) : RoundTrip.Statement (.computeDiePromise die) := by
  simp [RoundTrip.Statement, Instr.isWord]

theorem RoundTrip.marverDrainPoint (k : CrewKey) : RoundTrip.Statement (.marverDrainPoint k) := by
  simp [RoundTrip.Statement, Instr.isWord]

theorem RoundTrip.eret  : RoundTrip.Statement (.eret) := by
  intro _ h
  simp_all [decode, decodeRaw, decodeMaj7, decodeFX7D, encode, Instr.wellFormed]

theorem RoundTrip.powerLoss  : RoundTrip.Statement (.powerLoss) := by
  simp [RoundTrip.Statement, Instr.isWord]

end Sys2Proof.Laws
end

