-- ==== Sys2Proof/Laws/Word.lean ====
section
/-!
SUPPORT. Lane words, masks and little-endian bytes: what each of their operations gives.
-/
namespace Sys2Proof

set_option Elab.async false

/-! ### Lanes -/

@[simp] theorem Lanes.at_tab (f : Nat → Word) (n : Nat) : (Lanes.tab f).at n = if n < 32 then f n else 0 := by
  unfold Lanes.at Lanes.tab
  simp only [Array.getD_eq_getD_getElem?, Vector.toArray_ofFn]
  split
  · simp [*]
  · simp [*]

theorem Lanes.at_ge (l : Lanes) {n : Nat} (h : 32 ≤ n) : l.at n = 0 := by
  unfold Lanes.at
  simp [Array.getD_eq_getD_getElem?, h]

@[simp] theorem Lanes.at_const (w : Word) (n : Nat) : (Lanes.const w).at n = if n < 32 then w else 0 := Lanes.at_tab _ _

@[simp] theorem Lanes.at_blend (m : Mask) (x y : Lanes) (n : Nat) :
    (Lanes.blend m x y).at n = if n < 32 then (if m.has n then x.at n else y.at n) else 0 := Lanes.at_tab _ _

theorem Lanes.ext {x y : Lanes} (h : ∀ n, n < 32 → x.at n = y.at n) : x = y := by
  apply Vector.ext
  intro i hi
  have := h i hi
  simpa [Lanes.at, Array.getD_eq_getD_getElem?, hi] using this

theorem Lanes.tab_congr {f g : Nat → Word} (h : ∀ n, n < 32 → f n = g n) : Lanes.tab f = Lanes.tab g :=
  Lanes.ext fun n hn => by simp [hn, h n hn]

@[simp] theorem Lanes.tab_at (l : Lanes) : (Lanes.tab fun n => l.at n) = l := Lanes.ext fun n hn => by simp [hn]

/-! ### Masks -/

theorem Mask.foldl_test (f : Nat → Bool) (l : List Nat) (z : Mask) (n : Nat) (hn : n < 32) :
    (l.foldl (fun (m : Mask) k => if f k then m ||| ((1 : Mask) <<< k) else m) z).getLsbD n =
      (z.getLsbD n || (l.any fun k => k == n && f k)) := by
  induction l generalizing z with
  | nil => simp
  | cons k ks ih =>
    rw [List.foldl_cons, ih]
    by_cases hf : f k
    · have h1 : ((1#32 : Mask) <<< k).getLsbD n = decide (n = k) := by
        rw [BitVec.getLsbD_shiftLeft, BitVec.getLsbD_one]
        by_cases hk : n < k
        · simp [hn, hk]; omega
        · simp [hn, hk]; omega
      simp only [hf, if_true, BitVec.getLsbD_or]
      rw [show ((1 : Mask) <<< k).getLsbD n = decide (n = k) from h1]
      by_cases he : n = k
      · simp [he, hf]
      · have he' : (k == n) = false := by simp; omega
        simp [he, he']
    · simp [hf]

@[simp] theorem Mask.getLsbD_ofTest (f : Nat → Bool) (n : Nat) :
    (Mask.ofTest f).getLsbD n = (decide (n < 32) && f n) := by
  by_cases hn : n < 32
  · rw [Mask.ofTest, Mask.foldl_test f _ _ n hn]
    have h0 : BitVec.getLsbD (0 : Mask) n = false := BitVec.getLsbD_zero
    rw [h0, Bool.false_or, decide_eq_true hn, Bool.true_and]
    by_cases hf : f n
    · rw [hf, List.any_eq_true]
      exact ⟨n, by simpa using hn, by simp [hf]⟩
    · rw [Bool.not_eq_true] at hf
      rw [hf, List.any_eq_false]
      intro k _
      by_cases hk : k = n <;> simp [hk, hf]
  · rw [BitVec.getLsbD_of_ge _ _ (by omega), decide_eq_false hn, Bool.false_and]

@[simp] theorem Mask.getElem_ofTest (f : Nat → Bool) (n : Nat) (h : n < 32) : (Mask.ofTest f)[n] = f n := by
  rw [← BitVec.getLsbD_eq_getElem, Mask.getLsbD_ofTest]; simp [h]

@[simp] theorem Mask.has_ofTest (f : Nat → Bool) (n : Nat) : (Mask.ofTest f).has n = (decide (n < 32) && f n) :=
  Mask.getLsbD_ofTest f n

theorem Mask.ofTest_congr {f g : Nat → Bool} (h : ∀ n, n < 32 → f n = g n) : Mask.ofTest f = Mask.ofTest g := by
  apply BitVec.eq_of_getLsbD_eq
  intro n hn
  rw [Mask.getLsbD_ofTest, Mask.getLsbD_ofTest, h n hn]

@[simp] theorem Mask.getLsbD_one (k n : Nat) : (Mask.one k).getLsbD n = (decide (n < 32) && decide (n = k)) := by
  unfold Mask.one
  by_cases hn : n < 32
  · by_cases hk : n < k
    · simp [hn, hk]; omega
    · simp [hn, hk]; omega
  · simp [hn]

theorem Mask.mem_lanes (m : Mask) (n : Fin 32) : n ∈ m.lanes ↔ m.getLsbD n.val = true := by
  simp [Mask.lanes]

/-! ### Bytes -/

@[simp] theorem leBytes_length (k n : Nat) : (leBytes k n).length = k := by
  induction k generalizing n with
  | zero => rfl
  | succ k ih => simp [leBytes, ih]

theorem leNat_leBytes (k n : Nat) : leNat (leBytes k n) = n % 256 ^ k := by
  induction k generalizing n with
  | zero => simp [leBytes, leNat, Nat.mod_one]
  | succ k ih =>
    simp only [leBytes, leNat, ih, BitVec.toNat_ofNat]
    rw [show 256 ^ (k + 1) = 256 * 256 ^ k from Nat.pow_succ']
    exact Nat.mod_mul.symm

theorem leNat_lt (bs : List Byte) : leNat bs < 256 ^ bs.length := by
  induction bs with
  | nil => simp [leNat]
  | cons b bs ih =>
    have := b.isLt
    simp only [leNat, List.length_cons, Nat.pow_succ]
    omega

theorem leBytes_leNat (bs : List Byte) : leBytes bs.length (leNat bs) = bs := by
  induction bs with
  | nil => rfl
  | cons b bs ih =>
    have hb := b.isLt
    simp only [List.length_cons, leBytes, leNat]
    rw [show (b.toNat + 256 * leNat bs) / 256 = leNat bs by omega, ih]
    congr 1
    apply BitVec.eq_of_toNat_eq
    simp only [BitVec.toNat_ofNat]
    omega

end Sys2Proof
end

