-- ==== Sys2Proof/Tests/Slice0.lean ====
section
/-!
SUPPORT. Tests: words laid out from the tables of the spec, ill-formed instructions, single steps on a small machine, and for
each statement with hypotheses a state and operands that meet them.
-/
namespace Sys2Proof.Tests

open Sys2Proof Sys2Proof.Machine

set_option maxRecDepth 100000
set_option Elab.async false

/-- The word decodes to the instruction, which is well-formed and encodes as the word. -/
def spells (e : Word × Instr) : Bool :=
  (match decode e.1 with
    | .ok j => decide (j = e.2)
    | .error _ => false) && e.2.wellFormed && encode e.2 == e.1

/-- The small machine: reset, with a program loaded. -/
def base : State := State.reset.loaded

/-- An HMOD before the instruction. -/
def hinted (s : State) (h : Hmod) : State :=
  s.mapCur fun p => { p with pfx := { p.pfx with hmod := some h, count := 1 } }

/-- A row of the unit in front, the same word in every lane. -/
def withRow (s : State) (k : Nat) (w : Word) : State := s.mapRegs fun r => { r with v := r.v.set k (Lanes.const w) }

/-- The small machine with words in v0, v1 and v2. -/
def small (x y z : Word) : State := withRow (withRow (withRow base 0 x) 1 y) 2 z

/-- A property of the next state, where there is one. -/
def nextIs (r : Step) (p : State → Bool) : Bool :=
  match r with
  | .next t => p t
  | _ => false

/-- An instruction on v0, v1 and v2 puts a word in lane 0 and lane 31 of v2 and moves on. -/
def gives (h : Option Hmod) (e : Instr × (Word × Word × Word) × Word) : Bool :=
  let s := small e.2.1.1 e.2.1.2.1 e.2.1.2.2
  nextIs (exec e.1 ((h.map (hinted s)).getD s)) fun t =>
    (t.self.regs.row 2).at 0 == e.2.2 && (t.self.regs.row 2).at 31 == e.2.2 && t.self.cur.pc == 0x100004

/-- The small machine with a2 bound to the page of 0x40000. -/
def bound : State := match exec (.abind 0 2 0x54) (base.putS 20 0x40000) with
  | .next t => t
  | _ => base

/-! ### Decoding

For every instruction a word laid out by its row of the opcode table (spec 07 R159, R160): the fixed bits of the row and
a value in each field. -/

theorem test_decode_integer : ([
    (0x0337C8DC, .iadd 4 111 72 110), (0x03DE3A85, .isub 7 60 58 66), (0x05E61930, .iadds 7 76 25 24),
    (0x05E13DA3, .isubs 7 66 61 81), (0x0773181A, .imul 5 102 24 13), (0x07139319, .imulh 4 39 19 12),
    (0x097472B2, .imad 5 104 114 89), (0x0B834DFC, .idiv 6 6 77 126), (0x0B3E3AA9, .irem 4 124 58 84),
    (0x0DA7D42A, .imin 6 79 84 21), (0x0D416B89, .imax 5 2 107 68), (0x0E440532, .and 1 8 5 25),
    (0x0EA684C9, .or 2 77 4 100), (0x11153998, .xor 4 42 57 76), (0x11CD433D, .andn 7 26 67 30),
    (0x13934002, .shl 6 38 64 1)] : List (Word × Instr)).all spells = true := by decide +kernel

theorem test_decode_integer_2 : ([
    (0x1385BBA9, .shr 6 11 59 84), (0x14DAC7F0, .sar 3 53 71 120), (0x15C5DB43, .rotl 7 11 91 33),
    (0x16CAA508, .icmp 3 2 5 37 4), (0x1864E31C, .sel 1 73 99 14), (0x1B076D4C, .bfe 4 14 109 38),
    (0x1B04FB07, .bfi 4 9 123 3), (0x1DEC01F0, .popc 7 88 1), (0x1C8DF7F1, .clz 2 27 119),
    (0x1E5EB1F0, .brev 1 61 49), (0x1F99B6F1, .iabs 6 51 54), (0x2064D134, .dp4 1 73 81 26),
    (0x21EBA359, .dp4s 7 87 35 44), (0x22542B04, .dp2 1 40 43 2), (0x23317721, .dp2s 4 98 119 16),
    (0x24905B1A, .iaddi 2 32 91 26)] : List (Word × Instr)).all spells = true := by decide +kernel

theorem test_decode_integer_3 : ([
    (0x26443CCD, .andi 1 8 60 205), (0x290BD890, .ori 4 23 88 144), (0x2A9D4231, .xori 2 58 66 49),
    (0x2DB1916C, .shli 6 99 17 108), (0x2F990F66, .shri 6 50 15 102), (0x313F9C01, .sari 4 127 28 1),
    (0x32D5F206, .icmpi 3 5 3 114 6), (0x348C33FF, .imuli 2 24 51 255)] : List (Word × Instr)).all spells = true := by decide +kernel

theorem test_decode_float : ([
    (0x41E75394, .fadd 7 78 83 74), (0x40437F27, .fsub 1 6 127 19), (0x429CA204, .fmul 2 57 34 2),
    (0x43E7ABD7, .fdiv 7 79 43 107), (0x44D90A14, .ffma 3 50 10 10), (0x444DCBA5, .ffms 1 27 75 82),
    (0x46814D60, .fmin 2 2 77 48), (0x46E83B23, .fmax 3 80 59 17), (0x4963CA24, .fcmp 5 8 7 74 18),
    (0x49C218A3, .fclass 7 4 24 81), (0x4A947504, .fsfu 2 40 117 2), (0x4DE7A006, .fcvt 7 79 32 3),
    (0x4DA8F903, .frnd 6 81 121 1), (0x4FBD32E2, .hadd2 6 122 50 113), (0x4F270B6D, .hmul2 4 78 11 54),
    (0x50470E0A, .hfma2 1 14 14 5)] : List (Word × Instr)).all spells = true := by decide +kernel

theorem test_decode_float_2 : ([
    (0x517E213F, .hdot2 5 124 33 31), (0x551343F0, .fabs 4 38 67), (0x54BBDDF1, .fneg 2 119 93),
    (0x56489E7C, .fscale 1 17 30 62)] : List (Word × Instr)).all spells = true := by decide +kernel

theorem test_decode_misc : ([
    (0x53ADB342, .faddx 6 91 51 33), (0x5335749B, .fmulx 4 106 116 77), (0xC57C55F0, .calli 5 85),
    (0xC6FC78F1, .exit 3), (0xC8FC7825, .yield 3 37), (0xF8004A60, .mrule 18 19), (0xF8300360, .mswap 27),
    (0xF8407D61, .mstrm 31 11 1), (0xF8502EA0, .mwave 11 21), (0xF8601C80, .mback 7 4), (0xF8906AA0, .mtrn 26 21),
    (0xF8A07AE0, .mprm 30 23), (0xF8B00081, .mred 4 1), (0xFC2C2800, .runb 5 133), (0xFDD00000, .trl 6 1)] : List (Word × Instr)).all spells = true := by decide +kernel

theorem test_decode_lanes : ([
    (0x816A6EF0, .mov 5 84 110), (0x8367F813, .movi 5 79 19), (0x84CE76EC, .shfl 3 28 118 118),
    (0x8684A3F0, .vote 2 1 1 35), (0x871D20F1, .ballot 4 58 32), (0x88431706, .redl 1 6 23 3),
    (0x88E24A03, .fredl 3 68 74 1), (0x8A579208, .scanl 1 47 18 4), (0x8AEADE03, .fscanl 3 85 94 1),
    (0x8D7C780A, .part 5 5), (0x8E498606, .plop 1 2 3 6 3), (0x8E41CDA5, .pmov 1 3 77 82),
    (0x907C787C, .ixset 1 124), (0x926F28F0, .v2s 1 94 40)] : List (Word × Instr)).all spells = true := by decide +kernel

theorem test_decode_scalar : ([
    (0xA0C90A14, .sadd 3 18 10 10), (0xA12330BF, .ssub 4 70 48 95), (0xA27A78BE, .smul 1 116 120 95),
    (0xA3AD91CD, .smulh 6 91 17 102), (0xA4D70BB0, .sand 3 46 11 88), (0xA53A0AE1, .sor 4 116 10 112),
    (0xA7DB79CC, .sxor 7 54 121 102), (0xA677C095, .sshl 1 111 64 74), (0xA8685562, .sshr 1 80 85 49),
    (0xA925829D, .ssar 4 75 2 78), (0xAA44D21E, .scmp 1 1 1 82 15), (0xACF8B6F0, .smov 3 113 54),
    (0xAF95B2F0, .saddi 6 43 50 240), (0xB1ACCB76, .sld 6 89 75 59), (0xB11E6C8D, .sst 4 60 108 70),
    (0xB261E184, .smin 1 67 97 66)] : List (Word × Instr)).all spells = true := by decide +kernel

theorem test_decode_scalar_2 : ([
    (0xB2544D19, .smax 1 40 77 12), (0xB501F83B, .smovi 4 3 59)] : List (Word × Instr)).all spells = true := by decide +kernel

theorem test_decode_control : ([
    (0xC1873982, .br 6 473474), (0xC331EAA4, .call 4 3271332), (0xC53C21F1, .jmpi 4 33), (0xC67C78F0, .ret 1),
    (0xCBBC789D, .trap 6 157), (0xCCA1F82C, .featq 2 67 44), (0xCFFC78F0, .nop 7), (0xCEFC78F1, .tret 3)] : List (Word × Instr)).all spells = true := by decide +kernel

theorem test_decode_memory : ([
    (0xD1BC480A, .ld 6 120 4 64 2 2), (0xD32B335A, .st 4 86 3 26 6 2), (0xD5F40C28, .lds 7 104 0 97 2 0),
    (0xD70E896C, .sts 4 29 0 75 3 0), (0xD889080C, .mcst 2 18 0 64 6), (0xDBFC70C6, .pfx 7 7 6 1 2),
    (0xDDFC21E0, .abind 7 2 15), (0xDD3C4484, .abindH 4 4 36), (0xDEB5C632, .lda 2 107 4 49 9),
    (0xDF2BBB91, .stl 4 87 3 92 8), (0xE0C570AB, .atom 3 10 7 5 5 1), (0xE3ADB94D, .red 6 91 3 74 6 1),
    (0xE5BC78F0, .fence 6), (0xE7E49A69, .waitv 7 73 1 83 2 1), (0xE8003CE1, .cpy 15 7 1),
    (0xE8100721, .cpyo 1 25 1)] : List (Word × Instr)).all spells = true := by decide +kernel

theorem test_decode_memory_2 : ([
    (0xE8206D21, .cpyg 27 9 1), (0xE8302321, .cpys 8 25 1), (0xE8401741, .cpym 5 26 1), (0xE8500AA1, .cpye 2 21 1)] : List (Word × Instr)).all spells = true := by decide +kernel

theorem test_decode_sync : ([
    (0xEA0011E0, .binit 4 15), (0xEA125400, .barv 4 21), (0xEA204AA0, .bexp 18 21), (0xEA305740, .bwait 21 26),
    (0xEA467C60, .btest 12 31 3), (0xEA500000, .cbar), (0xEC0B1C00, .qcfg 22 7), (0xEC138000, .qdrn 7)] : List (Word × Instr)).all spells = true := by decide +kernel

theorem test_decode_task : ([
    (0xF00DC120, .qpop 27 16 9), (0xF0135C20, .qpush 6 23 1), (0xF02CC241, .renq 25 16 18 1),
    (0xF0305C00, .fetchw 23), (0xF0400800, .taske 2), (0xF0501800, .taska 6), (0xF0642400, .qstat 8 9),
    (0xF20CB001, .dopen 25 12 1), (0xF216F000, .dclose 13 28), (0xF22D5FA0, .dinfo 26 23 29),
    (0xF2340C01, .dbind 8 3 1), (0xF40F0000, .tstamp 30), (0xF41E8000, .tserr 29), (0xF42C34A0, .osend 24 13 5),
    (0xF4303DE4, .redp 15 15 2), (0xF44AF7C2, .redw 21 29 30 1)] : List (Word × Instr)).all spells = true := by decide +kernel

theorem test_decode_task_2 : ([
    (0xF4503400, .twait 13)] : List (Word × Instr)).all spells = true := by decide +kernel

theorem test_decode_marver : ([
    (0xF81AF400, .mcfg 21 29), (0xF8204740, .mstat 17 26), (0xF8706380, .mdrain 24 28), (0xF8800360, .mzero 27),
    (0xF8C40000, .mwait 8), (0xF8DE8000, .mstep 29), (0xF8D68001, .mstepRes 13), (0xF8D1A802, .mstepResat 3 10),
    (0xF8D90003, .mstepDis 18), (0xF8ED0000, .mfence 26)] : List (Word × Instr)).all spells = true := by decide +kernel

theorem test_decode_system : ([
    (0xFA000000, .eret), (0xFA1F2C00, .rdsr 30 11), (0xFA2027C0, .wrsr 9 30), (0xFA3BF020, .tlbiPage 23 28 1),
    (0xFA360221, .tlbiCtx 12 17), (0xFA4189E0, .xrinv 3 2 15), (0xFA55C9C0, .ctxsv 11 18 14),
    (0xFA6CA600, .ctxld 25 9 16), (0xFA7F04E0, .engrst 30 1 7), (0xFA806B80, .cfenceWb 26 28),
    (0xFA800DC1, .cfenceInv 3 14), (0xFA806842, .cfenceDrop 26 2), (0xFA934963, .idle 6 18 11 1 1)] : List (Word × Instr)).all spells = true := by decide +kernel

theorem test_decode_hints : ([
    (0xFE84A992, .himm 8694162), (0xFF1DEE80, .hmod 14 3 6 1 1 5 0), (0xFF380000, .hsched 6),
    (0xFF480000, .hcache 1), (0xFF790000, .hfunc 25)] : List (Word × Instr)).all spells = true := by decide +kernel
/-! Words that the spec works out itself: R179, the examples of 08 to 10 and 16, R384, R428. -/

theorem test_words_of_the_spec : ([
    (0x0A050812, .idiv 0 0x0A 8 9), (0xC1400004, .br 5 4), (0xAA0AD8F0, .scmp 0 2 5 0x58 0x78),
    (0xDC3C7B00, .abind 0 7 0x58), (0x021FBFB0, .iadd 0 0x3F 0x3F 0x58), (0xD60007F4, .sts 0 0 0 0x3F 5 0),
    (0xFA1D6400, .rdsr 0x1A 0x19), (0x8E130700, .plop 0 4 6 7 0), (0xFE7FFFFF, .himm 0x7FFFFF),
    (0x83C578FF, .movi 7 0x0A 0xFF), (0xCE3C78F1, .tret 0), (0xD61F0BCC, .sts 0 0x3E 0 0x5E 3 0),
    (0xB42EF84C, .smovi 0 0x5D 0x4C), (0x40818104, .fadd 2 3 1 2), (0xD002908C, .ld 0 5 1 4 3 0),
    (0xC07FFFFD, .br 1 0x3FFFFD), (0xEA105000, .barv 0 0x14), (0xF8C00000, .mwait 0),
    (0xB423F838, .smovi 0 0x47 0x38), (0x160489F0, .icmp 0 1 1 9 0x78), (0x240489FF, .iaddi 0 9 9 0xFF),
    (0x4238060E, .fmul 0 0x70 6 7), (0x88030501, .fredl 0 6 5 0), (0x4C018188, .fcvt 0 3 1 0x44),
    (0x1881840A, .sel 2 3 4 5), (0x903C7840, .ixset 0 0x40), (0x840203F6, .shfl 0 4 3 0x7B),
    (0x8C3C78F6, .part 0 0x7B), (0xE43C78F0, .fence 0), (0xE600AF05, .waitv 0 1 2 0x78 1 1),
    (0xE6018040, .waitv 0 3 0 2 0 0), (0xC200000A, .call 0 0x00000A), (0xC43C07F0, .calli 0 7)] : List (Word × Instr)).all spells = true := by decide +kernel

theorem test_words_of_the_spec_2 : ([
    (0xC63C78F1, .exit 0), (0xCA3C7805, .trap 0 5), (0xCC24F800, .featq 0 0x49 0),
    (0xA0264C9A, .sadd 0 0x4C 0x4C 0x4D), (0xAA04CCF0, .scmp 0 1 1 0x4C 0x78), (0xDE422F0B, .stl 1 4 2 0x78 5),
    (0xE0033054, .atom 0 6 3 2 0xA 0), (0xE80060E1, .cpy 0x18 7 1), (0xEA2052C0, .bexp 0x14 0x16),
    (0xEA3056E0, .bwait 0x15 0x17), (0xEA500000, .cbar), (0xF814A800, .mcfg 9 0x0A),
    (0xF8402D81, .mstrm 0x0B 0x0C 1), (0xF83002C0, .mswap 0x16), (0xF8D28003, .mstepDis 5),
    (0xF80052A0, .mrule 0x14 0x15), (0xF85062C0, .mwave 0x18 0x16), (0xF00214C0, .qpop 4 5 6),
    (0xF0219D01, .renq 3 7 8 1), (0xF204A801, .dopen 9 0x0A 1), (0xF231A001, .dbind 3 8 1), (0xF4048000, .tstamp 9),
    (0xF4262960, .osend 0x0C 0x0A 0x0B), (0xF43010A0, .redp 4 5 0), (0xF44310E0, .redw 6 4 7 0), (0xFA000000, .eret),
    (0xFA14A800, .rdsr 9 0x0A), (0xFA202960, .wrsr 0x0A 0x0B), (0xFA3180C1, .tlbiCtx 3 6),
    (0xFA3010C0, .tlbiPage 0 4 6), (0xFA4310A0, .xrinv 6 4 5), (0xFA5198E0, .ctxsv 3 6 7),
    (0xFA6198E0, .ctxld 3 6 7), (0xFA719900, .engrst 3 6 8), (0xFA8010A1, .cfenceInv 4 5),
    (0xFA9635C3, .idle 0x0C 0x0D 0x0E 1 1)] : List (Word × Instr)).all spells = true := by decide +kernel

/-! ### Single steps -/

/-- R184 to R187: results worked by hand from the definitions. -/
theorem test_integer : ([
    (.iadd 0 2 0 1, (0xFFFFFFFF, 2, 0), 1), (.isub 0 2 0 1, (0, 1, 0), 0xFFFFFFFF),
    (.iadds 0 2 0 1, (0x7FFFFFFF, 1, 0), 0x7FFFFFFF), (.isubs 0 2 0 1, (0x80000000, 1, 0), 0x80000000),
    (.imul 0 2 0 1, (0x10001, 0x10001, 0), 0x20001), (.imulh 0 2 0 1, (0xFFFFFFFF, 2, 0), 0xFFFFFFFF),
    (.imad 0 2 0 1, (3, 5, 7), 22), (.idiv 0 2 0 1, (0xFFFFFFF9, 2, 0), 0xFFFFFFFD),
    (.irem 0 2 0 1, (0xFFFFFFF9, 2, 0), 0xFFFFFFFF), (.imin 0 2 0 1, (0xFFFFFFFF, 1, 0), 0xFFFFFFFF),
    (.imax 0 2 0 1, (0xFFFFFFFF, 1, 0), 1), (.and 0 2 0 1, (12, 10, 0), 8), (.or 0 2 0 1, (12, 10, 0), 14),
    (.xor 0 2 0 1, (12, 10, 0), 6), (.andn 0 2 0 1, (12, 10, 0), 4), (.shl 0 2 0 1, (1, 33, 0), 2),
    (.shr 0 2 0 1, (0x80000000, 31, 0), 1), (.sar 0 2 0 1, (0x80000000, 31, 0), 0xFFFFFFFF),
    (.rotl 0 2 0 1, (0x80000001, 4, 0), 0x18)] : List (Instr × (Word × Word × Word) × Word)).all (gives none) = true := by
  decide +kernel

/-- R184 to R190, R201, R204 to R206. -/
theorem test_bits_and_immediates : ([
    (.sel 0 2 0 1, (5, 6, 0), 5), (.bfe 0 2 0 1, (0xF80, 0x804, 0), 0xFFFFFFF8),
    (.bfi 0 2 0 1, (0xAB, 0x804, 0xFFFFFFFF), 0xFFFFFABF), (.popc 0 2 0, (0xF0F0, 0, 0), 8),
    (.clz 0 2 0, (0xF000, 0, 0), 16), (.brev 0 2 0, (1, 0, 0), 0x80000000), (.iabs 0 2 0, (0xFFFFFFFF, 0, 0), 1),
    (.dp4 0 2 0 1, (0xFF000002, 0x01000003, 10), 15), (.dp4s 0 2 0 1, (1, 1, 0x7FFFFFFF), 0x7FFFFFFF),
    (.dp2 0 2 0 1, (0xFFFF0002, 0x00030004, 0), 5), (.dp2s 0 2 0 1, (0xFFFF0000, 0x10000, 0x80000000), 0x80000000),
    (.iaddi 0 2 0 0xFF, (5, 0, 0), 4), (.andi 0 2 0 0x0F, (0x1234, 0, 0), 4), (.ori 0 2 0 0xF0, (1, 0, 0), 0xFFFFFFF1),
    (.xori 0 2 0 0xFF, (0, 0, 0), 0xFFFFFFFF), (.shli 0 2 0 4, (0x10000001, 0, 0), 0x10),
    (.shri 0 2 0 4, (0x80000000, 0, 0), 0x08000000), (.sari 0 2 0 4, (0x80000000, 0, 0), 0xF8000000),
    (.imuli 0 2 0 0xFE, (3, 0, 0), 0xFFFFFFFA), (.mov 0 2 0, (9, 0, 0), 9), (.movi 0 2 0x80, (0, 0, 0), 0xFFFFFF80),
    (.ballot 0 2 0, (1, 0, 0), 0xFFFFFFFF), (.redl 0 2 0 0, (1, 0, 0), 32)] : List (Instr × (Word × Word × Word) × Word)).all
    (gives none) = true := by decide +kernel

/-- R191 to R200, R66: exact results and roundings worked by hand. -/
theorem test_float : ([
    (.fadd 0 2 0 1, (0x3F800000, 0x33800000, 0), 0x3F800000), (.fsub 0 2 0 1, (0x3F800000, 0x3F800000, 0), 0),
    (.fmul 0 2 0 1, (0x40400000, 0x3F000000, 0), 0x3FC00000), (.fdiv 0 2 0 1, (0x3F800000, 0x40400000, 0), 0x3EAAAAAB),
    (.ffma 0 2 0 1, (0x40000000, 0x40400000, 0x3F800000), 0x40E00000),
    (.ffms 0 2 0 1, (0x40000000, 0x40400000, 0x3F800000), 0xC0A00000),
    (.fmin 0 2 0 1, (0x80000000, 0, 0), 0x80000000), (.fmax 0 2 0 1, (0x80000000, 0, 0), 0),
    (.fabs 0 2 0, (0xC0000000, 0, 0), 0x40000000), (.fneg 0 2 0, (0xC0000000, 0, 0), 0x40000000),
    (.fscale 0 2 0 1, (0x3F800000, 3, 0), 0x41000000), (.faddx 0 2 0 1, (0x3F800000, 0x33800000, 0), 0x33800000),
    (.fmulx 0 2 0 1, (0x3F800001, 0x3F800001, 0), 0x28800000), (.fsfu 0 2 0 0, (0x40400000, 0, 0), 0x3EAAAAAB),
    (.fsfu 0 2 0 2, (0x41100000, 0, 0), 0x40400000), (.fcvt 0 2 0 1, (0xBF800000, 0, 0), 0),
    (.fcvt 0 2 0 2, (0xFFFFFFFF, 0, 0), 0xBF800000), (.frnd 0 2 0 0, (0xBE99999A, 0, 0), 0x80000000),
    (.hadd2 0 2 0 1, (0x3C003C00, 0x3C003C00, 0), 0x40004000), (.hmul2 0 2 0 1, (0x40003C00, 0x42003C00, 0), 0x46003C00),
    (.hfma2 0 2 0 1, (0x3C003C00, 0x3C003C00, 0x3C003C00), 0x40004000),
    (.hdot2 0 2 0 1, (0x3C003C00, 0x3C003C00, 0x3F800000), 0x40400000)] :
    List (Instr × (Word × Word × Word) × Word)).all (gives none) = true := by decide +kernel

/-- R198: 0.3 encoded into byte 1 of v3. -/
theorem test_fcvt_byte : gives (some ⟨0, 0, 0, 0, 0, 1, 0⟩) (.fcvt 0 2 0 0x44, (0x3E99999A, 0, 0x11111111), 0x11113211) = true := by
  decide +kernel

/-- R204, R205: a scan differs from lane to lane, and a reduction of ones over 32 lanes is 32. -/
theorem test_scans :
    nextIs (exec (.scanl 0 2 0 0) (small 1 0 0)) (fun t =>
      (t.self.regs.row 2).at 0 == 1 && (t.self.regs.row 2).at 31 == 32) = true ∧
    nextIs (exec (.fscanl 0 2 0 0) (small 0x3F800000 0 0)) (fun t =>
      (t.self.regs.row 2).at 0 == 0x3F800000 && (t.self.regs.row 2).at 31 == 0x42000000) = true ∧
    nextIs (exec (.fredl 0 2 0 0) (small 0x3F800000 0 0)) (fun t => (t.self.regs.row 2).at 7 == 0x42000000) = true ∧
    nextIs (exec (.shfl 0 2 0x79 0x7D) (small 0 0 0)) (fun t => (t.self.regs.row 2).at 0 == 31) = true := by decide +kernel

/-- R188, R194, R195, R203, R208: predicates. -/
theorem test_predicates : ([
    (.icmp 0 2 1 0 1, (0xFFFFFFFF, 1, 0), true), (.icmpi 0 4 1 0 0xFF, (0, 0, 0), true),
    (.fcmp 0 0 1 0 1, (0x80000000, 0, 0), true), (.fcmp 0 0 1 0 1, (0x7FC00000, 0x7FC00000, 0), false),
    (.fclass 0 1 0 1, (0x7F800000, 0x80, 0), true), (.vote 0 0 1 0, (0, 0, 0), false),
    (.plop 0 4 1 0 0, (0, 0, 0), false)] : List (Instr × (Word × Word × Word) × Bool)).all (fun e =>
      nextIs (exec e.1 (small e.2.1.1 e.2.1.2.1 e.2.1.2.2)) fun t =>
        (t.self.regs.pred 1).getLsbD 0 == e.2.2 && t.self.cur.pc == 0x100004) = true := by decide +kernel

/-- A scalar instruction on s20 and s21 puts a value in s22. -/
def scalars (e : Instr × (DWord × DWord) × DWord) : Bool :=
  nextIs (exec e.1 ((base.putS 20 e.2.1.1).putS 21 e.2.1.2)) fun t => t.self.regs.sAt 22 == e.2.2 && t.self.cur.pc == 0x100004

/-- R223: 64-bit results worked by hand. -/
theorem test_scalar : ([
    (.sadd 0 0x56 0x54 0x55, (0xFFFFFFFFFFFFFFFF, 2), 1), (.ssub 0 0x56 0x54 0x55, (0, 1), 0xFFFFFFFFFFFFFFFF),
    (.smul 0 0x56 0x54 0x55, (0x100000001, 0x100000001), 0x200000001), (.smulh 0 0x56 0x54 0x55, (0xFFFFFFFFFFFFFFFF, 2), 0xFFFFFFFFFFFFFFFF),
    (.sand 0 0x56 0x54 0x55, (12, 10), 8), (.sor 0 0x56 0x54 0x55, (12, 10), 14), (.sxor 0 0x56 0x54 0x55, (12, 10), 6),
    (.sshl 0 0x56 0x54 0x55, (1, 65), 2), (.sshr 0 0x56 0x54 0x55, (0x8000000000000000, 63), 1),
    (.ssar 0 0x56 0x54 0x55, (0x8000000000000000, 63), 0xFFFFFFFFFFFFFFFF), (.smov 0 0x56 0x54, (7, 0), 7),
    (.smovi 0 0x56 0xFF, (0, 0), 0xFFFFFFFFFFFFFFFF), (.saddi 0 0x56 0x54 0xFE, (5, 0), 3),
    (.smin 0 0x56 0x54 0x55, (0xFFFFFFFFFFFFFFFF, 1), 0xFFFFFFFFFFFFFFFF), (.smax 0 0x56 0x54 0x55, (0xFFFFFFFFFFFFFFFF, 1), 1),
    (.v2s 0 0x56 0, (0, 0), 0), (.featq 0 0x56 0, (0, 0), 0x3F)] : List (Instr × (DWord × DWord) × DWord)).all scalars = true := by
  decide +kernel

/-- R174, R214: the word at the PC runs, and a word that spells nothing traps at the vector of level 1. -/
theorem test_step :
    nextIs (step (State.reset.withFetchWord 32 0x83C578FF)) (fun t => t.self.cur.pc == 0x100004) = true ∧
    nextIs (step (State.reset.withFetchWord 32 0x00000000)) (fun t =>
      t.self.cur.pc == 0x200000 && t.self.tl == 1 && t.self.t1.cause.toNat % 256 == 1 && t.self.t1.val == 0) = true := by
  decide +kernel

/-- R212 to R217: a branch back over two words, a call, and a return on an empty stack, which ends every lane. -/
theorem test_control :
    nextIs (exec (.br 0 0x3FFFFE) base) (fun t => t.self.cur.pc == 0xFFFF8) = true ∧
    nextIs (exec (.call 0 4) base) (fun t => t.self.cur.pc == 0x100010 && t.self.cur.stack == [0x100004]) = true ∧
    nextIs (exec (.ret 0) base) (fun t => t.self.live == 0) = true ∧
    nextIs (exec (.exit 0) base) (fun t => t.self.live == 0) = true ∧
    nextIs (exec (.trap 0 5) base) (fun t => t.self.cur.pc == 0x200000 && t.self.t1.epc == 0x100004 && t.self.t1.val == 5) = true ∧
    nextIs (exec (.jmpi 0 0) (small 0x100100 0 0)) (fun t => t.self.cur.pc == 0x100100) = true := by decide +kernel

/-- R115, R227 to R230, R232, R236: a store and a load through a2 at an offset of 8, an addition by every lane in order, and the
same in the scratchpad. -/
theorem test_memory :
    nextIs (exec (.st 0 0 2 1 3 0) (withRow (withRow bound 0 0xA1B2C3D4) 1 8)) (fun t =>
      t.byteAt 0x40008 == 0xD4 && t.byteAt 0x4000B == 0xA1 && t.byteAt 0x4000C == 0) = true ∧
    nextIs (exec (.ld 0 2 2 1 3 0) (withRow (bound.putBytes 0x40008 [1, 2, 3, 0x84]) 1 8)) (fun t =>
      (t.self.regs.row 2).at 5 == 0x84030201) = true ∧
    nextIs (exec (.atom 0 2 2 1 0 0) (withRow (withRow bound 2 3) 1 8)) (fun t =>
      (t.self.regs.row 2).at 5 == 15 && t.byteAt 0x40008 == 96) = true ∧
    nextIs (exec (.red 0 2 2 1 0 0) (withRow (withRow bound 2 3) 1 8)) (fun t => t.byteAt 0x40008 == 96) = true ∧
    nextIs (exec (.sts 0 0 0 1 3 0) (small 0xA1B2C3D4 4 0)) (fun t => t.scrByte 0 4 == 0xD4 && t.scrByte 0 8 == 0) = true ∧
    nextIs (exec (.sst 0 0x54 0x55 0x78) ((base.putS 20 0x1122334455667788).putS 21 0x40000)) (fun t =>
      t.byteAt 0x40000 == 0x88 && t.byteAt 0x40007 == 0x11) = true := by decide +kernel

/-- R286, R319, R324: TSTAMP, RDSR of SR_CTXID (0x40), and an unassigned number. -/
theorem test_system :
    nextIs (exec (.tstamp 20) base) (fun t => t.self.regs.sAt 20 == 0) = true ∧
    nextIs (exec (.rdsr 20 21) (base.putS 21 0x40)) (fun t => t.self.regs.sAt 20 == 1) = true ∧
    nextIs (exec (.rdsr 20 21) (base.putS 21 0x16)) (fun t => t.self.t1.cause.toNat % 256 == Cause.illegalOperand.code) = true := by
  decide +kernel


/-- One instruction, or more, for each check of `Instr.wellFormed`, which refuses it. -/
theorem test_illformed : ([.icmp 0 6 1 0 1, .icmpi 0 7 1 0 1, .scmp 0 6 1 0x54 0x55, .fcmp 0 12 1 0 1, .fsfu 0 2 0 7, .fcvt 0 2 0 0x0C,
    .fcvt 0 2 0 0x40, .fcvt 0 2 0 0x78, .frnd 0 2 0 2, .vote 0 3 1 0, .redl 0 2 0 8, .scanl 0 2 0 8, .fredl 0 2 0 3, .fscanl 0 2 0 3,
    .plop 0 6 1 2 0, .plop 0 4 1 2 3, .plop 0 5 1 2 1, .lds 0 2 0 1 3 1, .sts 0 2 0 1 3 1, .pfx 0 2 1 3 0, .lda 0 2 2 1 10,
    .stl 0 2 2 1 15, .atom 0 2 2 1 14 0, .red 0 2 2 1 9 0, .red 0 2 2 1 10 0, .red 0 2 2 1 14 0, .waitv 0 2 0 1 6 0,
    .waitv 0 2 0 1 0 2, .cpy 1 2 0, .cpyo 1 2 0, .cpyg 1 2 0, .cpys 1 2 0, .cpym 1 2 0, .cpye 1 2 0, .renq 1 2 3 0, .redp 1 2 8,
    .redw 1 2 3 8, .runb 0 0, .runb 25 0, .trl 1 0, .hcache 3] : List Instr).all (fun i => i.wellFormed == false) = true := by decide

/-- Each check at its last good value. -/
theorem test_wellformed : ([.icmp 0 5 1 0 1, .icmpi 0 5 1 0 1, .scmp 0 5 1 0x54 0x55, .fcmp 0 11 1 0 1, .fsfu 0 2 0 6, .fcvt 0 2 0 0x0B,
    .fcvt 0 2 0 0x41, .fcvt 0 2 0 0x7F, .frnd 0 2 0 1, .vote 0 2 1 0, .redl 0 2 0 7, .scanl 0 2 0 7, .fredl 0 2 0 2, .fscanl 0 2 0 2,
    .plop 0 3 1 2 3, .plop 0 5 1 2 0, .lds 0 2 0 1 3 0, .sts 0 2 0 1 3 0, .pfx 0 2 1 2 0, .lda 0 2 2 1 9, .stl 0 2 2 1 9,
    .atom 0 2 2 1 13 0, .red 0 2 2 1 8 0, .red 0 2 2 1 13 0, .waitv 0 2 0 1 5 1, .cpy 1 2 1, .cpy 1 0 0, .renq 1 2 3 1, .renq 0 2 3 0,
    .redp 1 2 7, .redw 1 2 3 7, .runb 1 0, .runb 24 0, .trl 1 1, .trl 0 0, .hcache 2] : List Instr).all Instr.wellFormed = true := by decide
/-! ### Witnesses: states and operands that meet the hypotheses of the statements -/

/-- An optional trap is absent. -/
def clear (l : List (Option Trap)) : Bool := (firstTrap l).isNone

/-- A run of ten words, at its third, that holds `l0`. -/
def inRun (s : State) : State :=
  s.mapSelf fun a => { a with run := some ⟨0xFFFF0, 10, 3, a.regs, Vector.replicate 4 (Lanes.const 9), [], none, [], false, 3⟩ }

/-- The step of a state fetches a word that spells an instruction, or one that spells none. -/
def fetches (s : State) (spells : Bool) : Bool :=
  match s.turn with
  | .issue u slot => match s.focus u slot with
    | some s1 =>
      let r := s1.translate s1.ctx .fetch s1.self.cur.pc.toNat
      s1.self.cur.wait == .none && s1.self.imprecise.isNone && !s1.self.pois && decide (s1.self.cur.pc.toNat < 2 ^ 56) &&
      !s1.failedKey s1.self.cur.pc.toNat .fetch &&
      (match r.2 with
        | .ok pa _ => (match canonical pa with
          | some ca => !r.1.poisonedAt ca && (decode (BitVec.ofNat 32 (r.1.numAt ca 4))).isOk == spells
          | none => false)
        | _ => false)
    | none => false
  | _ => false

theorem witness_StepRunsDecoded : fetches (State.reset.withFetchWord 32 0x83C578FF) true = true ∧
    fetches (State.reset.withFetchWord 32 0) false = true := by decide +kernel

/-- A split whose outcome has come, and one in a system instruction that is tried again. -/
theorem witness_StepFinishesHeld : ([.result ⟨0x100000, Pfx.empty, 0⟩ 4 7, .sys ⟨0x100000, Pfx.empty, encode .eret⟩] : List Wait).all
    (fun w =>
      let s : State := { (base.mapCur fun p => { p with wait := w }) with turn := .issue base.selfKey base.self.cur.slot }
      s.turn == .issue base.selfKey base.self.cur.slot &&
      (s.focus base.selfKey base.self.cur.slot).any fun s1 =>
        s1.self.cur.wait == w && s1.self.imprecise.isNone && !s1.self.pois) = true ∧ decode (encode .eret) = .ok .eret := by
  decide +kernel

/-- An event in turn, first with its occasion there and then absent; the first stands at the head of the inputs. -/
theorem witness_StepRunsEvents :
    let i : Instr := .reservedEncoding 0
    let j : Instr := .distributorCycle 0
    let s : State := { base with turn := .event i, inputs := [i] }
    let t : State := { base with turn := .event j, inputs := [] }
    s.turn = .event i ∧ s.inputs = i :: [] ∧ nextIs (exec i (s.takeInput i)) (fun _ => true) = true ∧ t.turn = .event j ∧
    (match exec j (t.takeInput j) with
      | .fault _ => false
      | _ => true) = true := by decide +kernel

theorem witness_DecodeEncode : (Instr.iadd 0 2 0 1).isWord = true ∧ (Instr.iadd 0 2 0 1).wellFormed = true := by decide

/-- At a level, in a handler or not. -/
def atTl (s : State) (n : Nat) (h : Bool) : State := s.mapSelf fun a => { a with tl := n, cur := { a.cur with handler := h } }

/-- At TL 0, at TL 1 in the handler, and with an open version. -/
theorem witness_TrapDelivery : ([(base, base.ctx.tvec1), (atTl base 1 true, base.ctx.tvec2),
    (base.mapSelf fun a => { a with version := { a.version with open_ := true } }, base.ctx.tvec1)] : List (State × DWord)).all
    (fun e => e.1.self.run.isNone && (e.1.self.cur.handler || e.1.self.tl == 0) &&
      ((e.1.self.tl == 0 && e.2 == e.1.ctx.tvec1) || (e.1.self.tl == 1 && e.2 == e.1.ctx.tvec2)) && e.2 != 0) = true := by
  decide +kernel

/-- At TL 2, with each vector 0, and with the context killed already. -/
theorem witness_TrapKills : ([atTl base 2 true, { base with ctx := { base.ctx with tvec1 := 0 } },
    { atTl base 1 true with ctx := { base.ctx with tvec2 := 0 } }, { atTl base 2 true with ctx := { base.ctx with kill := true } }] :
    List State).all (fun s => s.self.run.isNone && (s.self.cur.handler || s.self.tl == 0) &&
      (s.self.tl == 2 || (s.self.tl == 0 && s.ctx.tvec1 == 0) || (s.self.tl == 1 && s.ctx.tvec2 == 0))) = true := by
  decide +kernel

/-- A run, and a path outside the handler of its group. -/
theorem witness_TrapInRun : (inRun base).self.run.isSome = true ∧
    (let s := atTl base 1 false; s.self.run = none ∧ s.self.tl ≠ 0 ∧ s.self.cur.handler = false) := by decide +kernel

/-- TRAP at TL 0; TRET and ERET in handlers of both levels. -/
theorem witness_TrapReturn :
    (base.issueCheck { issuer := .both } false (encode (.trap 0 5)) base.self.cur.lanes).isNone = true ∧
    base.uniform 0 = true ∧
    ([atTl base 1 true, atTl base 2 true] : List State).all (fun s => s.uniform 0 && s.self.cur.lanes != 0 &&
      (s.issueCheck { issuer := .both, run := .never, tlOk := fun n => n != 0 } false (encode (.tret 0)) s.self.cur.lanes).isNone &&
      (s.issueCheck (fsNeeds 1 fun n => n != 0) false (encode .eret) s.self.cur.lanes).isNone &&
      nextIs (exec (.tret 0) s) (fun _ => true) && nextIs (exec .eret s) fun _ => true) = true := by decide +kernel

/-- Three HIMM words before an immediate. -/
theorem witness_ImmediateValues :
    nextIs (exec (.himm 0xFF) base) (fun s1 => base.self.cur.pfx == Pfx.empty &&
      nextIs (exec (.himm 0xFFFFFF) s1) fun s2 => nextIs (exec (.himm 0xFFFFFF) s2) fun s3 => s3.self.cur.pfx.himm) = true := by
  decide +kernel

/-- A row, an o register and a latch, outside a run and in one. -/
theorem witness_DestinationValues : ([(base, 2), (base, 0x61), (base, 0x70), (inRun base, 2), (inRun base, 0x73)] :
    List (State × BitVec 7)).all (fun e => (decide (e.2.toNat < 0x40) || (decide (0x60 ≤ e.2.toNat) && decide (e.2.toNat < 0x74))) &&
      (decide (0x40 ≤ e.2.toNat) || decide (e.2.toNat + e.1.self.regs.ix < e.1.self.regs.v.length))) = true := by decide +kernel

/-- Queue register q1 attached to a stream of words at a page of the small machine. -/
def streamed (store : Bool) (next : Nat) (ahead : List Fetched) : State :=
  bound.mapRegs fun r => { r with q := r.q.setIfInBounds 1 ⟨true, 0x40000, 4, 128, store, true, 2, next, ahead⟩ }

/-- q1 with an entry fetched ahead. -/
theorem witness_QueuePops : let s := streamed false 1 [.data (List.replicate 32 ⟨0, 0, 0x12, 0⟩)]
    (let q := s.self.regs.qAt 1;
      q.attached = true ∧ q.store = false ∧ q.next < q.count ∧ s.self.whole = true ∧
      q.ahead = [.data (List.replicate 32 ⟨0, 0, 0x12, 0⟩)] ∧ s.entryQueued q q.next = false) ∧ (List.replicate 32 (0 : Nat)).length = 32 ∧
    ∀ x ∈ ([2, 0x40] : List (BitVec 7)), isQ x = false := by decide +kernel

/-- q1 unattached, at its end, and of the other direction, as a source and as a destination. -/
theorem witness_QueueMisuse : ([base, streamed false 4 [], streamed true 1 []] : List State).all (fun s =>
      let q := s.self.regs.qAt 1
      clear (s.vecChecks (.mov 0 2 0x75) {} (s.part 0) false 2 0x75 .none) &&
      (!q.attached || decide (q.count ≤ q.next) || q.store)) = true ∧
    ([base, streamed true 4 [], streamed false 1 []] : List State).all (fun s =>
      let q := s.self.regs.qAt 1
      clear (s.vecChecks (.mov 0 0x75 0) {} (s.part 0) false 0x75 0 .none) &&
      (!q.attached || decide (q.count ≤ q.next) || !q.store)) = true := by decide +kernel

/-- q1 attached to a store stream of words, whose next entry finds its place. -/
theorem witness_QueuePush : let s := streamed true 1 []
    let q := s.self.regs.qAt 1
    q.attached = true ∧ q.store = true ∧ q.wide = true ∧ q.next < q.count ∧ s.self.whole = true ∧ s.self.run = none ∧
    s.self.version.open_ = false ∧ s.self.replay = [] ∧ (s.entryLanes q .write q.next 4 (s.part 0)).2.all LaneAcc.isOk = true ∧
    (s.entryLanes q .write q.next 4 (s.part 0)).2.length = 32 := by decide +kernel

theorem witness_VectorFrames : vecForm (.iadd 0 2 0 1) = some (0, 2, 0, .spec 1) ∧ isQ 2 = false ∧ isQ 0 = false ∧
    ∀ x ∈ (BSrc.spec 1).specs, isQ x = false := by decide

theorem witness_PredicateFrames : predForm (.icmp 0 2 1 0 1) = some (0, 1, 0, .spec 1) ∧ isQ 0 = false ∧
    ∀ x ∈ (BSrc.spec 1).specs, isQ x = false := by decide

/-- A false guard. -/
theorem witness_NoLanes : vecForm (.iadd 2 2 0 1) = some (2, 2, 0, .spec 1) ∧ base.part 2 = 0 ∧
    nextIs (exec (.iadd 2 2 0 1) base) (fun _ => true) = true ∧ base.self.run = none := by decide +kernel

/-- A row of the small machine takes any value. -/
theorem row_takes (x y z w : Word) (m : Mask) (v : Lanes) : ∃ t, (small x y z).writeDest 2 w m v = .done t := ⟨_, rfl⟩

/-- An instruction that writes v2 passes its checks, pops its sources and writes its destination (`row_takes`). -/
def vecMeets (h : Option Hmod) (e : Instr × Needs × Bool × BSrc) : Bool :=
  let s := small 0x3F800000 3 5
  let s := (h.map (hinted s)).getD s
  clear (s.vecChecks e.1 e.2.1 (s.part 0) e.2.2.1 2 0 e.2.2.2) && (s.pops e.1 (s.part 0) (0 :: e.2.2.2.specs)).isOk &&
  s.self.run.isNone

/-- A vector instruction whose decode check fails: its destination lies beyond the group's rows. -/
def vecTraps (e : Instr × Needs × Bool × BSrc) (d : BitVec 7) : Bool :=
  !clear (base.vecChecks e.1 e.2.1 (base.part 0) e.2.2.1 d 0 e.2.2.2)

/-- A D beyond the rows, one that is a queue register, and a source beyond the rows of an instruction that writes a predicate. -/
theorem witness_LaneChecks : vecTraps (.iadd 0 0x3F 0 1, {}, false, .spec 1) 0x5F = true ∧
    vecTraps (.dp4 0 0x74 0 1, { hmod := { tv := [1, 2, 3], uns := true } }, true, .spec 1) 0x74 = true ∧
    clear (base.predChecks (.icmp 0 5 1 0x7F 1) { hmod := { uns := true } } (base.part 0) 0x7F (.spec 1)) = false := by decide +kernel

theorem witness_IntegerArithmetic : ([(.iadd 0 2 0 1, {}, false, .spec 1), (.isub 0 2 0 1, {}, false, .spec 1),
    (.iadds 0 2 0 1, { hmod := { uns := true } }, false, .spec 1), (.isubs 0 2 0 1, { hmod := { uns := true } }, false, .spec 1),
    (.imul 0 2 0 1, {}, false, .spec 1), (.imulh 0 2 0 1, { hmod := { uns := true } }, false, .spec 1),
    (.imad 0 2 0 1, {}, true, .spec 1), (.imin 0 2 0 1, { hmod := { uns := true } }, false, .spec 1),
    (.imax 0 2 0 1, { hmod := { uns := true } }, false, .spec 1), (.iaddi 0 2 0 5, {}, false, .imm 5),
    (.imuli 0 2 0 5, {}, false, .imm 5)] : List (Instr × Needs × Bool × BSrc)).all (vecMeets none) = true ∧
    vecTraps (.iadd 0 0x3F 0 1, {}, false, .spec 1) 0x5F = true := by decide +kernel

theorem witness_IntegerBits : ([(.and 0 2 0 1, {}, false, .spec 1), (.or 0 2 0 1, {}, false, .spec 1),
    (.xor 0 2 0 1, {}, false, .spec 1), (.andn 0 2 0 1, {}, false, .spec 1), (.shl 0 2 0 1, {}, false, .spec 1),
    (.shr 0 2 0 1, {}, false, .spec 1), (.sar 0 2 0 1, {}, false, .spec 1), (.rotl 0 2 0 1, {}, false, .spec 1),
    (.bfe 0 2 0 1, { hmod := { uns := true } }, false, .spec 1), (.bfi 0 2 0 1, {}, true, .spec 1), (.popc 0 2 0, {}, false, .none),
    (.clz 0 2 0, {}, false, .none), (.brev 0 2 0, {}, false, .none), (.iabs 0 2 0, { hmod := { sat := true } }, false, .none),
    (.mov 0 2 0, {}, false, .none), (.andi 0 2 0 5, {}, false, .imm 5), (.ori 0 2 0 5, {}, false, .imm 5),
    (.xori 0 2 0 5, {}, false, .imm 5), (.shli 0 2 0 5, {}, false, .imm 5), (.shri 0 2 0 5, {}, false, .imm 5),
    (.sari 0 2 0 5, {}, false, .imm 5), (.sel 0 2 0 1, {}, false, .spec 1)] : List (Instr × Needs × Bool × BSrc)).all
      (vecMeets none) = true ∧
    clear (base.vecChecks (.movi 0 2 5) {} (base.part 0) false 2 0x78 (.imm 5)) = true := by decide +kernel

/-- A divisor of 3, and one of 0. -/
theorem witness_IntegerDivision : ([small 7 3 0, small 7 0 0] : List State).all (fun s =>
      ([.idiv 0 2 0 1, .irem 0 2 0 1] : List Instr).all fun i =>
        clear (s.vecChecks i { hmod := { uns := true } } (s.part 0) false 2 0 (.spec 1)) && (s.pops i (s.part 0) [0, 1]).isOk) =
      true ∧
    (Mask.ofTest fun n => ((small 7 3 0).part 0).has n && ((small 7 3 0).readV [] 1).at n == 0) = 0 ∧
    (Mask.ofTest fun n => ((small 7 0 0).part 0).has n && ((small 7 0 0).readV [] 1).at n == 0) ≠ 0 := by decide +kernel

theorem witness_DotProducts : ([(.dp4 0 2 0 1, { hmod := { tv := [1, 2, 3], uns := true } }, true, .spec 1),
    (.dp4s 0 2 0 1, { hmod := { tv := [1, 2, 3], uns := true } }, true, .spec 1),
    (.dp2 0 2 0 1, { hmod := { tv := [1, 2, 3], uns := true } }, true, .spec 1),
    (.dp2s 0 2 0 1, { hmod := { tv := [1, 2, 3], uns := true } }, true, .spec 1)] : List (Instr × Needs × Bool × BSrc)).all
    (vecMeets none) = true := by decide +kernel

/-- A comparison passes its checks and pops its sources. -/
def predMeets (e : Instr × HmodUse × BSrc) : Bool :=
  let s := small 0x3F800000 3 5
  clear (s.predChecks e.1 { hmod := e.2.1 } (s.part 0) 0 e.2.2) && (s.pops e.1 (s.part 0) (0 :: e.2.2.specs)).isOk

/-- Each comparison at the last of its conditions. -/
theorem witness_Comparisons : ([(.icmp 0 5 1 0 1, { uns := true }, .spec 1), (.icmpi 0 5 1 0 7, { uns := true }, .imm 7),
    (.fcmp 0 11 1 0 1, {}, .spec 1), (.fclass 0 1 0 1, {}, .spec 1)] : List (Instr × HmodUse × BSrc)).all predMeets = true := by
  decide +kernel

theorem witness_ShuffleAndVote : ([(.shfl 0 2 0 1, { hmod := { tv := [1, 2, 3] } }, false, .spec 1),
    (.ballot 0 2 0, {}, false, .none)] : List (Instr × Needs × Bool × BSrc)).all (vecMeets none) = true ∧
    predMeets (.vote 0 2 1 0, {}, .none) = true := by decide +kernel

/-- What rounding and saturation an instruction takes. -/
def rounds : Needs := { hmod := { rnd := true, sat := true } }

theorem witness_FloatArithmetic : ([(.fadd 0 2 0 1, rounds, false, .spec 1), (.fsub 0 2 0 1, rounds, false, .spec 1),
    (.fmul 0 2 0 1, rounds, false, .spec 1), (.fdiv 0 2 0 1, rounds, false, .spec 1), (.ffma 0 2 0 1, rounds, true, .spec 1),
    (.ffms 0 2 0 1, rounds, true, .spec 1), (.fscale 0 2 0 1, rounds, false, .spec 1)] : List (Instr × Needs × Bool × BSrc)).all
      (vecMeets (some ⟨0, 0, 1, 1, 0, 0, 0⟩)) = true ∧
    ([(.faddx 0 2 0 1, {}, false, .spec 1), (.fmulx 0 2 0 1, {}, false, .spec 1)] : List (Instr × Needs × Bool × BSrc)).all
      (vecMeets none) = true := by decide +kernel

theorem witness_FloatSelection : ([(.fabs 0 2 0, {}, false, .none), (.fneg 0 2 0, {}, false, .none),
    (.fmin 0 2 0 1, { hmod := { tv := [1] } }, false, .spec 1), (.fmax 0 2 0 1, { hmod := { tv := [1] } }, false, .spec 1)] :
    List (Instr × Needs × Bool × BSrc)).all (vecMeets none) = true := by decide +kernel

theorem witness_FloatConversions : ([(.fsfu 0 2 0 2, rounds, false, .none),
    (.fcvt 0 2 0 1, { hmod := fcvtUse 1, feat := 0 }, fcvtReadsD 1, .none),
    (.fcvt 0 2 0 0x44, { hmod := fcvtUse 0x44, feat := 1 }, fcvtReadsD 0x44, .none),
    (.frnd 0 2 0 1, { hmod := { rnd := true } }, false, .none),
    (.hadd2 0 2 0 1, { hmod := { rnd := true, sat := true, tv := [1] } }, false, .spec 1),
    (.hmul2 0 2 0 1, { hmod := { rnd := true, sat := true, tv := [1] } }, false, .spec 1),
    (.hfma2 0 2 0 1, { hmod := { rnd := true, sat := true, tv := [1] } }, true, .spec 1),
    (.hdot2 0 2 0 1, { hmod := { rnd := true, sat := true, tv := [1] } }, true, .spec 1)] :
    List (Instr × Needs × Bool × BSrc)).all (vecMeets none) = true := by decide +kernel

/-- Words of every class, as a conversion takes them. -/
theorem witness_ConvertedValues : (0x7F800000 < 0x7FC00000 % 2 ^ 31 ∧ 0xFF800000 % 2 ^ 31 = 0x7F800000 ∧ 0x80000000 % 2 ^ 31 = 0 ∧
      0 < 0x3E99999A % 2 ^ 31 ∧ 0x3E99999A % 2 ^ 31 < 0x7F800000) ∧
    (0x3C00 % 0x8000 < (2 ^ fp16.e - 1) * 2 ^ fp16.t ∧ 0x7C00 % 0x8000 = (2 ^ fp16.e - 1) * 2 ^ fp16.t ∧
      (2 ^ bf16.e - 1) * 2 ^ bf16.t < 0xFFC0 % 0x8000) ∧ (0x80000000 : Word).toInt ≠ 0 := by decide

/-- Codes of a format with infinities: one that is a number, one that is an infinity, and the NaN. -/
theorem witness_ConvertedBytes :
    let b : BitVec 7 := 0x6C
    0x40 ≤ b.toNat ∧ 1 ≤ b.toNat % 8 ∧ b.getLsbD 5 = true ∧ b.getLsbD 3 = true ∧ (0x44 : BitVec 7).getLsbD 5 = false ∧
    (0x3F ≠ 0x80 ∧ ∀ n : Bool, 0x3F ≠ if n then 0xFF else 0x7F) ∧ (0x7F ≠ 0x80 ∧ 0x7F = if false then 0xFF else 0x7F) := by decide

/-- Halves of each class for HDOT2. -/
theorem witness_IntegralAndDot :
    let top := (2 ^ fp16.e - 1) * 2 ^ fp16.t
    top = 0x7C00 ∧ ([0x3C00, 0x7E00, 0x3C00, 0x3C00].find? fun h => decide (top < h % 0x8000)) = some 0x7E00 ∧
    ([0x3C00, 0x7C00, 0x3C00, 0x0000].find? fun h => decide (top < h % 0x8000)) = none ∧ 0x7C00 % 0x8000 = top := by decide

/-- A negative number, an integer, a power of two, and an integer and a half. -/
theorem witness_SpecialCases : (fp32.unpack 0xC0400000).value = ((-3 : Int) : ℚ) ∧ (fp32.unpack 0x3E800000).value = (2 : ℚ) ^ (-2 : Int) ∧
    (fp32.unpack 0x3FC00000).value = ((1 : Int) : ℚ) + 1 / 2 := by
  have h1 : fp32.unpack 0xC0400000 = .fin true 0xC00000 (-22) := by decide
  have h2 : fp32.unpack 0x3E800000 = .fin false 0x800000 (-25) := by decide
  have h3 : fp32.unpack 0x3FC00000 = .fin false 0xC00000 (-23) := by decide
  rw [h1, h2, h3]
  refine ⟨?_, ?_, ?_⟩ <;> norm_num [Machine.Num.value]

/-- 1.5 in each format. -/
theorem witness_RoundingKeepsRepresentable :
    (0x3FC00000 < 2 ^ (fp32.e + fp32.t + 1) ∧ fp32.unpack 0x3FC00000 = .fin false 0xC00000 (-23)) ∧
    (0x3E00 < 2 ^ (fp16.e + fp16.t + 1) ∧ fp16.unpack 0x3E00 = .fin false 0x600 (-10)) ∧
    (0x3FC0 < 2 ^ (bf16.e + bf16.t + 1) ∧ bf16.unpack 0x3FC0 = .fin false 0xC0 (-7)) := by decide +kernel

/-- 1, and -1 with which its sum is 0. -/
theorem witness_RoundedOnce : fp32.unpack 0x3F800000 = .fin false 0x800000 (-23) ∧ fp32.unpack 0xBF800000 = .fin true 0x800000 (-23) ∧
    (fp32.unpack 0x3F800000).value = 1 ∧ (fp32.unpack 0xBF800000).value = -1 := by
  have h : fp32.unpack 0x3F800000 = .fin false 0x800000 (-23) := by decide +kernel
  have k : fp32.unpack 0xBF800000 = .fin true 0x800000 (-23) := by decide +kernel
  refine ⟨h, k, ?_, ?_⟩
  · rw [h]; norm_num [Num.value]
  · rw [k]; norm_num [Num.value]

/-- 1 + 1, which is exact; the square of 1 + 2^-23, which is not; a NaN; an infinity. -/
theorem witness_ErrorTerms : fp32.unpack 0x3F800000 = .fin false 0x800000 (-23) ∧
    fp32.unpack (fp32.add .rne false false 0x3F800000 0x3F800000).1 = .fin false 0x800000 (-22) ∧
    (fp32.unpack 0x3F800001).value * (fp32.unpack 0x3F800001).value ≠
      (fp32.unpack (fp32.mul .rne false 0x3F800001 0x3F800001).1).value ∧
    0x7F800000 < 0x7FC00000 % 2 ^ 31 ∧ fp32.unpack 0x7F800000 = .inf false := by
  have h : fp32.unpack 0x3F800001 = .fin false 0x800001 (-23) := by decide +kernel
  have k : fp32.unpack (fp32.mul .rne false 0x3F800001 0x3F800001).1 = .fin false 0x800002 (-23) := by decide +kernel
  refine ⟨by decide +kernel, by decide +kernel, ?_, by decide, by decide +kernel⟩
  rw [h, k]; norm_num [Num.value]

/-- A NaN first, second and third. -/
theorem witness_FloatNaNs : 0x7F800000 < 0x7F800001 % 2 ^ 31 ∧ ¬ 0x7F800000 < 0x3F800000 % 2 ^ 31 := by decide

theorem witness_IntegerReductions : ([(.redl 0 2 0 7, {}, false, .none), (.scanl 0 2 0 7, {}, false, .none)] :
    List (Instr × Needs × Bool × BSrc)).all (vecMeets none) = true ∧ 1 ≤ (small 0 0 0).self.regs.tile.toNat ∧
    (small 0 0 0).self.regs.tile.toNat ≤ 5 ∧ vecTraps (.redl 0 0x5F 0 7, {}, false, .none) 0x5F = true := by decide +kernel

theorem witness_FloatReductions : ([(.fredl 0 2 0 0, { hmod := { rnd := true } }, false, .none),
    (.fscanl 0 2 0 2, { hmod := { rnd := false } }, false, .none)] : List (Instr × Needs × Bool × BSrc)).all (vecMeets none) = true := by
  decide +kernel

/-- Two neighbours without a NaN, and a NaN in the upper of two. -/
theorem witness_ReductionTree :
    let c := combFloat 0 .rne false
    let one := Lanes.const 0x3F800000
    let nan : Lanes := Lanes.tab fun n => if n = 1 then 0x7FC00000 else 0
    (treeOf c (floatLeaf Mask.all one) 0 0).map FPart.nan = some none ∧ (treeOf c (floatLeaf Mask.all one) 0 1).map FPart.nan = some none ∧
    (treeOf c (floatLeaf Mask.all nan) 1 0).map FPart.nan = some (some 1) ∧ (treeOf c (floatLeaf 0 one) 1 0).isNone = true := by
  decide +kernel

/-- PART at 5 and at 6, IXSET at 255 and 256, PLOP, V2S. -/
theorem witness_GroupState : ([small 0 5 0, small 0 6 0] : List State).all (fun s => !isQ 1 && s.uniform 0 &&
      clear [s.issueCheck {} false (encode (.part 0 1)) s.self.cur.lanes, operandIf (s.badSource 1) (encode (.part 0 1)) 2 s.self.cur.lanes,
        s.bounds 1 1 s.self.cur.lanes] &&
      (s.issueCheck {} false (encode (.ixset 0 9)) s.self.cur.lanes).isNone &&
      (s.issueCheck {} false (encode (.plop 0 3 1 0 1)) (s.part 0)).isNone && (s.part 0) != 0 &&
      clear [s.issueCheck { hmod := { uns := true } } false (encode (.v2s 0 0x54 1)) (s.part 0),
        operandIf (!isS 0x54) (encode (.v2s 0 0x54 1)) 0 (s.part 0), operandIf (s.badSource 1) (encode (.v2s 0 0x54 1)) 1 (s.part 0),
        s.bounds 1 1 (s.part 0)]) = true := by decide +kernel

/-- With a store in the replay queue. -/
def holding (s : State) : State := s.mapSelf fun a => { a with replay := [⟨0, Pfx.empty, false, false, 0, [], []⟩] }

/-- The four forms of PMOV, each with and without a held store, and the last without a lane. -/
theorem witness_PredicateMoves : (holding base).self.replay ≠ [] ∧
    (let s := hinted base ⟨0, 0, 0, 0, 0, 3, 0⟩;
      (s.issueCheck { hmod := { tv := [1, 2, 3] } } false (encode (.pmov 2 0x78 0 0x78)) (s.part 2)).isNone = true ∧
      s.part 2 = 0 ∧ s.badSource 0 = false ∧ s.bounds 0 1 (s.part 2) = none) ∧
    ([0, 1, 2, 3] : List (BitVec 3)).all (fun e => ([(base, true), (holding base, false)] : List (State × Bool)).all fun b =>
      let s := hinted b.1 ⟨0, 0, 0, 0, 0, e, 0⟩
      let get := e == 0 || e == 2
      let i : Instr := if get then .pmov 0 2 0x78 0x78 else .pmov 0 0x78 0 0x78
      (s.issueCheck { hmod := { tv := [1, 2, 3] } } false (encode i) (s.part 0)).isNone &&
      (if get then !s.badDest false 2 && (s.bounds 2 1 (s.part 0)).isNone else !s.badSource 0 && (s.bounds 0 1 (s.part 0)).isNone) &&
      (s.self.replay == []) == b.2 && s.part 0 != 0) = true := by decide +kernel

/-- A scalar instruction on s20 and s21 to s22 passes its checks; one to v0 does not. -/
theorem witness_ScalarArithmetic : ([(.sadd 0 0x56 0x54 0x55, {}, .spec 0x55), (.ssub 0 0x56 0x54 0x55, {}, .spec 0x55),
    (.smul 0 0x56 0x54 0x55, {}, .spec 0x55), (.smulh 0 0x56 0x54 0x55, { uns := true }, .spec 0x55),
    (.sand 0 0x56 0x54 0x55, {}, .spec 0x55), (.sor 0 0x56 0x54 0x55, {}, .spec 0x55), (.sxor 0 0x56 0x54 0x55, {}, .spec 0x55),
    (.sshl 0 0x56 0x54 0x55, {}, .spec 0x55), (.sshr 0 0x56 0x54 0x55, {}, .spec 0x55), (.ssar 0 0x56 0x54 0x55, {}, .spec 0x55),
    (.smov 0 0x56 0x54, {}, .none), (.saddi 0 0x56 0x54 5, {}, .imm 5), (.smin 0 0x56 0x54 0x55, { uns := true }, .spec 0x55),
    (.smax 0 0x56 0x54 0x55, { uns := true }, .spec 0x55)] : List (Instr × HmodUse × SSrc)).all (fun e =>
      clear (base.scalarChecks e.1 e.2.1 0x56 0x54 e.2.2)) = true ∧
    clear (base.scalarChecks (.smovi 0 0x56 5) {} 0x56 0x78 (.imm 5)) = true ∧
    clear (base.scalarChecks (.sadd 0 2 0x54 0x55) {} 2 0x54 (.spec 0x55)) = false := by decide +kernel

/-- SCMP with a true guard, with a false one, and with a source that is no s register. -/
theorem witness_ScalarCompare :
    let checks (g : BitVec 3) (a : BitVec 7) := [base.issueCheck { hmod := { uns := true }, issuer := .both } false
        (encode (.scmp g 5 1 a 0x55)) base.self.cur.lanes, operandIf (base.badScalar a) (encode (.scmp g 5 1 a 0x55)) 1 base.self.cur.lanes,
      operandIf (base.badScalar 0x55) (encode (.scmp g 5 1 a 0x55)) 2 base.self.cur.lanes]
    (clear (checks 0 0x54) = true ∧ base.uniform 0 = true) ∧ (clear (checks 2 0x54) = true ∧ base.uniform 2 = false) ∧
    clear (checks 0 2) = false := by decide +kernel
theorem base_form : base.MemoryForm := by unfold State.MemoryForm; decide +kernel

/-- The lanes of the whole split. -/
def all (s : State) : Mask := s.self.cur.lanes

/-- s20 and s21 written. -/
def with2 (s : State) (x y : DWord) : State := (s.putS 20 x).putS 21 y

/-- A scalar access of v0 and s20 + s21 reaches the place that is asked for: past VA[55:0], misaligned, or in memory. -/
def scalarAt (ld : Bool) (x : DWord) (place : Nat) : Bool :=
  let s := with2 base x 8
  let i : Instr := if ld then .sld 0 0x56 0x54 0x55 else .sst 0 0x56 0x54 0x55
  let va := (s.readS 0x54 + s.readS 0x55).toNat
  let n := 2 ^ (3 - s.hmod.tv.toNat)
  (s.issueCheck { hmod := { tv := [1, 2, 3], uns := ld }, issuer := .both } false (encode i) (all s)).isNone &&
  (if ld then isS 0x56 else !s.badScalar 0x56) && !s.badScalar 0x54 && !s.badScalar 0x55 && s.uniform 0 &&
  !s.self.queuedPage [va] && s.self.run.isNone && !s.self.version.active &&
  (if place = 0 then decide (2 ^ 56 ≤ va) else if place = 1 then decide (va < 2 ^ 56) && va % n != 0
    else decide (va < 2 ^ 56) && va % n == 0 && (match (s.laneAt ⟨if ld then .read else .write, ld, false, false, n, 1, 0⟩ va).2 with
      | .ok _ _ _ => true
      | _ => false))

theorem witness_ScalarMemory : [true, false].all (fun ld =>
    scalarAt ld 0x100000000000000 0 && scalarAt ld 0x40001 1 && scalarAt ld 0x40000 2) = true := by decide +kernel

/-- BASE not acknowledged. -/
def plain (s : State) : State := { s with ctx := { s.ctx with feat := 0 } }

/-- A prefix of seven words, and a shorter one, with BASE acknowledged and without. -/
theorem witness_HintWords : 7 ≤ (base.mapCur fun p => { p with pfx := { p.pfx with count := 7 } }).self.cur.pfx.count ∧
    base.self.cur.pfx.count < 7 ∧ base.ctx.feat.getLsbD 0 = true ∧ (plain base).ctx.feat.getLsbD 0 = false := by decide +kernel

/-- The accumulator of HIMM. -/
def himm (s : State) (v : DWord) : State := s.mapCur fun p => { p with pfx := { p.pfx with acc := v, himm := true, count := 1 } }

/-- NOP, HFUNC, YIELD at 255 and 256, FEATQ at 0 to 4. -/
theorem witness_SmallInstructions :
    (base.issueCheck { issuer := .both } false (encode (.nop 0)) (all base)).isNone = true ∧ base.self.cur.pfx.count = 0 ∧
    base.ctx.feat.getLsbD 0 = true ∧ (plain base).self.cur.pfx.count = 0 ∧ (plain base).ctx.feat.getLsbD 0 = false ∧
    ([(base, 0, 0), (base, 0xFF, 0xFFFFFFFF), (himm base 0, 0xFF, 255), (himm base 1, 0, 256)] : List (State × BitVec 8 × Nat)).all (fun e =>
      (e.1.issueCheck { run := .never } false (encode (.yield 0 e.2.1)) (all e.1)).isNone && e.1.uniform 0 &&
      (e.1.imm e.2.1 32).toNat == e.2.2) = true ∧
    ([0, 1, 2, 3, 4] : List (BitVec 8)).all (fun k =>
      (base.issueCheck { issuer := .both } false (encode (.featq 0 0x56 k)) (all base)).isNone && isS 0x56 &&
      (base.imm k 32).toNat == k.toNat) = true := by decide +kernel

/-- Half of the lanes have predicate 1. -/
def half (s : State) : State := s.mapRegs fun r => { r with p := r.p.setIfInBounds 1 0xFFFF }

/-- BR, CALL, RET, EXIT and JMPI of half the lanes. -/
theorem witness_ControlTransfers : let s := half (small 0x100100 0 0)
    s.self.run = none ∧ s.self.park = [] ∧ s.self.cur.stack.length < 8 ∧ s.part 1 = 0xFFFF ∧
    ([.br 1 0x3FFFFE, .call 1 5, .ret 1, .exit 1, .jmpi 1 0] : List Instr).all (fun i =>
      (s.issueCheck { issuer := .both, run := .last } false (encode i) (s.part 1)).isNone && nextIs (exec i s) fun _ => true) = true ∧
    isQ 0 = false ∧ s.badSource 0 = false ∧ s.bounds 0 1 (s.part 1) = none ∧
    (List.range 32).all (fun n => (BitVec.ofNat 64 (s.self.cur.pc.toNat / 2 ^ 32 % 2 ^ 24 * 2 ^ 32 +
      ((s.readV [] 0).at n).toNat)).toNat % 4 == 0) = true := by decide +kernel

/-- A return stack of eight, and a target at 0x102004 with an HFUNC before it. -/
def callable (deep : Bool) (w : Word) (v : Word) : State :=
  let s := (small v 0 0).putBytes 0x102000 (leBytes 4 w.toNat)
  if deep then s.mapCur fun p => { p with stack := List.replicate 8 0x100000 } else s

/-- What a fetch of an HFUNC at an address gives: one, another word (1), an XLATE (2). -/
def fetched (s : State) (a : Nat) : Nat :=
  match s.fetchAt a (s.part 0) with
  | .word _ w => match decode w with
    | .ok (.hfunc _) => 0
    | _ => 1
  | .stop (.trap _ x) => if x.cause = .xlate then 2 else 3
  | _ => 3

/-- A call of every lane: from a full and an empty stack, to a target of 0 (a whole group's rows) and 24 (more than its rows),
and to an address that is no word's. -/
theorem witness_CallsAndTargets : ([callable false (encode (.hfunc 0)) 0x102004, callable true (encode (.hfunc 0)) 0x102004,
      callable false (encode (.hfunc 31)) 0x102004, callable false 0 0x102006] : List State).all (fun s =>
      s.self.run.isNone && s.part 0 == s.self.cur.mask && s.part 0 != 0 &&
      ([.br 0 5, .call 0 5, .calli 0 0] : List Instr).all (fun i =>
        (s.issueCheck { issuer := .both, run := .last } false (encode i) (s.part 0)).isNone) &&
      !isQ 0 && !s.badSource 0 && (s.bounds 0 1 (s.part 0)).isNone &&
      (let tg := s.absTarget ((s.readV [] 0).at 0);
        (List.range 32).all (fun n => s.absTarget ((s.readV [] 0).at n) == tg) &&
        (tg.toNat % 4 != 0 || (match s.fetchAt (tg - 4).toNat (s.part 0) with
          | .word _ w => (match decode w with
            | .ok (.hfunc b) => decide (8 * (b.toNat + 1) ≤ s.self.regs.v.length) == (b == 0)
            | _ => false)
          | _ => false)))) = true ∧
    fetched (callable false (encode (.nop 0)) 0x102004) 0x102000 = 1 ∧
    fetched (atTl (callable false 0 0x7FFF0004) 1 true) 0x7FFF0000 = 2 := by decide +kernel

/-- The lanes of an access through a2 find their places. -/
def placedOk (s : State) (sh : AccShape) (w : Word) (x : BitVec 7) (m : Mask) : Bool :=
  !isQ x && ((s.treg 2).preCheck sh.width (offsets m (s.readV [] x)) w m).isNone &&
  !s.self.queuedPage ((offsets m (s.readV [] x)).map fun c => (s.treg 2).addr c.2) &&
  (s.places sh 2 x m).2.all LaneAcc.isOk && (s.places sh 2 x m).2.length == 32

theorem placed_of {s : State} {sh : AccShape} {w : Word} {x : BitVec 7} {m : Mask} (h : placedOk s sh w x m = true) :
    s.Placed sh w 2 x m (s.places sh 2 x m).1 (s.places sh 2 x m).2 := by
  simp only [placedOk, Bool.and_eq_true, Bool.not_eq_true', List.all_eq_true, Option.isNone_iff_eq_none] at h
  exact ⟨h.1.1.1.1, h.1.1.1.2, h.1.1.2, rfl, h.1.2⟩

/-- v1 holds the offset 16 of the page that a2 is bound to. -/
def pageAt (off : Word) : State := withRow bound 1 off

/-- Every width of a load, by its rows and bytes. -/
theorem witness_Loads : ([(0, 1, 1), (1, 1, 1), (2, 1, 2), (3, 1, 4), (4, 2, 8), (5, 4, 16), (6, 1, 1), (7, 1, 2)] :
    List (BitVec 3 × Nat × Nat)).all (fun e =>
      let s := pageAt 16
      let i : Instr := .ld 0 2 2 1 e.1 0
      clear [s.issueCheck { hmod := { rnd := e.1 == 0, tv := [7] } } false (encode i) (s.part 0),
        operandIf (s.badLoadDest e.1 2) (encode i) 0 (s.part 0), operandIf (s.badSource 1) (encode i) 3 (s.part 0),
        s.bounds 2 e.2.1 (s.part 0), s.bounds 1 1 (s.part 0)] &&
      placedOk s ⟨.read, true, e.1 == 0, s.hmod.tv == 7, e.2.2, 1, 0⟩ (encode i) 1 (s.part 0) && s.self.run.isNone) = true := by
  decide +kernel

/-- Every width of a store. -/
theorem witness_Stores : ([(0, 1, 1), (1, 1, 1), (2, 1, 2), (3, 1, 4), (4, 2, 8), (5, 4, 16), (6, 1, 1), (7, 1, 2)] :
    List (BitVec 3 × Nat × Nat)).all (fun e =>
      let s := pageAt 16
      let i : Instr := .st 0 4 2 1 e.1 0
      clear [s.issueCheck { hmod := { rnd := e.1 == 0, sat := e.1 == 0, tv := [7] } } false (encode i) (s.part 0),
        operandIf (s.badStoreData e.1 4) (encode i) 0 (s.part 0), operandIf (s.badSource 1) (encode i) 3 (s.part 0),
        s.bounds 4 e.2.1 (s.part 0), s.bounds 1 1 (s.part 0)] &&
      placedOk s ⟨.write, false, e.1 == 0, s.hmod.tv == 7, e.2.2, 1, 0⟩ (encode i) 1 (s.part 0) && s.self.run.isNone &&
      !isQ 4 && !s.self.version.active) = true := by decide +kernel

/-- Every other lane at an address that no page of the small machine holds. -/
def missing : State := bound.mapRegs fun r => { r with v := r.v.set 1 (Lanes.tab fun n => if n % 2 = 0 then 16 else 0x7FFF0010) }

/-- Lanes that find their places beside lanes that miss, of a load and of a store. -/
theorem witness_MissedLanes : [true, false].all (fun ld =>
      let s := missing
      let i : Instr := if ld then .ld 0 2 2 1 3 0 else .st 0 2 2 1 3 0
      let sh : AccShape := ⟨if ld then .read else .write, ld, false, s.hmod.tv == 7, 4, 1, 0⟩
      clear [s.issueCheck { hmod := { tv := [7] } } false (encode i) (s.part 0),
        operandIf (if ld then s.badLoadDest 3 2 else s.badStoreData 3 2) (encode i) 0 (s.part 0),
        operandIf (s.badSource 1) (encode i) 3 (s.part 0), s.bounds 2 1 (s.part 0), s.bounds 1 1 (s.part 0)] &&
      !isQ 1 && !isQ 2 && ((s.treg 2).preCheck 4 (offsets (s.part 0) (s.readV [] 1)) (encode i) (s.part 0)).isNone &&
      !s.self.queuedPage ((offsets (s.part 0) (s.readV [] 1)).map fun p => (s.treg 2).addr p.2) &&
      (s.places sh 2 1 (s.part 0)).2.all (fun a => a.isOk || a.isMiss) && (s.places sh 2 1 (s.part 0)).2.any LaneAcc.isMiss &&
      (s.places sh 2 1 (s.part 0)).2.any LaneAcc.isOk && s.self.run.isNone && !s.self.version.active &&
      decide (s.self.replay.length < 16)) = true := by decide +kernel

/-- Offsets of every lane within the scratchpad of gang 0. -/
def scrOk (s : State) (reads : Bool) (width : Nat) (x : BitVec 7) (m : Mask) : Bool :=
  !isQ x && (match s.gang s.self.unit.gang with
    | some g => (List.range 32).all fun n => !m.has n || (decide (((s.readV [] x).at n).toNat < g.size) &&
        ((s.readV [] x).at n).toNat % width == 0 && (!reads || !g.pois.contains (((s.readV [] x).at n).toNat / 256)))
    | none => false)

/-- LDS, STS and MCST of a word at offset 16. -/
theorem witness_ScratchpadAccess : let s := small 0 16 0
    let ok (i : Instr) (bad : Bool) := clear [s.issueCheck {} false (encode i) (s.part 0), operandIf bad (encode i) 0 (s.part 0),
      operandIf (s.badSource 1) (encode i) 3 (s.part 0), s.bounds 2 1 (s.part 0), s.bounds 1 1 (s.part 0)]
    s.self.run = none ∧ ok (.lds 0 2 0 1 3 0) (s.badLoadDest 3 2) = true ∧ scrOk s true 4 1 (s.part 0) = true ∧
    ok (.sts 0 2 0 1 3 0) (s.badStoreData 3 2) = true ∧ scrOk s false 4 1 (s.part 0) = true ∧
    ok (.mcst 0 2 0 1 1) (s.badSource 2) = true ∧ (s.gang 0).isSome = true := by decide +kernel

/-- A release may complete. -/
def releases (s : State) (scope : Nat) : Bool := s.self.replay == [] && (decide (scope < 8) || !s.unaccepted s.selfKey)

theorem releases_iff (s : State) (scope : Nat) : releases s scope = true ↔ s.MayRelease scope := by
  unfold releases State.MayRelease
  by_cases h : scope < 8
  · simp [h]
  · simp [h, Nat.le_of_not_lt h]

/-- LDA and STL at each of their scopes, with and without a held store. -/
theorem witness_AcquireAndRelease : [true, false].all (fun ld => ([0, 7, 8, 9] : List (BitVec 4)).all fun c =>
      ([pageAt 16, holding (pageAt 16)] : List State).all fun s =>
      let i : Instr := if ld then .lda 0 2 2 1 c else .stl 0 2 2 1 c
      let s0 := if ld then s else s.released c.toNat
      clear [s.issueCheck { hmod := { tv := [7] }, run := .never } false (encode i) (s.part 0),
        operandIf (if ld then s.badDest false 2 else s.badSource 2) (encode i) 0 (s.part 0),
        operandIf (s.badSource 1) (encode i) 3 (s.part 0), s.bounds 2 1 (s.part 0), s.bounds 1 1 (s.part 0)] &&
      placedOk s0 ⟨if ld then .read else .write, ld, false, s.hmod.tv == 7, 4, 1, 0⟩ (encode i) 1 (s.part 0) && !isQ 2 &&
      !s.self.version.active && releases s c.toNat == (s.self.replay == [])) = true := by decide +kernel

/-- Every operation of ATOM, and of RED the same but exchanges. -/
theorem witness_Atomics : (List.range 14).all (fun o => [true, false].all fun ret => (!ret && (o == 9 || o == 10)) ||
      let s := pageAt 16
      let k : BitVec 4 := BitVec.ofNat 4 o
      let i : Instr := if ret then .atom 0 2 2 1 k 0 else .red 0 2 2 1 k 0
      clear [s.issueCheck { hmod := { tv := [7], order := if ret then [1, 2, 3] else [2], scope := true }, run := .never } false
          (encode i) (s.part 0),
        operandIf (if k = 10 then !isV 2 else !(isV 2 || isO 2)) (encode i) 0 (s.part 0),
        operandIf (s.badSource 1) (encode i) 3 (s.part 0), s.bounds 2 (if k = 10 then 2 else 1) (s.part 0), s.bounds 1 1 (s.part 0)] &&
      i.wellFormed && !s.ctx.det && !s.self.version.active && s.hmod.order == 0 &&
      placedOk s ⟨.write, true, false, s.hmod.tv == 7, 4, 1, 0⟩ (encode i) 1 (s.part 0)) = true := by decide +kernel

theorem witness_ScratchpadAtomics : [true, false].all (fun ret =>
      let s := small 0 16 0
      let i : Instr := if ret then .atom 0 2 0 1 0 1 else .red 0 2 0 1 0 1
      clear [s.issueCheck { hmod := { tv := [7], order := if ret then [1, 2, 3] else [2], scope := true }, run := .never } false
          (encode i) (s.part 0),
        operandIf (!(isV 2 || isO 2)) (encode i) 0 (s.part 0), operandIf (s.badSource 1) (encode i) 3 (s.part 0),
        s.bounds 2 1 (s.part 0), s.bounds 1 1 (s.part 0)] && s.hmod.order == 0 && scrOk s true 4 1 (s.part 0)) = true := by decide +kernel
/-- An FX, FE or FS instruction passes its decode checks. -/
def ready (s : State) (i : Instr) (n : Needs) : Bool := (s.issueCheck n false (encode i) (all s)).isNone && all s != 0

/-- A number written in the scratchpad of gang 0. -/
def scrPut (s : State) (off n v : Nat) : State := { s with crew := s.crew.putNum 0 off n v }

/-- s20 names an object of the scratchpad. -/
def named (s : State) (off : DWord) : State := s.putS 20 off

/-- A page of the small machine as the walk finds it. -/
def isLeaf (s : State) (va : Nat) : Bool :=
  match s.walk s.ctx va with
  | .leaf _ _ size => size == 2 ^ 16 || size == 2 ^ 21 || size == 2 ^ 30
  | _ => false

/-- The small machine with an object of 4 KiB at 0x40000, open in the context of the crew or not. -/
def withObject (opens : Nat) : State := { base with punty := ⟨[⟨98, ⟨2, 0⟩, none⟩, ⟨97, ⟨1, 0⟩, some 3⟩, ⟨96, ⟨1, 0⟩, none⟩],
  [⟨1, 0, ⟨1, 0⟩, 3, 0x40000, 0x1000, (if opens = 0 then [] else [(⟨1, 0⟩, opens)])⟩], []⟩ }

/-- ABIND of a pointer, of one beyond 56 bits, of an open handle, of one that is not open and of none, and without a lane;
PFX with and without a binding. -/
theorem witness_Binding :
    let ok (s : State) (g : BitVec 3) := (s.issueCheck {} false (encode (.abind g 2 0x54)) (s.part g)).isNone &&
      (s.issueCheck {} false (encode (.abindH g 2 0x54)) (s.part g)).isNone && isS 0x54
    (ok base 2 = true ∧ base.part 2 = 0) ∧
    (let s := named base 0x40000; ok s 0 = true ∧ s.part 0 ≠ 0 ∧ s.failedKey 0x40000 .read = false ∧ isLeaf s 0x40000 = true) ∧
    (ok (named base 0x100000000000000) 0 = true ∧ 2 ^ 56 ≤ ((named base 0x100000000000000).self.regs.sAt 20).toNat) ∧
    (let s := named (withObject 1) 1; ok s 0 = true ∧
      (match s.handleObj 1 with
        | some o => decide (0 < o.openOf s.ctx.id) && !s.failedKey o.base .read && isLeaf s o.base
        | none => false) = true) ∧
    (ok (named (withObject 0) 1) 0 = true ∧ (((withObject 0).handleObj 1).map fun o => o.openOf ⟨1, 0⟩) = some 0) ∧
    (ok (named base 1) 0 = true ∧ base.handleObj 1 = none) ∧
    ([base, pageAt 16] : List State).all (fun s => !isQ 1 && clear [s.issueCheck {} false (encode (.pfx 0 2 1 0 0)) (s.part 0),
      operandIf (s.badSource 1) (encode (.pfx 0 2 1 0 0)) 3 (s.part 0), s.bounds 1 1 (s.part 0)]) = true ∧
    (base.treg 2).valid = false ∧
    (let s := pageAt 16; (s.treg 2).valid = true ∧ (List.range 32).all (fun n =>
      decide (0 ≤ ((s.readV [] 1).at n).toInt) && decide (((s.readV [] 1).at n).toInt < (s.treg 2).hbound) &&
      decide (((s.treg 2).base : Int) + ((s.readV [] 1).at n).toInt < 2 ^ 56)) = true) := by decide +kernel

/-- Below LIMIT with and without permission, at LIMIT, and a write to a migrating page. -/
theorem witness_BoundTranslation :
    let a : Attr := { Attr.none with r := true, w := true }
    let t : TransReg := ⟨0x40000, 0x40000, 0x1000, a, true, 2 ^ 56⟩
    let m : TransReg := ⟨0x40000, 0x40000, 0x1000, { a with mig := true }, true, 2 ^ 56⟩
    let d : TransReg := ⟨0x40000, 0x40000, 0x1000, Attr.none, true, 2 ^ 56⟩
    base.failedKey (0x40000 + 0xFFF) .write = false ∧
    (0xFFF < t.limit ∧ t.attr.mig = false ∧ t.attr.denies .write = false) ∧ (0xFFF < d.limit ∧ d.attr.denies .write = true) ∧
    t.limit ≤ 0x1000 ∧ m.attr.mig = true := by decide +kernel

/-- A releasing FENCE with and without a held store, and an acquiring one. -/
theorem witness_Fences : ([hinted base ⟨0, 2, 0, 0, 0, 0, 0⟩, holding (hinted base ⟨0, 2, 0, 0, 0, 0, 0⟩),
      hinted base ⟨0, 1, 0, 0, 0, 0, 0⟩, hinted base ⟨9, 3, 0, 0, 0, 0, 0⟩] : List State).all (fun s =>
    (s.issueCheck { hmod := { order := [1, 2, 3], scope := true }, issuer := .both, run := .never } (s.hmod.order.toNat == 0)
      (encode (.fence 0)) (all s)).isNone && s.uniform 0) = true := by decide +kernel

/-- A WAITV for the word at 16 of the scratchpad to be what v2 holds: met or not, without a deadline or with one. -/
def waits (met timed : Bool) : State :=
  let s := hinted (small 0 16 (if met then 0 else 1)) ⟨0, 0, 0, 0, 0, 1, 0⟩
  if timed then s.mapCur fun p => { p with pfx := { p.pfx with acc := 0, himm := true, count := 2 } } else s

/-- The small machine with its split waiting in that WAITV. -/
def waiting (met timed : Bool) : State :=
  (waits met timed).mapCur fun p =>
    let h : HeldInsn := ⟨p.pc, p.pfx, encode (.waitv 0 2 0 1 0 (if timed then 1 else 0))⟩
    { p with pfx := Pfx.empty, wait := Wait.waitv h (if timed then some 0 else none) }

theorem witness_MemoryWaits : [true, false].all (fun met => [true, false].all fun timed =>
      let s := waits met timed
      let c : BitVec 2 := if timed then 1 else 0
      let i : Instr := .waitv 0 2 0 1 0 c
      i.wellFormed && s.hmod.tv == 1 && s.hmod.order == 0 &&
      clear [s.issueCheck { hmod := { tv := [1] }, run := .never } false (encode i) (s.part 0),
        operandIf (s.badSource 2) (encode i) 0 (s.part 0), operandIf (s.badSource 1) (encode i) 3 (s.part 0), s.bounds 2 1 (s.part 0),
        s.bounds 1 1 (s.part 0)] &&
      (s.self.cur.pfx.himm == timed) && !isQ 2 && scrOk s true 4 1 (s.part 0) &&
      (BitVec.ofNat 32 (leNat ((List.range 4).map fun j => s.scrByte 0 (16 + j))) == (s.readV [] 2).at 0) == met &&
      (match (waiting met timed).focus s.selfKey 0 with
        | some s0 => (match s0.self.cur.wait with
          | .waitv h dl => h.addr == s.self.cur.pc && h.word == encode i && dl == (if timed then some 0 else none) &&
            decide ((s0.mapCur fun p => { p with pc := h.addr, pfx := h.pfx, wait := .none }) = s) && s0.mayEnd
          | _ => false)
        | none => false)) = true ∧
    (let s := waiting true true; ({ s with crew := { s.crew with area := some 0 } } : State).mayEnd = false) := by decide +kernel

/-- A barrier at offset 32 of the scratchpad. -/
def barred (rem phase : Nat) (poison : Bool) : State :=
  { base with crew := base.crew.putBar ⟨0, 32⟩ ⟨0, 3, rem, phase, poison⟩ }

theorem form_of {s : State} (h : s.mem.wf = true) (h1 : s.dirty.wf = true) (h2 : s.boot.staging.wf = true)
    (h3 : (s.crew :: s.crews).all (fun c => c.gangs.all (fun g => g.mem.wf) && Sparse.wf 0 c.marver.acc) = true) :
    s.MemoryForm := by
  refine ⟨h, h1, h2, fun c hc => ?_⟩
  have := List.all_eq_true.mp h3 c hc
  simp only [Bool.and_eq_true] at this
  exact ⟨fun g hg => List.all_eq_true.mp this.1 g hg, this.2⟩

/-- The canonical form as a test (`form_of`). -/
def formed (s : State) : Bool :=
  s.mem.wf && s.dirty.wf && s.boot.staging.wf && (s.crew :: s.crews).all fun c => c.gangs.all (fun g => g.mem.wf) && Sparse.wf 0 c.marver.acc

/-- A barrier with arrivals left, one without, a poisoned one and one past the phase, with and without a held store; BINIT of a
count of 1, 65535, 0 and 65536. -/
theorem witness_Barriers :
    ([barred 2 0 false, barred 0 0 false, barred 2 0 true, barred 2 1 false, holding (barred 2 0 false)] : List State).all (fun s =>
      ([(.binit 20 21, false, false), (.barv 22 20, true, true), (.bexp 20 21, false, true), (.bwait 20 21, true, true),
        (.btest 22 20 21, true, true)] : List (Instr × Bool × Bool)).all fun e =>
        let t := with2 s 32 0
        let t := if e.2.1 then hinted t ⟨0, if e.1 = .barv 22 20 then 2 else 1, 0, 0, 0, 0, 0⟩ else t
        let n : List (BitVec 2) := if e.1 = .barv 22 20 then [2] else [1]
        ready t e.1 { hmod := if !e.2.1 then {} else { order := n, scope := true }, issuer := .both, run := .never } &&
        (t.ref (t.sreg 20) (encode e.1) 1 32 e.2.2).isOk && t.crew.key != CrewKey.none && formed t &&
        releases t (t.scopeOr 2) == t.self.replay.isEmpty) = true ∧
    ([1, 65535, 0, 65536] : List DWord).all (fun v => ready (with2 base 32 v) (.binit 20 21) { issuer := .both, run := .never }) = true := by
  decide +kernel

/-- The last member of a crew, one of two, and with a held store. -/
theorem witness_CrewBarrier :
    let other : Agent := { Agent.initial ⟨false, 0, 1⟩ Mask.all 0x100000 (Regs.initial 8 0 0 0 0) 0 with
      cur := { Path.empty with mask := Mask.all, pc := 0x100000, wait := .cbar ⟨0x100000, Pfx.empty, encode .cbar⟩ } }
    let two (arrived : Bool) : State := { base with crew := { base.crew with
      agents := [other], cbar := if arrived then [other.unit] else [] } }
    ([base, holding base, two true, two false] : List State).all (fun s => ready s .cbar { issuer := .both, run := .never } &&
      s.self.whole && s.self.run.isNone && !s.self.gone) = true ∧
    (two true).crew.agents.all (fun a => (a.gone && a.replay.isEmpty) || (two true).crew.cbar.contains a.unit) = true ∧
    (two false).crew.agents.all (fun a => (a.gone && a.replay.isEmpty) || (two false).crew.cbar.contains a.unit) = false := by decide +kernel

/-- The control block of a copy of one row of 16 bytes between the places of kind 3, at offset 64. -/
def copyBlock (src dst rows bytes bar cores : Nat) : State :=
  with2 (scrPut (scrPut (scrPut (scrPut (scrPut (scrPut base 64 8 src) 72 8 dst) 80 4 rows) 84 4 bytes) 96 4 bar) 100 1 cores) 64 0x100010

/-- The block of the copy in the scratchpad. -/
def blockCopy (s : State) : Copy := ⟨0, 3, s.crew.scrBytes 0 64 0x40, ⟨0, 64⟩, 0, 0, s.self.unit, none, 2, 0, false, []⟩

/-- Blocks that are good, bad, with a misaligned barrier and outside the scratchpad; a continuation that is not aligned; 64
copies held. -/
theorem witness_CopyIssue :
    let good := copyBlock 512 768 1 16 (2 ^ 32 - 1) 0
    let full : State := { good with crew := { good.crew with copies := List.replicate 64 (blockCopy good) } }
    ([good, copyBlock 512 768 0 16 (2 ^ 32 - 1) 0, copyBlock 512 768 1 16 8 0, copyBlock 1016 768 1 16 (2 ^ 32 - 1) 0, full,
        good.putS 21 0x100012] : List State).all (fun s => ([0, 1] : List (BitVec 1)).all fun y =>
      ready s (.cpys 20 (if y = 1 then 21 else 0) y) { hmod := { scope := true }, issuer := .both, run := .never } &&
      (match s.ref (s.sreg 20) (encode (.cpys 20 (if y = 1 then 21 else 0) y)) 1 64 true with
        | .ok r => r == ⟨0, 64⟩
        | .error _ => false) && formed s) = true ∧
    ((blockCopy good).badFields good.crew good.self.unit = false ∧ (blockCopy good).misaligned = false ∧
      (blockCopy good).outside good.crew good.self.unit = none ∧ good.copiesHeld < 64 ∧ 64 ≤ full.copiesHeld) ∧
    (let s := copyBlock 1016 768 1 16 (2 ^ 32 - 1) 0; (blockCopy s).badFields s.crew s.self.unit = false ∧
      (blockCopy s).misaligned = false ∧ ((blockCopy s).outside s.crew s.self.unit).isSome = true) ∧
    (let s := copyBlock 512 768 1 16 8 0; (blockCopy s).badFields s.crew s.self.unit = false ∧
      fieldAt (blockCopy s).block 0x20 4 % 32 ≠ 0) := by decide +kernel

/-- A copy at its last sector, and one of two rows at its first. -/
theorem witness_CopySector : ([copyBlock 512 768 1 16 (2 ^ 32 - 1) 0, copyBlock 512 768 2 16 (2 ^ 32 - 1) 0] : List State).all (fun s0 =>
      let c := blockCopy s0
      let s : State := { s0 with crew := { s0.crew with copies := [c] } }
      formed s && s.crew.key != CrewKey.none && s.ctx.id == s.crew.key.ctx && s.ctx.id != CtxId.none &&
      (s.crew.copies.find? fun z => z.id == c.id) == some c && c.kind == 3 && c.keys == [] && decide (0 < c.rowBytes) &&
      decide (0 ≤ c.spitch) && decide (0 ≤ c.dpitch) && s.crew.refOf c.issuer c.src == some ⟨0, 512⟩ &&
      s.crew.refOf c.issuer c.dst == some ⟨0, 768⟩ && c.bar == none && s.crew.gangs.all (fun g => g.pois == []) &&
      decide (c.place.gang < s.crew.gangs.length) && decide (c.place.off + 64 ≤ 768) && decide (c.done + 16 < 2 ^ 64)) = true := by
  decide +kernel

/-- A stream descriptor at offset 64. -/
def streamAt (count width : Nat) : State := named (scrPut (scrPut (scrPut (scrPut bound 64 8 0x40000) 72 4 count) 81 1 width) 82 1 2) 64

/-- q1 attached to a load stream of words at an address. -/
def streamOf (va : Nat) : State := bound.mapRegs fun r => { r with q := r.q.setIfInBounds 1 ⟨true, va, 4, 128, false, true, 2, 0, []⟩ }

/-- A stream may fetch ahead: its next entry is found (0), holds a fault (1), or misses and joins the merge table (2). -/
def streamMeets (s : State) (want : Nat) : Bool :=
  let q := s.self.regs.qAt 1
  let r := (s.mapCur fun p => { p with failed := [] }).fetchEntry q 0
  s.self.run.isNone && s.self.tl == 0 && s.crew.area.isNone && q.attached && !q.store && q.ahead.isEmpty && decide (0 < q.count) &&
  s.self.streams.isEmpty && !s.entryQueued q 0 && (match r.2 with
    | .ok _ => want == 0
    | .error l => if (heldFault l).isSome then want == 1
      else want == 2 && !(({ r.1 with self := s.self } : State).joinLanes .read 8 l).2.isEmpty)

/-- A stream whose pushed entry has a queued store left. -/
def drained : State := (streamed true 1 []).mapSelf fun a => { a with replay := [⟨encode (.mov 0 0x75 0), Pfx.empty, true, false, 0, [], []⟩] }

/-- QCFG of a good and of a bad descriptor; QDRN outside a run and in one; a store stream that is still draining; an entry to
fetch that is found, one beyond VA[55:0], and one that no page holds. -/
theorem witness_QueueRegisters :
    ([streamAt 4 3, streamAt 0 3] : List State).all (fun s => ready s (.qcfg 1 20) {} &&
      (s.ref (s.sreg 20) (encode (.qcfg 1 20)) 1 32 true).isOk && ready s (.qdrn 1) {} && s.self.run.isNone &&
      !s.self.draining 1) = true ∧
    (ready (inRun base) (.qdrn 1) {} = true ∧ (inRun base).self.run.isSome = true) ∧
    (ready drained (.qdrn 1) {} = true ∧ drained.self.draining 1 = true) ∧ streamMeets (streamOf 0x40000) 0 = true ∧ streamMeets (streamOf 0x100000000000000) 1 = true ∧
    streamMeets (streamOf 0x7FFF0000) 2 = true := by decide +kernel

/-- Words at and after the PC of the small machine. -/
def code (ws : List Word) : State := base.putBytes 0x100000 (ws.flatMap fun w => leBytes 4 w.toNat)

/-- The word after the body of a RUNB at the PC: a trailer or not, with one of its tokens pending or not. -/
theorem witness_RunHeader :
    let good := code [encode (.runb 1 1), 0, encode (.trl 0 0)]
    let far := code [encode (.runb 1 1), 0, 0]
    ([(good, true), (far, false), (good.mapSelf fun a => { a with tokens := 1 }, true)] : List (State × Bool)).all (fun e =>
      e.1.self.cur.pfx.count == 0 && (e.1.issueCheck { run := .never } false (encode (.runb 1 1)) (all e.1)).isNone &&
      (match e.1.fetchAt (e.1.self.cur.pc + 8).toNat (all e.1) with
        | .word _ w => (match decode w with
          | .ok (.trl _ _) => e.2
          | _ => !e.2)
        | _ => false)) = true ∧
    base.self.run = none ∧ ((inRun base).self.run.map fun r => r.pos == r.n + 1) = some false := by decide +kernel

/-- A trailer at its place, with a store to memory and one to a scratchpad held; a token pending. -/
theorem witness_RunTrailer :
    let r : Run := ⟨0x100000, 2, 3, base.self.regs, Vector.replicate 4 (Lanes.const 0),
      [⟨none, 0x40000, 0x40000, 5⟩, ⟨some 0, 16, 16, 7⟩], none, [], true, 3⟩
    let s := base.mapSelf fun a => { a with run := some r, tokens := 0x81 }
    s.self.cur.pfx.count = 0 ∧ s.self.run = some r ∧ r.pos = r.n + 1 ∧ r.qops = [] ∧ r.xfer = none ∧
    s.self.version.active = false ∧ formed s = true ∧ s.self.tokens.getLsbD 0 = true ∧ s.self.tokens.getLsbD 7 = true := by
  decide +kernel

/-! ### Tasks, the Punty, time, reductions -/

/-- The FX instruction passes its checks. -/
def fxOk (s : State) (i : Instr) (feat : Nat := 0) (iss : Issuer := .both) : Bool := ready s i { feat := feat, issuer := iss, run := .never }

/-- s20 and s21 hold a number and an offset of the scratchpad; the queue 3 of a context, with entries. -/
def queueAt (num : DWord) (owner : Nat) (closed : Bool) (es : List QueueEntry) : State :=
  { with2 base num 64 with queues := [⟨3, ⟨owner, 0⟩, 2, 0, closed, es, 0⟩] }

/-- An entry of 32 bytes. -/
def entry : QueueEntry := ⟨List.replicate 32 7, none, 0⟩

/-- A queue of another context, and one that is empty, closed and empty, holding an entry, full, and with a held store. -/
theorem witness_TaskQueues : ([queueAt 3 2 false [], queueAt 3 1 false [], queueAt 3 1 true [], queueAt 3 1 false [entry],
      queueAt 3 1 false [entry, entry], holding (queueAt 3 1 false [])] : List State).all (fun s =>
      fxOk s (.qpop 22 20 21) && fxOk s (.qpush 22 20 21) && fxOk s (.qstat 22 20) && formed s &&
      (s.ref (s.sreg 21) (encode (.qpop 22 20 21)) 2 32 false).isOk && (s.ref (s.sreg 21) (encode (.qpush 22 20 21)) 2 32 true).isOk &&
      decide ((s.sreg 20).toNat < 4096)) = true ∧
    entry.bytes.length = 32 ∧ fxOk (queueAt 4096 1 false []) (.qstat 22 20) = true := by decide +kernel

/-- A queue with a slot reserved for each part. -/
def reserved (num : DWord) (owner : Nat) (closed : Bool) : State :=
  { queueAt num owner closed [] with queues := [⟨3, ⟨owner, 0⟩, 4, 1, closed, [], 0⟩] }

/-- RENQ to a part outside the domain, to this one, and to another in the domain, with and without .ack. Which port leads to a part
is a constant of the model without a value. -/
theorem witness_RemoteEnqueue : let far := 7 * 4096 + 3
    ([(reserved 0x1000003 1 false, true), (reserved far 1 false, false)] : List (State × Bool)).all (fun e => ([0, 1] : List (BitVec 1)).all fun k =>
      let s := e.1
      let i : Instr := .renq (if k = 1 then 22 else 0) 20 21 k
      fxOk s i && decide ((s.sreg 20).toNat < 2 ^ 25) && (s.ref (s.sreg 21) (encode i) 2 32 true).isOk && s.self.replay.isEmpty &&
      (s.pod.domain == []) && (((if (s.sreg 20).toNat / 2 ^ 24 = 1 then s.pod.part else (s.sreg 20).toNat / 4096 % 4096) == s.pod.part) == e.2) &&
      (s.ownedQueue s.ctx.id 3).isSome && s.renqs.isEmpty && !s.unaccepted s.selfKey && s.fenceRoom s.selfKey 7) = true ∧
    (let s := reserved far 1 false
      let t : State := { s with pod := { s.pod with domain := [0, 7] } }
      fxOk t (.renq 22 20 21 1) && (t.ref (t.sreg 21) (encode (.renq 22 20 21 1)) 2 32 true).isOk && t.self.replay.isEmpty &&
        t.pod.domain.contains 7 && t.pod.part != 7 && !t.unaccepted t.selfKey && t.fenceRoom t.selfKey 7) = true ∧
    (let s := reserved far 1 false
      let t : State := { s with pod := { s.pod with domain := [0, 7] } }
      t.canSend (.interposer t.crew.socket 0) 2 = true ∧
      ({ t with credits := [⟨.interposer 0 0, 2, 4, 4, 0, 0⟩] } : State).canSend (.interposer 0 0) 2 = false ∧
      t.hub.waitsFor t.selfKey = false ∧
      ({ t with hub := { t.hub with waiting := [.entry t.selfKey ⟨9, 0, 7, ⟨1, 0⟩, 3, [], false, 0⟩] } } : State).hub.waitsFor t.selfKey = true) ∧
    (let s := reserved 0x1000003 1 false
      let t : State := { s with work := [⟨s.selfKey, 0, [5], s.ctx.id, .write 0 0⟩] }
      t.unaccepted t.selfKey = true ∧ fxOk t (.renq 0 20 21 0) = true) ∧
    /- deliveries from another part, of this part, and an answer -/
    ([reserved 0 1 false, reserved 0 1 true, reserved 0 2 false] : List State).all (fun s => (s.queues.find? fun x => x.num == 3).isSome &&
      s.pod.part != 5 && s.flits.isEmpty && s.pod.cbfc == 0) = true ∧
    (let s := reserved 0 1 false
      let f : RenqFlight := ⟨⟨9, s.pod.part, s.pod.part, ⟨1, 0⟩, 3, entry.bytes, false, 0⟩, s.selfKey⟩
      let t : State := { s with renqs := [f] }
      decide (t.renqs.find? (fun g => g.packet == f.packet) = some f) &&
        decide (t.renqs.find? (fun g => g.from_ == f.from_ && g.packet.queue == f.packet.queue && g.packet.dest == f.packet.dest) = some f)) = true ∧
    (let s := reserved 0 1 false
      let f : RenqFlight := ⟨⟨9, s.pod.part, 7, ⟨1, 0⟩, 3, entry.bytes, true, 0⟩, s.selfKey⟩
      let h : HeldInsn := ⟨0x100000, Pfx.empty, encode (.renq 22 20 21 1)⟩
      let t : State := { s.mapCur fun p => { p with wait := .renq h 9 } with renqs := [f] }
      decide (f.from_ = t.selfKey) && f.packet.dest != t.pod.part && t.self.cur.mask != 0 && t.self.cur.wait == .renq h 9 &&
        decide (t.renqs.find? (fun g => g.packet.id == f.packet.id && g.packet.dest != t.pod.part) = some f) &&
        (match decode h.word with
          | .ok j => decide (j = .renq 22 20 21 1)
          | .error _ => false)) = true := by decide +kernel

/-- With an open version of two bytes, one that is no longer active, and none. -/
def versioned (v : Version) : State := (base.putS 20 64).mapSelf fun a => { a with version := v }

/-- A kernel header at 0x40000: groups, gangs, Gaffers, rows, and 1024 bytes of scratchpad. -/
def kernelHeader (groups gangs gaffers budget : Nat) : List Byte :=
  leBytes 4 1 ++ leBytes 4 2 ++ leBytes 8 0x100040 ++ leBytes 8 0x100080 ++ leBytes 2 budget ++
    [BitVec.ofNat 8 groups, BitVec.ofNat 8 gangs, BitVec.ofNat 8 gaffers, 0, 0, 0] ++ leBytes 4 1024 ++ leBytes 28 0

/-- A launch of that kernel. -/
def launchAt (num : Nat) (persist : Bool) : Launch :=
  ⟨num, 0x40000, 2, 2, 3, false, persist, false, false, false, 0, 0x7000, 0, 0, 0, 0, 8, [], [], [], [], 0⟩

/-- The crew of a persistent launch asks for a crew; another launch offers one or not. -/
def asking (offers : Bool) : State :=
  let s := base.putBytes 0x40000 (kernelHeader 1 1 0 64)
  { s with
    ctx := { s.ctx with launches := launchAt 0 true :: (if offers then [launchAt 9 false] else []), loaded := [⟨0x40000, 0⟩] }
    crew := { s.crew with fetch := some ⟨s.self.unit, ⟨0, 64⟩, 0, 0⟩ } }

theorem witness_TaskVersions : ([base.putS 20 64, { base.putS 20 64 with crew := (asking false).crew }] : List State).all (fun s =>
      fxOk s (.fetchw 20) && (s.ref (s.sreg 20) (encode (.fetchw 20)) 1 32 false).isOk) = true ∧
    ([Version.none, ⟨5, true, false, [], []⟩] : List Version).all (fun v => fxOk (versioned v) (.taska 20) 4) = true ∧
    ([versioned Version.none, versioned ⟨5, true, false, [(0x40000, some 1)], [(0x400, 0x40000)]⟩,
      holding (versioned ⟨5, true, false, [], []⟩)] : List State).all (fun s => fxOk s (.taske 0) && fxOk s (.taske 20) &&
        (s.ref (s.sreg 20) (encode (.taske 20)) 1 32 true).isOk && s.scrNum 0 64 4 != 1) = true ∧
    (let v : Version := ⟨5, true, false, [(0x40000, some 1)], [(0x400, 0x40000)]⟩; v.active = true ∧ v.bytes.wf = true) ∧
    [true, false].all (fun o =>
      let s := asking o
      formed s && s.crew.key != CrewKey.none && s.ctx.id == s.crew.key.ctx && s.ctx.id != CtxId.none && s.fetchesOn 0 == [s.crew.key] &&
      ((s.ctx.launch s.crew.key.launch).map (·.persist)) == some true && s.ctx.launches.all (fun l => !l.trec && !l.trep) &&
      (s.firstFor s.ctx s.frontCrew).isSome == o) = true := by decide +kernel

/-- The small machine with an object, its handle or an offset in s20, and an offset in s21. -/
def punty (opens : Nat) (x : DWord) : State := with2 (withObject opens) x 64

/-- A bind list of one entry at offset 64. -/
def listed (s : State) (name oid : Nat) : State := scrPut (scrPut (scrPut (named s 64) 64 4 1) 96 16 name) 112 4 oid

/-- A DOPEN of no name, of another context's, of an unbound one, of a bound one, and with no reference left. -/
theorem witness_DirectoryOpen : ([(1, 99), (1, 98), (1, 96), (1, 97), (262144, 97)] : List (Nat × Nat)).all (fun e =>
      let s := scrPut (named (withObject e.1) 64) 64 16 e.2
      ([0, 1] : List (BitVec 1)).all (fun k => fxOk s (.dopen 22 20 k) && (s.ref (s.sreg 20) (encode (.dopen 22 20 k)) 1 16 true).isOk) &&
      s.scrNum 0 64 16 == e.2 && ((s.punty.names.find? fun n => n.name == e.2).isNone == (e.2 == 99)) &&
      decide ((s.punty.objs.map fun o => (o.opens.map (·.2)).sum).sum = e.1)) = true ∧
    ((withObject 1).punty.names.map fun n => (n.name, n.owner == base.ctx.id, n.bound.isSome)) = [(98, false, false), (97, true, true),
      (96, true, false)] ∧
    ((withObject 1).punty.objs.find? fun x => x.owner == base.ctx.id && x.oid == 3).isSome = true := by decide +kernel

/-- A DCLOSE and a DINFO of a handle open twice, once and not, and of none; a list that passes and one that does not. -/
theorem witness_Directory : ([(punty 2 1, true), (punty 1 1, true), (punty 0 1, false), (punty 1 2, false)] : List (State × Bool)).all (fun e =>
      let s := e.1
      fxOk s (.dclose 22 20) && fxOk s (.dinfo 22 20 21) && decide ((s.sreg 20).toNat < 2 ^ 32) && s.self.replay.isEmpty && formed s &&
      (s.ref (s.sreg 21) (encode (.dinfo 22 20 21)) 2 32 false).isOk &&
      ((match s.punty.openObj s.ctx.id (s.sreg 20).toNat with
        | .ok _ => true
        | .error _ => false) == e.2)) = true ∧
    (match (punty 2 1).punty.openObj base.ctx.id 1 with
      | .ok o => decide (1 < (o.opens.map (·.2)).sum ∧ (o.opens.map (·.1)).Nodup) &&
        (punty 2 1).punty.objs.all fun x => x.slot != o.slot || decide (x = o)
      | .error _ => false) = true ∧
    ([(listed (withObject 1) 96 3, true), (listed (withObject 1) 99 3, false)] : List (State × Bool)).all (fun e =>
      let s := e.1
      fxOk s (.dbind 22 20 0) && (match s.ref (s.sreg 20) (encode (.dbind 22 20 0)) 1 32 true with
        | .ok r => r == ⟨0, 64⟩ && s.scrNum r.gang r.off 4 == 1 && decide (r.off + 32 + 32 * 1 ≤ s.crew.sizeOf r) &&
          (match bindList (s.scrBytes r.gang r.off 64) with
            | some l => (s.punty.checkList s.ctx.id false [] 0 0 l).isNone == e.2
            | none => false)
        | .error _ => false)) = true := by decide +kernel

/-- An object that nothing names and that is open once, closed; and a bind of the one name on which a DOPEN.w of another group
of the crew waits. -/
theorem witness_DirectoryReclaim :
    (let w := punty 1 1
      let s : State := { w with punty := { w.punty with names := [] } }
      fxOk s (.dclose 22 20) && s.self.replay.isEmpty && (match s.punty.openObj s.ctx.id 1 with
        | .ok o => decide ((o.opens.map (·.2)).sum = 1 ∧ (o.opens.map (·.1)).Nodup) &&
          s.punty.objs.all (fun x => x.slot != o.slot || decide (x = o)) &&
          !s.punty.names.any fun n => n.owner == o.owner && n.bound == some o.oid
        | .error _ => false)) = true ∧
    (let h : HeldInsn := ⟨0x100000, Pfx.empty, encode (.dopen 22 20 1)⟩
      let p : Path := { Path.empty with mask := Mask.all, pc := 0x100000, wait := .bind h 96 }
      let other : Agent := { Agent.initial ⟨false, 0, 1⟩ Mask.all 0x100000 (Regs.initial 8 0 0 0 0) 0 with cur := p }
      let w := listed (withObject 1) 96 3
      let s : State := { w with crew := { w.crew with agents := [other] } }
      fxOk s (.dbind 22 20 0) && s.self.replay.isEmpty && decide (s.binders s.ctx.id 96 = [(⟨s.crew.key, ⟨false, 0, 1⟩⟩, p)]) &&
      s.self.unit != ⟨false, 0, 1⟩ && s.crew.key != CrewKey.none &&
      (s.punty.objs.find? fun x => x.owner == s.ctx.id && x.oid == 3).isSome && (match decode h.word with
        | .ok j => decide (j = .dopen 22 20 1)
        | .error _ => false) &&
      (match bindList (s.scrBytes 0 64 64) with
        | some l => l.map (·.name) == [96] && (s.punty.checkList s.ctx.id false [] 0 0 l).isNone
        | none => false)) = true := by decide +kernel

theorem witness_DirectoryChecks : ((withObject 1).punty.objs.find? fun x => x.slot == 1 % 2 ^ 24).isSome = true := by decide +kernel

/-- A die's time. -/
def timed (s : State) (e n : Nat) : State := { s with dies := s.dies.set! e { s.dieAt e with ptime := n } }

/-- TSTAMP, TSERR, and TWAIT of a target that is past and of one to come, issued and held. -/
theorem witness_TimeInstructions : ([timed (named base 5) 0 5, timed (named base 5) 0 4] : List State).all (fun s =>
      fxOk s (.tstamp 22) && fxOk s (.tserr 22) && fxOk s (.twait 20)) = true ∧
    ([4, 5] : List Nat).all (fun n =>
      let h : HeldInsn := ⟨0x100000, Pfx.empty, encode (.twait 20)⟩
      let s := (timed base 0 n).mapCur fun p => { p with wait := .twait h 5 }
      (match s.focus s.selfKey 0 with
        | some t => t.self.cur.wait == .twait h 5 && (t.dieAt t.crew.socket).ptime == n && t.mayEnd
        | none => false)) = true := by decide +kernel

/-- Exchanges within the bound and beyond it, with and without PODSYNC, before and after the one step; a die that has exchanged
nothing for 1 ms. -/
theorem witness_TimeExchanges : (9 < 10 ∧ base.pod.stepped = false) ∧
    ({ base with pod := { base.pod with stepped := true, parent := 0xFF } } : State).pod.stepped = true ∧
    (let s := timed base 9 16000000; (s.dieAt 9).exchanged + 16000000 ≤ (s.dieAt 9).ptime) ∧
    ([(24, false), (25, false), (400, true), (401, true)] : List (Nat × Bool)).all (fun e =>
      nextIs (exec (.timeExchange 9 ⟨none, e.1, 0, e.2⟩) { base with pod := { base.pod with stepped := true, parent := 0xFF } }) fun t =>
        (t.dieAt 9).err == e.1) = true ∧
    (let s : State := { base with pod := { base.pod with podPorts := 3, parent := 1 } };
      s.pod.podPorts.testBit 0 = true ∧ s.pod.podPorts.testBit 1 = true ∧ s.pod.cbfc.testBit 1 = false ∧ s.flits = []) := by
  decide +kernel

/-- The ordered class enabled or not. -/
def ordered (s : State) (on : Bool) : State := { s with hub := { s.hub with ordctl := if on then 0x10064 else 0x64 } }

/-- OSEND to part 4096, of a misaligned address, of one beyond 56 bits; and a good one, disabled, enabled and with a held store. -/
theorem witness_OrderedSends : ([(0x40000, 4096), (0x40002, 4095), (0x100000000000000, 1), (0x40000, 1)] : List (DWord × DWord)).all
      (fun e => ready (with2 base e.1 e.2) (.osend 22 20 21) { feat := 3, issuer := .both, run := .never }) = true ∧
    ([ordered (with2 base 0x40000 1) false, ordered (with2 base 0x40000 1) true, holding (ordered (with2 base 0x40000 1) true)] :
      List State).all (fun s => fxOk s (.osend 22 20 21) 3 && decide (s.crew.socket < 10) && s.work.isEmpty && s.pod.part != 4096) = true ∧
    (ordered base true).hub.ordctl.getLsbD 16 = true ∧ (ordered base false).hub.ordctl.getLsbD 16 = false := by decide +kernel

/-- DBIND.o of a list that passes, and a DOPEN of POD scope, disabled and enabled. -/
theorem witness_OrderedDirectory : [true, false].all (fun on =>
      (let s := ordered (listed (withObject 1) 96 3) on;
        !s.unaccepted s.selfKey && ({ s with work := [⟨s.selfKey, 0, [5], s.ctx.id, .write 0 0⟩] } : State).unaccepted s.selfKey &&
        fxOk s (.dbind 22 20 1) 3 && decide (s.crew.socket < 10) && s.self.replay.isEmpty && (match s.ref (s.sreg 20) (encode (.dbind 22 20 1)) 1 32 true with
        | .ok r => s.scrNum r.gang r.off 4 == 1 && decide (r.off + 32 + 32 * 1 ≤ s.crew.sizeOf r) &&
          (match bindList (s.scrBytes r.gang r.off 64) with
            | some l => (s.punty.checkList s.ctx.id false [] 0 0 l).isNone
            | none => false)
        | .error _ => false)) &&
      (let s := hinted (ordered (named (withObject 1) 64) on) ⟨9, 0, 0, 0, 0, 0, 0⟩;
        ready s (.dopen 22 20 0) { hmod := { scope := true }, issuer := .both, run := .never } && s.hmod.scope == 9 &&
        (s.ref (s.sreg 20) (encode (.dopen 22 20 0)) 1 16 true).isOk)) = true := by decide +kernel

/-- A reduction tree: RID 5, first core, two contributors of one word, the result at 128. -/
def tree (first : Nat) : Nat := 5 + first * 2 ^ 12 + 1 * 2 ^ 21 + 4 * 2 ^ 32

/-- Its round, with the contributions that have come. -/
def roundOf (cs : List Contrib) : State := { with2 base (BitVec.ofNat 64 (tree 0)) 64 with rounds := [⟨⟨1, 0⟩, 5, 0, cs⟩] }

/-- REDP that names its core and that does not; REDW of a complete and of an incomplete round; and one held past its deadline. -/
theorem witness_Reductions :
    (let ok (v : Nat) : Bool := decide (v < 2 ^ 56) && decide (v / 2 ^ 46 % 4 ≤ 1) &&
        decide (v / 2 ^ 12 % 2 ^ 9 + (v / 2 ^ 21 % 2 ^ 5 + 1) ≤ 4 * base.ctx.nlc);
      ok (tree 0) = true ∧ (4 * base.crew.lcl + base.self.unit.gang = 0) ∧ ok (tree 3) = false ∧ ok (2 ^ 56) = false ∧ ok (tree 1) = true) ∧
    ([tree 0, tree 1, tree 3, 2 ^ 56] : List Nat).all (fun v => let s := with2 base (BitVec.ofNat 64 v) 64
      ready s (.redp 20 21 3) { feat := 5, run := .never } && (s.ref (s.sreg 21) (encode (.redp 20 21 3)) 2 4 false).isOk &&
      s.self.replay.isEmpty) = true ∧ base.crew.sizeOf ⟨0, 64⟩ = 1024 ∧
    ([(roundOf [⟨0, 3, [1]⟩, ⟨1, 3, [2]⟩], true), (roundOf [⟨0, 3, [1]⟩], false), (roundOf [⟨0, 3, [1]⟩, ⟨1, 4, [2]⟩], false)] :
      List (State × Bool)).all (fun e => let s := e.1
        ready s (.redw 22 20 0 3) { feat := 5, run := .never } && (s.redwOn s.ctx.id 5 0).isNone && s.ctx.id != CtxId.none && formed s &&
        decide (s.self.unit.gang < s.crew.gangs.length) && (((List.range 2).all fun i =>
          (((s.roundOf s.ctx.id 5 0).find? fun c => c.ix == i).filter fun c => c.op == 3).isSome) == e.2)) = true ∧
    (let h : HeldInsn := ⟨0x100000, Pfx.empty, encode (.redw 22 20 21 3)⟩
      let s := (timed (roundOf [⟨1, 3, [2]⟩]) 0 7).mapCur fun p => { p with wait := .redw h (tree 0) (some 7) }
      (match s.focus s.selfKey 0 with
        | some t => t.self.cur.wait == .redw h (tree 0) (some 7) && decide (7 ≤ (t.dieAt t.crew.socket).ptime) && t.mayEnd &&
          (t.sreg 20).toNat == tree 0
        | none => false) && (match decode h.word with
          | .ok j => decide (j = .redw 22 20 21 3)
          | .error _ => false)) = true := by decide +kernel

/-- A contribution that arrives at its open round, and one of the round that was closed last. -/
theorem witness_ReductionOrder :
    let f : RedpFlight := ⟨4, base.crew.key, ⟨0, 64⟩, 1, 5, 0, 1, 3⟩
    let s : State := { roundOf [⟨0, 3, [1]⟩] with redps := [f] }
    s.redps.find? (fun g => g.id == f.id) = some f ∧ (s.crewAt f.crew).isSome = true ∧
    (s.rounds.any fun r => r.ctx == f.crew.ctx && r.rid == f.rid && r.round == f.round) = true ∧
    ((s.ctxAt f.crew.ctx).map fun x => x.marks.contains (f.rid, f.round)) = some false ∧
    (s.redwOn f.crew.ctx f.rid f.round).isNone = true ∧
    (let t : State := { s with ctx := { s.ctx with marks := [(5, 0)] } };
      ((t.ctxAt f.crew.ctx).map fun x => x.marks.contains (f.rid, f.round)) = some true ∧
      t.redps.find? (fun g => g.id == f.id) = some f ∧ (t.redwOn f.crew.ctx f.rid f.round).isNone = true) := by decide +kernel

/-! ### The Marver and the system instructions -/

/-- A Gaffer thread in front. -/
def gaffer (s : State) : State := s.mapSelf fun a => { a with unit := ⟨true, 0, 1⟩, cur := { a.cur with mask := 1 } }

/-- The Marver of the crew in front changed. -/
def marver (s : State) (f : Marver → Marver) : State := s.withMarver (f s.crew.marver)

/-- An engine instruction passes its checks. -/
def engOk (s : State) (i : Instr) (scope : Bool) (feat : Nat) (b : BitVec 5) (excl : Bool) : Bool :=
  (s.issueCheck (engNeeds scope feat) (s.hmod.scope != 0 && (b == 0 || decide (s.hmod.scope.toNat < 4))) (encode i)
    s.self.cur.lanes).isNone && s.self.cur.lanes != 0 &&
  (!excl || !s.crew.marver.mcf.getLsbD 4 || bitsOf s.crew.marver.mcf.toNat 6 5 == s.self.unit.ix)

/-- An operation of the queue. -/
def mop (id eop step : Nat) (st : OpState) (bar : Option ScrRef) : MOp := ⟨id, eop, 1, bar, 0, false, [], 0, step, 0, st, false, []⟩

/-- MTRN of sub-positions 3 and 4, and each with and without a barrier; EXCL of this thread. -/
theorem witness_MarverPlainIssue : ([with2 (gaffer base) 3 64, with2 (gaffer base) 4 0x400000040,
      marver (with2 (gaffer base) 3 0x400000040) fun m => { m with mcf := 0x30 }] : List State).all (fun s => ([0, 21] : List (BitVec 5)).all fun b =>
      ([.mswap b, .mzero b, .mred b 1, .mtrn 20 b] : List Instr).all fun i => engOk s i true 0 b true && !s.crew.marver.stopped) = true ∧
    ∀ w, (with2 (gaffer base) 3 0x400000040).ref ((with2 (gaffer base) 3 0x400000040).sreg 21) w 2 32 false = .ok ⟨0, 64⟩ :=
  by
  refine ⟨by decide +kernel, fun w => ?_⟩
  have h : (with2 (gaffer base) 3 0x400000040).crew.refOf (with2 (gaffer base) 3 0x400000040).self.unit ((with2 (gaffer base) 3 0x400000040).sreg 21).toNat =
    some ⟨0, 64⟩ := by decide +kernel
  simp only [State.ref, h]
  rw [if_neg (by decide +kernel), if_neg (by decide), if_neg (by simp)]

/-- An operand value that each engine instruction refuses. -/
theorem witness_MarverOperands : ([(.mrule 20 21, 0x10000000000, 0, 1, false), (.mrule 20 21, 0x400000040, 16, 2, false),
      (.mcfg 22 20, 0x80, 0, 1, false), (.mtrn 20 21, 4, 0x400000040, 1, true), (.mtrn 20 21, 3, 0x10000000000, 2, true),
      (.mswap 21, 0, 0x10000000000, 2, true), (.mzero 21, 0, 0x10000000000, 2, true), (.mred 21 1, 0, 0x10000000000, 2, true),
      (.mstat 20 21, 0x10000000000, 0x400000040, 1, true), (.mstrm 20 21 0, 0x400000040, 0x10000000000, 2, true),
      (.mwave 20 21, 0x400000040, 0x10000000000, 2, true)] : List (Instr × DWord × DWord × Nat × Bool)).all (fun e =>
      let s := marver (with2 (gaffer base) e.2.1 e.2.2.1) fun m => { m with mst := 0x4000 }
      let formed (f : BitVec 5) : Bool := (s.crew.refOf s.self.unit (s.sreg f).toNat).isSome
      s.crew.marver.stopped && engOk s e.1 e.2.2.2.2 (if e.1 = .mwave 20 21 then 2 else 0) (if e.2.2.2.2 then 21 else 0) true &&
      (e.1 == .mcfg 22 20 || e.1 == .mrule 20 21 && e.2.2.2.1 == 2 || e.1 == .mtrn 20 21 && e.2.2.2.1 == 1 ||
        !formed (if e.2.2.2.1 = 1 then 20 else 21))) = true := by decide +kernel

/-- A control word, an address and small fields written at offset 128. -/
def block (fields : List (Nat × Nat × Nat)) : State := fields.foldl (fun s e => scrPut s (128 + e.1) e.2.1 e.2.2) (with2 (gaffer base) 0x400000080 0x400000040)

/-- An image of one rule, forward or backward, in slot 0. -/
def ruled (s : State) (bwd : Bool) : State := marver s fun m => { m with slots := [(0, leBytes 4 (if bwd then 2 ^ 25 else 0) ++ zeros 60)] }

/-- The operation code of an instruction that reads a block (R267). -/
def codeOf : Instr → Nat
  | .mstat _ _ => 2
  | .mstrm _ _ _ => 4
  | .mwave _ _ => 5
  | .mback _ _ => 6
  | .mdrain _ _ => 7
  | .mprm _ _ => 10
  | _ => 0

/-- For each of the instructions a block that is good, one with a field out of its range, and one whose extent leaves the
scratchpad. -/
theorem witness_MarverBlockIssue : ([
    (.mstat 20 21, 0, 64, 64, block [(0, 8, 2 ^ 63), (0x10, 4, 2), (0x14, 4, 1), (0x18, 4, 64), (0x1C, 1, 1)], statBad, statOut, 0),
    (.mstat 20 21, 0, 64, 64, block [(0, 8, 2 ^ 63), (0x10, 4, 0), (0x14, 4, 1), (0x1C, 1, 1)], statBad, statOut, 1),
    (.mstat 20 21, 0, 64, 64, block [(0, 8, 2 ^ 63 + 1024), (0x10, 4, 2), (0x14, 4, 1), (0x1C, 1, 1)], statBad, statOut, 2),
    (.mstrm 20 21 1, 0, 64, 64, block [(0, 8, 2 ^ 63), (0x10, 4, 1), (0x18, 1, 1)], strmBad, strmOut, 0),
    (.mstrm 20 21 1, 0, 64, 64, block [(0, 8, 2 ^ 63), (0x10, 4, 0), (0x18, 1, 1)], strmBad, strmOut, 1),
    (.mstrm 20 21 1, 0, 64, 64, marver (block [(0, 8, 2 ^ 63 + 1024), (0x10, 4, 1), (0x18, 1, 1)]) fun m => { m with staRec := ⟨4, 1, 0, none⟩ },
      strmBad, strmOut, 2),
    (.mdrain 20 21, 0, 64, 64, block [(0, 8, 2 ^ 63), (0xC, 1, 1), (0x10, 2, 1), (0x14, 2, 1)], drainBad,
      fun c o => c.extentOut (fieldAt o.block 0 8) [0, ((fieldAt o.block 0x10 2 - 1 : Nat) : Int) * signedOf 32 (fieldAt o.block 8 4)]
          (fieldAt o.block 0x14 2 * (if fieldAt o.block 0xC 1 = 1 then 4 else 2)), 0),
    (.mdrain 20 21, 0, 64, 64, block [(0, 8, 2 ^ 63), (0xC, 1, 4), (0x10, 2, 1), (0x14, 2, 1)], drainBad, fun _ _ => none, 1),
    (.mdrain 20 21, 0, 64, 64, block [(0, 8, 2 ^ 63 + 1024), (0xC, 1, 1), (0x10, 2, 1), (0x14, 2, 1)], drainBad,
      fun c o => c.extentOut (fieldAt o.block 0 8) [0, ((fieldAt o.block 0x10 2 - 1 : Nat) : Int) * signedOf 32 (fieldAt o.block 8 4)]
          (fieldAt o.block 0x14 2 * (if fieldAt o.block 0xC 1 = 1 then 4 else 2)), 2),
    (.mprm 20 21, 0, 16, 16, block [(0, 8, 2 ^ 63), (8, 4, 128), (0xC, 1, 3)], prmBad,
      fun c o => c.extentOut (fieldAt o.block 0 8) [0] (4 * fieldAt o.block 8 4), 0),
    (.mprm 20 21, 0, 16, 16, block [(0, 8, 2 ^ 63), (8, 4, 129), (0xC, 1, 3)], prmBad, fun _ _ => none, 1),
    (.mprm 20 21, 0, 16, 16, block [(0, 8, 2 ^ 63 + 1020), (8, 4, 128), (0xC, 1, 3)], prmBad,
      fun c o => c.extentOut (fieldAt o.block 0 8) [0] (4 * fieldAt o.block 8 4), 2),
    (.mwave 20 21, 2, 64, 320, ruled (block [(0, 4, 1), (4, 4, 1), (8, 4, 1)]) false, (fun c => waveBad c false), waveOut, 0),
    (.mwave 20 21, 2, 64, 320, block [(0, 4, 1), (4, 4, 1), (8, 4, 1)], (fun c => waveBad c false), waveOut, 1),
    (.mwave 20 21, 2, 64, 320, ruled (block [(0, 4, 1), (4, 4, 1), (8, 4, 1), (0x10, 8, 2 ^ 63 + 1024)]) false, (fun c => waveBad c false), waveOut, 2),
    (.mback 20 21, 2, 64, 320, ruled (block [(0, 4, 1), (4, 4, 1), (8, 4, 1), (0x70, 8, 2 ^ 63)]) true, (fun c => waveBad c true), waveOut, 0),
    (.mback 20 21, 2, 64, 320, ruled (block [(0, 4, 1), (4, 4, 1), (8, 4, 1)]) true, (fun c => waveBad c true), waveOut, 1),
    (.mback 20 21, 2, 64, 320, ruled (block [(0, 4, 1), (4, 4, 1), (8, 4, 1), (0x70, 8, 2 ^ 63 + 1024)]) true, (fun c => waveBad c true), waveOut, 2)] :
      List (Instr × Nat × Nat × Nat × State × (Crew → MOp → List (Nat × Bool)) × (Crew → MOp → Option Nat) × Nat)).all
    (fun ⟨i, feat, align, size, s, bad, out, kind⟩ =>
      let o : MOp := ⟨0, codeOf i, 0, none, 0, false, s.crew.scrBytes 0 128 size, if codeOf i = 4 then 1 else 0, 0, 0, .queued, false, []⟩
      engOk s i true feat 21 true && !s.crew.marver.stopped &&
      (match s.ref (s.sreg 20) (encode i) 1 align false with
        | .ok r => r == ⟨0, 128⟩ && decide (r.off + size ≤ s.crew.sizeOf r)
        | .error _ => false) && !s.crew.scrPoison 0 128 size && (((bad s.crew o).any fun e => e.2) == (kind == 1)) &&
      (kind == 1 || (out s.crew o).isSome == (kind == 2))) = true := by decide +kernel

/-- The Marver with a stopped operation. -/
def stopped (eop step : Nat) (bar : Option ScrRef) : State :=
  marver (with2 (gaffer base) 32 0) fun m => { m with queue := [mop 7 eop step .stopped bar], mst := BitVec.ofNat 32 (0x4000 + step * 2 ^ 19) }

/-- Each engine instruction with an operation stopped; MRULE of a good image and of a bad one, to slots 15 and 16, with an empty
and a full queue; MCFG of good and reserved codes; MWAIT and MFENCE with and without an operation of the thread; MSTEP's forms.
-/
theorem witness_MarverControl : (gaffer base).crew.key ≠ CrewKey.none ∧
    (let s := stopped 4 32 none;
      s.crew.marver.stopped = true ∧ ([.mrule 20 21, .mcfg 22 20, .mwait 22, .mfence 22, .mstep 22, .mstepRes 22, .mstepResat 22 20, .mstepDis 22] :
        List Instr).all (fun i => engOk s i false 0 0 true) = true ∧
      ([.mswap 0, .mzero 0, .mred 0 1, .mtrn 20 0, .mstat 20 0, .mstrm 20 0 0, .mdrain 20 0, .mprm 20 0, .mwave 20 0, .mback 20 0] : List Instr).all
        (fun i => engOk s i true (if i = .mwave 20 0 ∨ i = .mback 20 0 then 2 else 0) 0 true) = true ∧
      (s.crew.marver.queue.find? fun x => x.state == .stopped).isSome = true ∧ bitsOf s.crew.marver.mst.toNat 31 19 = 32 ∧
      (s.sreg 20).toNat ≤ 32 ∧ ((s.putS 20 33).sreg 20).toNat = 33) ∧
    (let img := ([0x6C000000, 0x301A6800, 0x0502E800, 0x2CCEB000, 0x058AE800, 0x04956800, 0x1E5E5000, 0, 0, 1, 1, 0, 0, 0, 0,
        0] : List Nat).flatMap (leBytes 4);
      let put (bs : List Byte) (slot : DWord) : State := scrPut (with2 (gaffer base) 0x400000040 slot) 64 64 (leNat bs);
      (badRule img = none ∧ (badRule (leBytes 64 (2 ^ 500))).isSome = true ∧
      ([(img, 15), (img, 16), (leBytes 64 (2 ^ 500), 0)] : List (List Byte × DWord)).all (fun e => ([[], [mop 0 8 0 .queued none]] : List (List MOp)).all fun q =>
        let s := marver (put e.1 e.2) fun m => { m with queue := q }
        engOk s (.mrule 20 21) false 0 0 true && !s.crew.marver.stopped && s.crew.scrBytes 0 64 64 == e.1 &&
        !s.crew.scrPoison 0 64 64 && (match s.ref (s.sreg 20) (encode (.mrule 20 21)) 1 4 false with
          | .ok r => r == ⟨0, 64⟩ && decide (r.off + 64 ≤ s.crew.sizeOf r)
          | .error _ => false)) = true)) ∧
    ([0, 1, 3, 4, 9, 10, 0x7F, 0x80] : List DWord).all (fun v => let s := with2 (gaffer base) v 0; ([0, 20] : List (BitVec 5)).all fun a =>
      engOk s (.mcfg 22 a) false 0 0 false && !s.crew.marver.stopped) = true ∧
    ([[], [mop 0 8 0 .queued none], [{ mop 0 8 0 .queued none with thread := 0 }]] : List (List MOp)).all (fun q =>
      let s := marver (gaffer base) fun m => { m with queue := q }
      ([.mwait 22, .mfence 22, .mstep 22, .mstepRes 22, .mstepResat 22 20, .mstepDis 22] : List Instr).all fun i => engOk s i false 0 0 true &&
        !s.crew.marver.stopped) = true ∧
    (stopped 4 32 (some ⟨0, 64⟩)).crew.gangs.length = 1 := by decide +kernel

/-- An operation of the queue that starts, one behind another, a MTRN at its first and at its last drain point, and operations that
have run to their end: without a barrier, with one that has arrivals left, and with a poisoned one. -/
theorem witness_MarverOperations :
    let m0 (q : List MOp) : State := marver (barred 1 0 false) fun m => { m with queue := q, mst := 31 }
    let m1 (q : List MOp) : State := marver (barred 1 0 true) fun m => { m with queue := q, mst := 31 }
    ([(m0 [mop 7 3 0 .queued none], mop 7 3 0 .queued none), (m0 [mop 7 8 0 .queued none], mop 7 8 0 .queued none),
      (m0 [mop 6 4 0 .running none, mop 7 3 0 .queued none], mop 7 3 0 .queued none), (m0 [mop 7 9 0 .running none], mop 7 9 0 .running none),
      (m0 [mop 7 9 112 .running none], mop 7 9 112 .running none), (m0 [mop 7 9 128 .running none], mop 7 9 128 .running none),
      (m0 [mop 7 8 1 .running (some ⟨0, 32⟩)], mop 7 8 1 .running (some ⟨0, 32⟩)),
      (m1 [mop 7 8 1 .running (some ⟨0, 32⟩)], mop 7 8 1 .running (some ⟨0, 32⟩))] : List (State × MOp)).all (fun e =>
      let s := e.1
      s.crew.key != CrewKey.none && s.ctx.id == s.crew.key.ctx && s.ctx.id != CtxId.none &&
      decide (s.crew.marver.queue.find? (fun x => x.id == e.2.id) = some e.2) && s.crew.area.isNone && formed s &&
      !s.crew.marver.stopped && s.crew.marver.mst.toNat % 2 ^ 5 == 31) = true := by decide +kernel

/-- One running operation of the Marver in front, with its block. -/
def running (eop step : Nat) (bs : List Byte) (s : State := base) : State × MOp :=
  let o : MOp := { mop 7 eop step .running none with block := bs }
  (marver s fun m => { m with queue := [o], mst := 0 }, o)

/-- `State.Running` as a test. -/
def runs (e : State × MOp) : Bool :=
  e.1.crew.key != CrewKey.none && e.1.ctx.id == e.1.crew.key.ctx && e.1.ctx.id != CtxId.none &&
  decide (e.1.crew.marver.queue.find? (fun x => x.id == e.2.id) = some e.2) && e.2.state == .running && !e.2.failed &&
  decide (e.2.step < e.2.total)

/-- Blocks of MPRM, MSTAT, MSTRM and MDRAIN, with sub-position, format or flags. -/
def prmBlock (ea : Nat) : List Byte := leBytes 8 ea ++ leBytes 4 1 ++ leBytes 4 0
def statBlock (ea k n fmt mode : Nat) : List Byte :=
  leBytes 8 ea ++ leBytes 8 256 ++ leBytes 4 k ++ leBytes 4 n ++ leBytes 4 64 ++ leBytes 1 fmt ++ leBytes 1 mode ++ zeros 34
def strmBlock (ea fmt : Nat) : List Byte := leBytes 8 ea ++ leBytes 8 256 ++ leBytes 4 64 ++ leBytes 4 64 ++ leBytes 1 fmt ++ zeros 39
def drainBlock (ea fmt flags : Nat) : List Byte :=
  leBytes 8 ea ++ leBytes 4 16 ++ leBytes 1 fmt ++ leBytes 1 flags ++ leBytes 2 3 ++ leBytes 2 2 ++ leBytes 2 5 ++ leBytes 2 2 ++ zeros 42

/-- The second GiB of the small machine: the first one again, in a format. -/
def formatted (fmt geom : Nat) : State := base.putBytes 0x12008 (leBytes 8 (0xF0DF + fmt * 2 ^ 52 + geom * 2 ^ 58))

/-- An operation that may start, of each kind of start, and one at a drain point; a step that ends, one that waits on its page and
one that fails. -/
theorem witness_MarverRuns :
    ([([], 2), ([mop 6 2 0 .running none], 4), ([], 7)] : List (List MOp × Nat)).all (fun e =>
      let o := mop 7 e.2 0 .queued none
      let s := marver base fun m => { m with queue := e.1 ++ [o] }
      s.crew.area.isNone && !s.crew.marver.stopped && decide (s.crew.marver.queue.find? (fun x => x.id == o.id) = some o)) = true ∧
    ([(prmBlock (2 ^ 63), 0), (prmBlock 0x7FFF0000, 1), (prmBlock (2 ^ 63 + 1024), 2)] : List (List Byte × Nat)).all (fun e =>
      let r := running 10 0 e.1
      runs r && r.2.keys.isEmpty && r.1.crew.marver.queue == [r.2] && (match r.1.nextStep r.2 with
        | (t, .done _ n) => e.2 == 0 && n == 1 && t.crew.key == r.1.crew.key
        | (t, .wait ks) => e.2 == 1 && !ks.isEmpty && t.crew.key == r.1.crew.key
        | (t, .fail) => e.2 == 2 && t.crew.key == r.1.crew.key && t.crew.marver == r.1.crew.marver)) = true := by decide +kernel

/-- A scratchpad extent, a raw page, a page that is not there, and elements of pages in formats with and without scales, of a scale
of 0, 1 and 255. -/
theorem witness_MarverReads :
    (let c := base.crew; (2 ^ 63 : Nat) / 2 ^ 32 % 4 = 0 ∧ c.sizeOf ⟨0, 0⟩ = 1024) ∧
    ([(formatted 0 0, 0x40000), (formatted 0x24 1, 0x40040000), (base, 0x7FFF0000)] : List (State × Nat)).all (fun e =>
      match e.1.translate e.1.ctx .read e.2 with
        | (s1, .ok pa a) => formatOk a.fmt a.geom && (List.range 4).all fun i => (match canonical (pa + i) with
          | some ca => !s1.poisonedAt ca
          | none => false)
        | (_, .absent) => e.2 == 0x7FFF0000
        | _ => false) = true ∧
    (match base.engBytes base.crew base.ctx (2 ^ 63) 0 8 with
      | (_, .ok bs) => bs.length == 8
      | _ => false) = true ∧
    ([(0, 0), (0x24, 0), (0x24, 1)] : List (Nat × Nat)).all (fun e => ([0, 1, 255] : List Nat).all fun sc =>
      let s0 := formatted e.1 e.2
      let at_ := samePage 0 0x40000 0x40000 (31 * (2 ^ 30 / 32) + blockIndex e.2 0x40000)
      let s := s0.putBytes ((canonical at_).getD 0) [BitVec.ofNat 8 sc]
      match s.engAt s.crew.socket s.ctx .read srcMarver 0x40040000 with
        | (s1, .ok pa ca a) => a.fmt == e.1 && a.geom == e.2 && a.size == 2 ^ 30 && (canonical (samePage a.ilv pa 0x40000
            (31 * (a.size / 32) + blockIndex a.geom 0x40000)) == canonical at_) && (canonical at_).isSome &&
          !s1.poisonedAt ((canonical at_).getD 0) && (e.2 == 0 || s1.byteAt ((canonical at_).getD 0) == BitVec.ofNat 8 sc) && ca != 0
        | _ => false) = true := by decide +kernel

/-- A NaN, an infinity, a zero, and the ends of the finite range. -/
theorem witness_MarverWeights : (0x7F800000 < 0xFFC00001 % 2 ^ 31 ∧ 0xFFC00001 < 2 ^ 32) ∧
    (let z : Machine.Num := .fin true (2 ^ 24 - 1) 104
     (∃ n m e, z = .fin n m e ∧ m ≠ 0 ∧ m < 2 ^ 24 ∧ (-512 : Int) ≤ e + Nat.log2 m ∧ e + Nat.log2 m < (512 : Int))) ∧
    fp32.unpack 0x80000000 = .fin true 0 (-149) ∧ fp32.unpack 0xFF800000 = .inf true := by
  refine ⟨by decide, ⟨true, 2 ^ 24 - 1, 104, rfl, by decide, by decide, by decide +kernel, by decide +kernel⟩, by decide, by decide⟩

/-- A tile of a stated format in the scratchpad, one too tall for its class, and one that crosses into a page of another class. -/
theorem witness_MarverTile :
    ([(base, statBlock (2 ^ 63) 2 3 1 1, 0), (base, statBlock (2 ^ 63) 200 1 1 0, 1),
      (formatted 0x24 0, statBlock 0x3FFFFFC0 2 1 0 0, 2)] : List (State × List Byte × Nat)).all (fun e =>
      let r := running 2 0 e.2.1 e.1
      let s := r.1
      let es := 4
      let k := fieldAt e.2.1 0x10 4
      let fmt := fieldAt e.2.1 0x1C 1
      runs r && (match s.engClass s.crew s.ctx fmt (fieldAt e.2.1 0 8) with
        | (s1, .ok cls) => cls == 2 && (e.2.2 == 1) == decide (128 < k) && (e.2.2 == 1 ||
            (match engMap (fun (t : State) (i : Nat) => t.engElems s.crew s.ctx fmt es (fieldAt e.2.1 0 8)
                ((i / k : Nat) * signedOf 64 (fieldAt e.2.1 8 8) + (i % k : Nat) * signedOf 32 (fieldAt e.2.1 0x18 4))
                (fieldAt e.2.1 0x14 4)) (List.range (2 ^ fieldAt e.2.1 0x1D 1 * k)) s1 with
              | (_, .ok rows) => (rows.any fun x => x.any fun w => w.1 != cls) == (e.2.2 == 2)
              | _ => false))
        | _ => false)) = true := by decide +kernel

/-- STA with a weight of 1 in two cells of column 3, in a mode and of a class. -/
def loadedSta (mode : Nat) (cls : Option Nat) (s : State := base) : State := marver s fun m =>
  { m with sta := [(4 * 3, (Num.fin false 1 0).weight), (4 * (128 + 3), (Num.fin false 1 0).weight)], staRec := ⟨2, 4, mode, cls⟩ }

/-- MSTRM's first row, of STA's class and of another, stated and by the page; a row past the span; MRED. -/
theorem witness_MarverProducts :
    ([(loadedSta 0 (some 2), 4, 0, strmBlock (2 ^ 63) 1, 0), (loadedSta 1 (some 2), 4, 64, strmBlock (2 ^ 63) 1 , 1),
      (loadedSta 0 (some 1), 4, 0, strmBlock (2 ^ 63) 1, 2), (loadedSta 0 (some 2) (formatted 0x24 0), 4, 0, strmBlock 0x40000000 0, 3),
      (loadedSta 2 (some 2), 11, 0, [], 4)] : List (State × Nat × Nat × List Byte × Nat)).all (fun e =>
      let bs := if e.2.2.2.2 = 1 then leBytes 8 (2 ^ 63) ++ leBytes 8 256 ++ leBytes 4 65 ++ zeros 44 else e.2.2.2.1
      let r := running e.2.1 e.2.2.1 bs e.1
      let s := r.1
      let m := s.crew.marver
      runs r && Sparse.wf 0 m.sta && Sparse.wf 0 m.acc && decide (m.staRec.mode ≤ 2) && decide (m.staRec.cls.getD 2 ≤ 2) &&
      (decide (128 / 2 ^ m.staRec.mode ≤ e.2.2.1) == (e.2.2.2.2 == 1)) &&
      (e.2.2.2.2 == 4 || e.2.2.2.2 == 1 || (match engMap (fun (t : State) (h : Nat) => t.engElems s.crew s.ctx (fieldAt bs 0x18 1) 4 (fieldAt bs 0 8)
          ((h : Int) * 256) m.staRec.k) (List.range (2 ^ m.staRec.mode)) s with
        | (_, .ok xs) => (xs.any fun x => x.any fun w => m.staRec.cls != some w.1) == (e.2.2.2.2 == 3 || e.2.2.2.2 == 2)
        | _ => false))) = true := by decide +kernel

/-- A column of one cell: finite, with an infinity, with both, with a NaN; a partial that is a NaN. -/
theorem witness_MarverChains :
    let x : Array Machine.Num := #[.fin false 1 0, .inf false, .nan 0x7FC00000, .fin true 0 0]
    let one : Machine.Num := .fin false 1 0
    ([(0, one)] : List (Nat × Machine.Num)) ≠ [] ∧ x.size = 4 ∧
    (mulNum (.inf false) one = some (.inf false) ∧ mulNum (.inf false) (.fin true 0 0) = none ∧
      mulNum one one = some (.fin false 1 0) ∧ mulNum (.fin true 0 0) one = some (.fin true 0 0)) ∧
    0x7F800000 < (0x7FC00001 : Word).toNat % 2 ^ 31 := by decide

/-- MPRM of an index in the scratchpad; an unloaded cell, and one that holds 1. -/
theorem witness_MarverCopies :
    (let r := running 10 0 (prmBlock (2 ^ 63));
      runs r = true ∧ Sparse.wf 0 r.1.crew.marver.acc = true ∧
      (match r.1.engBytes r.1.crew r.1.ctx (2 ^ 63) 0 4 with
        | (_, .ok bs) => bs.length == 4
        | _ => false) = true) ∧
    (let m := (loadedSta 0 (some 2)).crew.marver;
      (Sparse.get 0 m.sta 0).getLsbD 2 = false ∧ (Sparse.get 0 m.sta (4 * (128 * 1 + 3) + 0)) = (fp32.unpack 0x3F800000).weight ∧
      weightNum (fp32.unpack 0x3F800000).weight = .fin false 0x800000 (-23)) := by decide +kernel

/-- MDRAIN of two rows of two elements, as they are and narrowed, to the scratchpad and to memory. -/
theorem witness_MarverDrain :
    ([drainBlock (2 ^ 63) 1 0, drainBlock 0x40000 2 3] : List (List Byte)).all (fun bs =>
      let r := running 7 0 bs
      let s := r.1
      let n := 2 * (if fieldAt bs 0xC 1 = 1 then 4 else 2)
      runs r && formed s && (match engMap (fun (t : State) (i : Nat) => t.engPlace s.crew s.ctx .write true (fieldAt bs 0 8)
          ((i : Int) * 16) n) (List.range 2) s with
        | (_, .ok ps) => decide ((ps.flatMap fun p => match p with
            | .scr g off => (List.range n).map fun k => (some g, off + k)
            | .mem l => l.map fun b => ((none : Option Nat), b.1)).Nodup) && ps.all fun p => match p with
              | .scr g _ => decide (g < s.crew.gangs.length)
              | .mem l => l.length == n
        | _ => false)) = true := by decide +kernel

/-- One plane of one cell, forward and backward, with a rule of each direction; an operation before the step at which it
resumes. -/
theorem witness_MarverSegments :
    ([(5, false), (6, true)] : List (Nat × Bool)).all (fun e =>
      let r := running e.1 0 (leBytes 4 1 ++ leBytes 4 1 ++ leBytes 4 1 ++ leBytes 4 0 ++ zeros 304) (ruled base e.2)
      let s := r.1
      runs r && (match s.crew.marver.slot 0 with
        | some img => ruleBwd img == e.2
        | none => false) &&
      (match engMap (fun (u : State) (q : Nat × Nat × Nat) => u.waveRead s.crew s.ctx r.2 0 q) [(0, 0, 1), (1, 0, 1)] s with
        | (_, .ok l) => l == [[0], [0]]
        | _ => false) &&
      (match s.wavePuts s.crew s.ctx r.2 [] with
        | (_, .ok _) => true
        | _ => false)) = true ∧
    (let r := running 5 0 (leBytes 4 1 ++ leBytes 4 1 ++ leBytes 4 1 ++ leBytes 4 0 ++ zeros 64 ++ leBytes 8 (2 ^ 63 + 64) ++ zeros 232) (ruled base false)
      let s := r.1
      fieldAt r.2.block (0x10 + 16 * 4) 8 ≠ 0 ∧ formed s = true ∧ 0 < s.crew.gangs.length ∧
      (match s.engPlace s.crew s.ctx .write true (fieldAt r.2.block (0x10 + 16 * 4) 8) 0 8 with
        | (_, .ok p) => p == .scr 0 64
        | _ => false) = true) := by decide +kernel

/-- A plane of one row and one column. -/
theorem witness_MarverWave :
    let o : MOp := { mop 7 5 0 .running none with block := leBytes 4 1 ++ leBytes 4 1 ++ leBytes 4 1 ++ leBytes 4 0 ++ zeros 304 }
    fieldAt o.block 4 4 = 1 ∧ fieldAt o.block 8 4 = 1 ∧ 0 + 1 ≤ 1 ∧ 0 + 1 + o.step = 1 ∧ ([7] : List Word).length = 1 ∧
    ([7, 8] : List Word).length = 1 + 1 ∧ ∀ r ∈ ([[5]] : List (List Word)), r.length = 1 := by decide +kernel

/-- The small machine at a privilege and a trap level, with a number and a value in s20 and s21. -/
def sysAt (pl tl : Nat) (n v : DWord) : State :=
  let s := atTl (with2 base n v) tl true
  { s with ctx := { s.ctx with pl := pl } }

/-- Every level and privilege, at every register that is read, and at numbers that none has. -/
theorem witness_SystemReads : [0, 1, 2].all (fun pl => [0, 1, 2].all fun tl => ([0, 1, 0x10, 0x14, 0x16, 0x20, 0x25, 0x2F, 0x40, 0x43, 0x46, 0x47,
    0x48, 0x80, 0x90, 0x91, 0x98, 0x99, 4096] : List DWord).all fun n =>
      let s := sysAt pl tl n 0
      ready s (.rdsr 22 20) (fsNeeds 0 anyTl) && s.self.seenTl == tl && s.ctx.pl == pl) = true := by decide +kernel

/-- Values that each register takes and refuses, at every level and privilege. -/
theorem witness_SystemWrites : [0, 1, 2].all (fun pl => [1, 2].all fun tl => ([0x10, 0x12, 0x13, 0x14, 0x15, 0x20, 0x25, 0x40, 0x42, 0x43, 0x44,
    0x80, 0x90, 0x91, 0x98] : List DWord).all fun n => ([0, 0x40000, 0x40002, 0x101, 0xFFFFFFFF, 0x100000000, 0x100000000000000] : List DWord).all fun v =>
      let s := sysAt pl tl n v
      ready s (.wrsr 20 21) (fsNeeds 0 anyTl) && s.self.seenTl == tl && !s.self.unit.gaffer) = true ∧
    /- a partition of no die, one that shares a die with another and one that does not -/
    (let s : State := { base with partmap := base.partmap.set 3 0x101 };
      (s.partmap[3].getLsbD 8 = true ∧ s.partmap[3] &&& 0x101#32 &&& 0xFF#32 ≠ 0 ∧ s.partmap[3] &&& 0x102#32 &&& 0xFF#32 = 0)) := by
  decide +kernel

/-- TLBI and XRINV of a live context and of a stale one, by a manager of its partition and at PL2; addresses and counts within the
space, past it, and of 0. -/
theorem witness_Invalidation : ([1, 2] : List Nat).all (fun pl => ([(0x41234, 1), (0x100000000000000, 1), (0x40000, 0), (0xFFFFFFFFFFFFFF, 2)] :
      List (DWord × DWord)).all fun e =>
      let s := sysAt pl 0 e.1 1
      let t := (sysAt pl 0 e.1 e.2).putS 22 1
      ready s (.tlbiPage 22 20 21) (fsNeeds 1 anyTl) && ready s (.tlbiCtx 22 21) (fsNeeds 1 anyTl) && ready t (.xrinv 22 20 21) (fsNeeds 1 anyTl) &&
      decide (s.ctxAt (CtxId.ofNat 1) = some s.ctx) && decide (t.ctxAt (CtxId.ofNat 1) = some t.ctx) && s.ctx.id == CtxId.ofNat 1 &&
      s.self.replay.isEmpty && !s.runsOpen s.ctx.id && !t.runsOpen t.ctx.id && t.crew.key.ctx == t.ctx.id && t.self.run.isNone) = true ∧
    base.ctxAt (CtxId.ofNat 5) = none ∧ ready (sysAt 1 0 0 5) (.tlbiPage 22 20 21) (fsNeeds 1 anyTl) = true ∧
    ready (sysAt 1 0 0 5) (.tlbiCtx 22 21) (fsNeeds 1 anyTl) = true ∧
    /- a store held in the unit's queue, and one in a run -/
    (let s := holding (sysAt 1 0 0x41234 1);
      ready s (.tlbiPage 22 20 21) (fsNeeds 1 anyTl) = true ∧ s.self.replay ≠ [] ∧ s.ctxAt (CtxId.ofNat 1) = some s.ctx) ∧
    (let s0 := (sysAt 1 0 0x41234 1).putS 22 1;
      let s : State := { s0 with crew := { s0.crew with agents := [{ (inRun base).self with unit := ⟨false, 0, 1⟩, run := (inRun base).self.run.map fun r => { r with stores := [⟨none, 0x40000, 0x40000, 1⟩] } }] } };
      ready s (.tlbiPage 22 20 21) (fsNeeds 1 anyTl) = true ∧ ready s (.xrinv 22 20 21) (fsNeeds 1 anyTl) = true ∧ s.self.replay = [] ∧
        s.runsOpen s.ctx.id = true ∧ s.ctxAt (CtxId.ofNat 1) = some s.ctx) := by decide +kernel

/-- A populated range, whole in whole sectors, and one that runs past the memory. -/
theorem witness_CacheFences : ([(0x40000, 256), (0x40000, 0x10000), (0xFFFFFFFFFFFFFF00, 512)] : List (DWord × DWord)).all (fun e =>
      let s := (with2 base e.1 e.2).putBytes 0x40000 [1, 2, 3]
      ([(.cfenceWb 20 21, 1), (.cfenceInv 20 21, 1), (.cfenceDrop 20 21, 2)] : List (Instr × Nat)).all (fun i => ready s i.1 (fsNeeds i.2 anyTl)) &&
      s.self.replay.isEmpty && formed s) = true ∧
    (let s := holding (with2 base 0x40000 256); ready s (.cfenceWb 20 21) (fsNeeds 1 anyTl) = true ∧ s.self.replay ≠ []) ∧
    firstHole 0x40000 256 = none ∧ firstHole 0x40000 0x10000 = none ∧ (firstHole 0xFFFFFFFFFFFFFF00 512).isSome = true := by decide +kernel

/-- A logical cluster in s20, a mask of engines in s21, in a context of two clusters. -/
def engines (l mask : Nat) : State :=
  let s := with2 base (BitVec.ofNat 64 (2 ^ 36 + l * 2 ^ 20)) (BitVec.ofNat 64 mask)
  { s with ctx := { s.ctx with nlc := 2 } }

/-- No mask, masks of each engine, and one beyond them, on the crew's own cluster and on one without a crew. -/
theorem witness_EngineReset : [0, 1].all (fun l => [0, 1, 2, 8, 16, 27, 31, 32].all fun mask =>
      let s := engines l mask
      ready s (.engrst 22 20 21) (fsNeeds 2 anyTl) && decide (2 ≤ s.ctx.pl) && (s.sreg 20).toNat == 2 ^ 36 + l * 2 ^ 20 &&
      decide (l < s.ctx.nlc) && s.crews.isEmpty && s.crew.key != CrewKey.none && s.crew.key.ctx == s.ctx.id && (s.sreg 21).toNat == mask &&
      s.crew.lcl == 0 && !s.self.unit.gaffer && s.self.cur.wait == .none) = true := by decide +kernel

/-- ENGRST of the Blowpipe, with a copy that names a barrier and whose issuer waits on it. -/
theorem witness_EngineResetCopies :
    let c : Copy := ⟨7, 1, zeros 32 ++ leBytes 4 0xFFFFFFFF ++ zeros 28, ⟨0, 64⟩, 0, 0, ⟨false, 0, 1⟩, none, 2, 0, false, []⟩
    let d : Copy := { c with id := 8, place := ⟨0, 256⟩, block := zeros 32 ++ leBytes 4 512 ++ zeros 28 }
    let u : Agent := { Agent.initial ⟨false, 0, 1⟩ Mask.all 0x100000 (Regs.initial 8 0 0 0 0) 0 with
      cur := { Path.empty with mask := Mask.all, pc := 0x100000, wait := .copy 7 0x100040 } }
    let s := engines 0 4
    let t : State := { s with crew := { s.crew with copies := [c, d], agents := [u] } }
    ready t (.engrst 22 20 21) (fsNeeds 2 anyTl) = true ∧ formed t = true ∧ t.crew.lcl = 0 ∧ t.self.unit.gaffer = false ∧
    t.self.cur.wait = .none ∧ c.id ≠ d.id ∧ c.place.off + 0x38 + 4 ≤ d.place.off + 0x38 ∧ c.bar = none ∧
    d.bar = some ⟨0, 512⟩ ∧ d.place.off + 0x30 + 12 ≤ 512 ∧ c.place.off + 0x30 + 12 ≤ 512 ∧ 0 < t.crew.gangs.length ∧
    u.unit = c.issuer ∧ u.cur.wait = .copy c.id 0x100040 := by decide +kernel

/-- A deadline in s20, a queue in s21: 3, with or without an entry, or one that the context does not own. -/
def idler (t : Nat) (q : DWord) (es : List QueueEntry) : State :=
  { with2 (timed base 0 5) (BitVec.ofNat 64 t) q with queues := [⟨3, ⟨1, 0⟩, 2, 0, false, es, 0⟩, ⟨4, ⟨2, 0⟩, 2, 0, false, [], 0⟩] }

/-- IDLE of no event, of each and of both, present or not, issued and held; of a queue of another context, of none and of 4096. -/
theorem witness_IdleWaits : ([0, 1] : List (BitVec 1)).all (fun q => ([0, 1] : List (BitVec 1)).all fun t =>
      ([idler 5 3 [], idler 6 3 [entry], idler 6 3 [], idler 6 4 [], idler 6 9 [], idler 6 4096 []] : List State).all fun s =>
        let i : Instr := .idle 22 20 21 q t
        ready s i (fsNeeds 1 fun tl => tl == 0) &&
        (let h : HeldInsn := ⟨0x100000, Pfx.empty, encode i⟩
          let w : Wait := .idle h (if t = 1 then some (s.sreg 20).toNat else none) (if q = 1 then some (s.sreg 21).toNat else none)
          (match (s.mapCur fun p => { p with wait := w }).focus s.selfKey 0 with
            | some u => u.self.cur.wait == w && u.mayEnd
            | none => false))) = true ∧
    (let s := (idler 5 3 []).mapSelf fun u => { u with cur := { u.cur with wait := .idle ⟨0x100000, Pfx.empty, encode (.idle 22 20 21 1 1)⟩ (some 5) (some 3) } };
      let t : State := { s with crew := { s.crew with area := some (0, true) } };
      (t.focus t.selfKey 0).map State.mayEnd = some false) := by decide +kernel

/-- A context descriptor of the small machine's context, with two logical clusters. -/
def descriptor (id cmap : Nat) : List Byte :=
  leBytes 4 id ++ leBytes 4 (2 + 2 * 65536) ++ leBytes 8 0x10000 ++ leBytes 8 0x200000 ++ leBytes 8 0x300000 ++ leBytes 16 0x3F ++ leBytes 8 0 ++
    leBytes 8 cmap

/-- A bind record. -/
def bindRecord (launch sheet crew ctx lcl prio flags : Nat) : List Byte :=
  leBytes 4 launch ++ leBytes 4 sheet ++ leBytes 4 crew ++ leBytes 4 ctx ++ leBytes 2 lcl ++ [BitVec.ofNat 8 prio, BitVec.ofNat 8 flags] ++
    leBytes 12 0

/-- A context on two clusters, its descriptor and its map in memory. -/
def placed2 : State :=
  let s : State := { base with ctbase := 0x50000, partmap := base.partmap.set 0 0x1FF }
  let s := (s.putBytes 0x50040 (descriptor 1 0x60000)).putBytes 0x60000 (leBytes 4 (2 ^ 31 + 0xF * 2 ^ 20) ++ leBytes 4 (2 ^ 31 + 2 ^ 24 + 0xF * 2 ^ 20))
  { s with ctx := { s.ctx with nlc := 2, cmap := 0x60000 } }

/-- A second crew of that context, on logical cluster 1, with a quantum of 1 ms. -/
def second : Crew :=
  { base.crew with
    key := ⟨⟨1, 0⟩, 3, 0, 1⟩, lcl := 1, cluster := 1, quantum := 1, persist := true
    agents := [Agent.initial ⟨false, 0, 0⟩ Mask.all 0x100040 (Regs.initial 8 1 2 3 0) 0] }

/-- That crew with a FETCHW outstanding, with a save under way, and with an operation of its Marver between two drain points. -/
def fetching (area : Option (Nat × Bool)) : Crew :=
  { second with area := area, fetch := some ⟨⟨false, 0, 0⟩, ⟨0, 64⟩, 0, 0⟩ }

/-- Two crews: the cluster in s20, an area in s21. -/
def crews2 (l area : Nat) : State :=
  { with2 placed2 (BitVec.ofNat 64 (2 ^ 36 + l * 2 ^ 20)) (BitVec.ofNat 64 area) with
    crews := [second], dies := placed2.dies.map fun d => { d with slots := [(16, bindRecord 3 0 1 1 1 0 1)] } }

/-- A save of the crew in front, of the other, and of none; an area that is misaligned; a quantum that is over and one that is
not. -/
theorem witness_Saves : ([crews2 0 0x1000000, crews2 1 0x1000000, crews2 1 0x1000100, { crews2 1 0x1000000 with crews := [] }] : List State).all (fun s =>
      ready s (.ctxsv 22 20 21) (fsNeeds 2 anyTl) && decide (2 ≤ s.ctx.pl) && s.ctx.id != CtxId.none && decide (1 < s.ctx.nlc)) = true ∧
    firstHole 0x1000000 (8 * 2 ^ 20 + 1056 * 1024 * (second.groups * second.gangs.length + second.gaffers)) = none ∧ (crews2 1 0).quiet second = true ∧ second.area = none ∧ (crews2 1 0).ready second = true ∧
    ((crews2 1 0).ready (fetching none) = false ∧ (fetching none).extent = second.extent ∧ (fetching none).key = second.key) ∧
    second.key ≠ (crews2 1 0).crew.key ∧ second.key ≠ CrewKey.none ∧
    ((crews2 1 0).allCrews.find? fun c => c.key == second.key) = some second ∧ (crews2 1 0).crewAt second.key = some second ∧
    ((crews2 1 0).allCrews.filter fun x => x.key.ctx == (crews2 1 0).ctx.id && x.lcl == 1) = [second] ∧
    (second.quantum ≠ 0 ∧ second.since + 16000 * second.quantum ≤ ((timed (crews2 1 0) 0 16000).dieAt second.socket).ptime ∧
      ¬ second.since + 16000 * second.quantum ≤ ((timed (crews2 1 0) 0 15999).dieAt second.socket).ptime) := by decide +kernel

/-- The head of a save area of that context's crew 1 on logical cluster `l`, with gangs and a format. -/
def savedArea (l gangs fmt : Nat) : State :=
  (crews2 1 0x1000000).putBytes 0x1000000 (leBytes 4 1 ++ leBytes 4 1 ++ leBytes 4 3 ++ leBytes 4 0 ++ leBytes 4 1 ++ leBytes 2 l ++
    leBytes 1 gangs ++ leBytes 6 0 ++ leBytes 1 fmt ++ leBytes 2 0 ++ leBytes 16 0x3F ++ leBytes 8 0 ++ leBytes 8 256)

/-- CTXLD of an area of another cluster, of one with more gangs than cores, of another format, and of one that fits. -/
theorem witness_Restores : ([(savedArea 0 1 4, false, true, true), (savedArea 1 5 4, true, false, true), (savedArea 1 1 3, true, true, false),
      (savedArea 1 1 4, true, true, true)] : List (State × Bool × Bool × Bool)).all (fun e =>
      let s := e.1
      let bs := s.physBytes 0x1000000 (s.physNum (0x1000000 + 0x38) 8)
      let u : State := { s with ctx := s.ctxNow s.ctx }
      ready s (.ctxld 22 20 21) (fsNeeds 2 anyTl) && (firstHole 0x1000000 256).isNone &&
      (firstHole 0x1000000 (max 1 (s.physNum (0x1000000 + 0x38) 8))).isNone &&
      (decide (fieldAt bs 0 4 = 1 ∧ fieldAt bs 4 4 = s.ctx.id.word.toNat ∧ fieldAt bs 0x14 2 = 1) == e.2.1) &&
      (match u.mapEntry u.ctx 1 with
        | some m => decide (fieldAt bs 0x16 1 ≤ m.cores.length) == e.2.2.1 && (fieldAt bs 0x1D 1 == 4) == e.2.2.2 &&
          (BitVec.ofNat 128 (fieldAt bs 0x20 16) &&& ~~~u.ctx.feat) == 0 && (!e.2.2.1 || ((s.headerOfCrew u.ctx ⟨s.ctx.id, fieldAt bs 8 4, fieldAt bs 0x0C 4, fieldAt bs 0x10 4⟩).1.fits m
            (areaShape bs (s.headerOfCrew u.ctx ⟨s.ctx.id, fieldAt bs 8 4, fieldAt bs 0x0C 4, fieldAt bs 0x10 4⟩).2)))
        | none => false)) = true := by decide +kernel

/-- A descriptor that R307 refuses. -/
theorem witness_RestoreRefused : (({ savedArea 1 1 4 with ctbase := 0x7000000 } : State).readDescriptor (CtxId.ofNat 1)) = none := by decide +kernel

/-- A save of the crew of logical cluster 1: begun, and written. -/
theorem witness_SaveWrites : (crews2 1 0).crewAt second.key = some second ∧ formed (crews2 1 0) = true ∧ second.key ≠ CrewKey.none ∧
    second.key ≠ (crews2 1 0).crew.key ∧ ((crews2 1 0).allCrews.find? fun x => x.key == second.key) = some second ∧
    (crews2 1 0).ctxAt second.key.ctx = some (crews2 1 0).ctx ∧ (crews2 1 0).ctx.id = second.key.ctx ∧
    firstHole 0x1000000 second.extent = none := by decide +kernel

/-- A name that no crew of the small machine has. -/
theorem witness_RestorePlaces : second.key ≠ CrewKey.none ∧ second.key ≠ base.crew.key ∧ ∀ x ∈ base.crews, x.key ≠ second.key := by
  decide +kernel

/-- Operations at a drain point, between two, waiting on pages, and to complete first. -/
theorem witness_SaveReady :
    let o (eop step : Nat) (block : List Byte) : MOp := { mop 1 eop step .running none with block := block }
    let wide := zeros 8 ++ leBytes 4 64
    ([(o 5 0 wide, true), (o 5 31 wide, false), (o 9 16 [], true), (o 9 17 [], false), (o 2 0 [], false),
      ({ o 2 0 [] with keys := [⟨0, ⟨1, 0⟩, 0, true⟩] }, true)] : List (MOp × Bool)).all (fun e =>
      base.ready ({ second with marver := { second.marver with queue := [e.1] } } : Crew) == e.2) = true ∧
    ({ base with redps := [⟨1, second.key, ⟨0, 0⟩, 4, 5, 0, 0, 0⟩] } : State).ready second = false := by decide +kernel

/-! ### The host, bring-up, events -/

/-- A command packet. -/
def cmd (die opc ctx addr : Nat) (body : List Byte) : Cmd :=
  ⟨die, leBytes 2 opc ++ leBytes 2 (32 + body.length) ++ leBytes 4 77 ++ leBytes 4 ctx ++ leBytes 4 0 ++ leBytes 8 addr ++ leBytes 8 0 ++ body⟩

/-- The small machine after bring-up. -/
def hosted : State := { base with boot := { base.boot with step := 7, ack := some 0x3F, featoff := 0x3F } }

/-- A packet whose header passes. -/
def receives (s : State) (c : Cmd) (opc : Nat) : Bool :=
  (c.die == 8 || c.die == 9) && s.boot.step == 7 && !s.boot.fail && c.opc == opc && c.len == c.bytes.length && decide (32 ≤ c.len) &&
  decide (c.len ≤ 4096) && c.len % 8 == 0 && zeroAt c.bytes 0x0C 4 && zeroAt c.bytes 0x18 8 && decide (c.ctxWord < 2 ^ 20)

/-- WRITE, READ of 8, 0 and 4065 bytes, LAUNCH of a new and a taken number, REMOVE, of a live context and of one that is not. -/
theorem witness_HostAccess : ([1, 5] : List Nat).all (fun x =>
      receives hosted (cmd 8 1 x 0x40000 (leBytes 8 7)) 1 && receives hosted (cmd 9 2 x 0x40000 (leBytes 8 8)) 2 &&
      receives hosted (cmd 8 2 x 0x40000 (leBytes 8 0)) 2 && receives hosted (cmd 8 2 x 0x40000 (leBytes 8 4065)) 2 &&
      receives hosted (cmd 8 0x10 x 0 (leBytes 4 0 ++ leBytes 4 9 ++ leBytes 56 0)) 0x10 && receives hosted (cmd 8 0x11 x 0 []) 0x11 &&
      receives hosted (cmd 8 0x23 x 0 (leBytes 64 0)) 0x23) = true ∧
    (cmd 8 1 5 0 []).ctx ≠ (cmd 8 1 1 0 []).ctx ∧ hosted.ctxAt (cmd 8 1 1 0 []).ctx = some hosted.ctx ∧
    hosted.ctxAt (cmd 8 1 5 0 []).ctx = none ∧ hosted.crews = [] ∧ hosted.ctxs = [] ∧
    (let l := launchOf (cmd 8 0x10 1 0 (leBytes 4 0 ++ leBytes 4 9 ++ leBytes 56 0)).body 8;
      hosted.ctx.launches.any (fun y => y.num == l.num) = false ∧ ([launchAt 9 false].any fun y => y.num == l.num) = true) := by
  decide +kernel

/-- LAUNCH of a kernel whose checks pass, and of one whose checks fail. -/
theorem witness_HostLaunch :
    let s0 := (placed2.putBytes 0x40000 (kernelHeader 1 1 0 64))
    let s : State := { s0 with boot := hosted.boot, ctx := { s0.ctx with loaded := [⟨0x40000, 0⟩] } }
    let b (k : Nat) := leBytes 4 1 ++ leBytes 4 9 ++ leBytes 8 k ++ leBytes 4 1 ++ leBytes 4 1 ++ leBytes 4 0 ++ leBytes 4 0 ++ leBytes 8 0x70000 ++
      leBytes 24 0
    let checked (k : Nat) : Nat :=
      let c := cmd 8 0x10 1 0 (b k)
      (s.checkLaunch (s.ctxNow s.ctx) (launchOf c.body c.die) c.body).2
    receives s (cmd 8 0x10 1 0 (b 0x40000)) 0x10 = true ∧ checked 0x40000 = 0 ∧ checked 0x80000 ≠ 0 := by decide +kernel

/-- A byte of a store that no release at PACKAGE scope has followed, and a byte without one; a store of another unit. -/
theorem witness_HostSees :
    let w (a : AgentKey) : Writer := { base.writer with unit := a }
    let s (a : AgentKey) : State := { base with dirty := [(0x40000, some 9)], unpushed := [⟨0x40000, 5, w a, 0⟩] }
    let other : AgentKey := ⟨⟨⟨1, 0⟩, 3, 0, 1⟩, ⟨false, 0, 0⟩⟩
    (s base.selfKey).unpushed.find? (fun x => x.ca == 0x40000) = some ⟨0x40000, 5, w base.selfKey, 0⟩ ∧
    ((s base.selfKey).unpushed.find? fun x => x.ca == 0x40001) = none ∧ base.selfKey ≠ other ∧
    ((s other).publish 6).unpushed.length = 1 ∧ ((s base.selfKey).publish 6).unpushed = [] := by decide +kernel

/-- A message's fields at both ends of their ranges, with bodies of none, of 32 and of 4,064 bytes. -/
theorem witness_Messages : (0 < 2 ^ 32 ∧ 2 ^ 32 - 1 < 2 ^ 32 ∧ 255 < 256 ∧ 2 ^ 56 - 1 < 2 ^ 56) ∧ ([] : List Byte).length ≤ 4064 ∧
    (zeros 32).length = 32 ∧ (zeros 4064).length ≤ 4064 := by decide +kernel

/-! ### A code object: one native variant of one kernel, whose digest is that of its bytes -/

/-- What stands before the digest, the variant record, and the image. -/
def objHead : List Byte := leBytes 2 1 ++ leBytes 2 1 ++ leBytes 20 0
def objRest : List Byte := leBytes 16 0 ++ leBytes 8 104 ++ leBytes 8 128
def objImage : List Byte := leBytes 4 1 ++ leBytes 124 0
def objBytes : List Byte := objHead ++ leBytes 48 (Config.sha384 objImage).toNat ++ objRest ++ objImage

/-- The object at 0x40000. -/
def objState : State := { hosted with dirty := hosted.dirty ++ (List.range' 0 232).map fun i => (0x40000 + i, some (objBytes.getD i 0)) }

/-- LOADOBJ of it to a region at 0x80000. -/
def objCmd : Cmd := cmd 8 0x23 1 0 (leBytes 8 0x40000 ++ leBytes 8 232 ++ leBytes 8 0x80000 ++ leBytes 8 0x20000 ++ leBytes 32 0)

theorem get_below {β : Type} (d : β) (l m : List (Nat × β)) (a : Nat) (h : ∀ x ∈ m, x.1 ≠ a) :
    Sparse.get d (m ++ l) a = Sparse.get d l a := by
  induction m with
  | nil => rfl
  | cons x t ih =>
    have hx := h x (by simp)
    simp only [List.cons_append, Sparse.get, if_neg hx]
    exact ih fun y hy => h y (by simp [hy])

theorem get_range (b : Nat) (f : Nat → Byte) (n lo i : Nat) (h1 : lo ≤ i) (h2 : i < lo + n) :
    Sparse.get none ((List.range' lo n).map fun k => (b + k, some (f k))) (b + i) = some (f i) := by
  induction n generalizing lo with
  | zero => omega
  | succ n ih =>
    simp only [List.range'_succ, List.map_cons, Sparse.get]
    by_cases h : lo = i
    · rw [if_pos (by omega), h]
    · rw [if_neg (by omega)]; exact ih (lo + 1) (by omega) (by omega)

theorem objBytes_length : objBytes.length = 232 := by decide +kernel

theorem obj_byte (i : Nat) (h : i < 232) : objState.byteAt (0x40000 + i) = objBytes.getD i 0 := by
  have hb : ∀ x ∈ hosted.dirty, x.1 < 0x40000 := by
    have : hosted.dirty.all (fun x => decide (x.1 < 0x40000)) = true := by decide +kernel
    simpa using this
  have hr : objState.dirty.read (0x40000 + i) = some (objBytes.getD i 0) := by
    show Sparse.get none (hosted.dirty ++ _) _ = _
    rw [get_below _ _ _ _ fun x hx => by have := hb x hx; omega]
    exact get_range _ _ _ _ _ (by omega) (by omega)
  simp only [State.byteAt, hr, Option.getD_some]

/-- Bytes of one page of the small machine's table, read by the loader. -/
theorem read_page (s : State) (bs : List Byte) (hw : s.walk s.ctx 0x40000 = .leaf 0xF0DF#64 73728 1073741824)
    (ha : s.byteAt 73728 = s.byteAt 73728 ||| 0x40) (h0 : s.tlbHit s.ctx.id 0x40000 = none) (hq : s.pois = [])
    (hn : bs.length = 232) (hb : ∀ i < 232, s.byteAt (0x40000 + i) = bs.getD i 0) :
    ∃ q, s.virtRead s.ctx 0x40000 232 = (q, some bs) := by
  have hc : checkLeaf .read 0xF0DF#64 1073741824 0x40000 = .ok 0x40000 (leafAttr 0xF0DF#64 1073741824) := by decide +kernel
  have hp : placeBytes 0x40000 0x40000 232 (leafAttr 0xF0DF#64 1073741824) =
      some ((List.range 232).map fun k => (0x40000 + k, 0x40000 + k, leafAttr 0xF0DF#64 1073741824)) := by decide +kernel
  have hs : s.setAD 73728 (AccKind.read == .write) = s := by
    simp only [State.setAD]; rw [if_neg (show ¬ ((AccKind.read == .write) = true) by decide), if_pos ha]
  have ht : s.translate s.ctx .read 0x40000 =
      (s.fillTlb ⟨s.ctx.id, 0, 1073741824, 0xF0DF#64⟩, .ok 0x40000 (leafAttr 0xF0DF#64 1073741824)) := by
    simp only [State.translate, h0, State.translateWalk, hw, hc, hs]
    rfl
  have hmin : min 232 (65536 - 0x40000 % 65536) = 232 := by decide
  have hv : State.virtSpan s.ctx .read 2 0x40000 232 s = (s.fillTlb ⟨s.ctx.id, 0, 1073741824, 0xF0DF#64⟩,
      some ((List.range 232).map fun k => (0x40000 + k, 0x40000 + k, leafAttr 0xF0DF#64 1073741824))) := by
    simp only [State.virtSpan, ht]
    rw [if_neg (by decide), if_neg (by decide)]
    simp only [hmin, hp, Nat.sub_self, if_pos, List.append_nil]
  refine ⟨s.fillTlb ⟨s.ctx.id, 0, 1073741824, 0xF0DF#64⟩, ?_⟩
  have h2 : 232 / 65536 + 2 = 2 := by decide
  simp only [State.virtRead, h2, hv]
  have hpo : ∀ t ca, (s.fillTlb t).poisonedAt ca = false := fun t ca => by
    show s.pois.contains _ = false
    rw [hq]; rfl
  rw [if_neg (by simp only [hpo]; simp)]
  have hl : (s.fillTlb ⟨s.ctx.id, 0, 1073741824, 0xF0DF#64⟩).spanBytes
      ((List.range 232).map fun k => (0x40000 + k, 0x40000 + k, leafAttr 0xF0DF#64 1073741824)) = bs := by
    apply List.ext_getElem
    · simp [State.spanBytes, hn]
    · intro j h1 h2
      have h3 : j < 232 := by omega
      simp only [State.spanBytes, List.getElem_map, List.getElem_range]
      refine (hb j h3).trans ?_
      rw [List.getD_eq_getElem?_getD, List.getElem?_eq_getElem h2, Option.getD_some]
  rw [hl]

theorem obj_read : ∃ q, objState.virtRead objState.ctx 0x40000 232 = (q, some objBytes) :=
  read_page objState objBytes (by decide +kernel) (by decide +kernel) (by decide +kernel) rfl objBytes_length obj_byte

/-- The object as the loader parses it. -/
theorem obj_parse : objectOf objBytes = some ⟨leNat (leBytes 48 (Config.sha384 objImage).toNat), [⟨0, objImage⟩], []⟩ := by
  have h1 : fieldAt objBytes 2 2 = 1 := by decide +kernel
  have h2 : objBytes.drop (0x48 + 32 * 1) = objImage := by rfl
  have h3 : slice objBytes 0x18 48 = leBytes 48 (Config.sha384 objImage).toNat := by rfl
  have h4 : ¬ (objBytes.length < 0x48 + 32 * 1 ∨ fieldAt objBytes 0 2 ≠ 1 ∨ 64 < 1 ∨ (!zeroAt objBytes 4 4) = true) := by decide +kernel
  have h5 : ((List.range 1).mapM fun i =>
      (partOf objBytes (fieldAt objBytes (0x48 + 32 * i + 16) 8) (fieldAt objBytes (0x48 + 32 * i + 24) 8)).map fun b =>
        (⟨BitVec.ofNat 128 (fieldAt objBytes (0x48 + 32 * i) 16), b⟩ : Variant)) = some [⟨0, objImage⟩] := by decide +kernel
  have h6 : partOf objBytes (fieldAt objBytes 8 8) (fieldAt objBytes 0x10 8) = some [] := by decide +kernel
  simp only [objectOf, h1, h2, h3]
  rw [if_neg h4, if_neg (by simp), h5, h6]

/-- LOADOBJ of the object meets every premise. -/
theorem witness_HostLoad : ∃ (q t : State) (im y : Image),
    let o : CodeObject := ⟨leNat (leBytes 48 (Config.sha384 objImage).toNat), [⟨0, objImage⟩], []⟩
    let x := objState.ctx
    receives objState objCmd 0x23 = true ∧ objCmd.addr = 0 ∧ objState.ctxAt objCmd.ctx = some x ∧ objCmd.body.length = 64 ∧
    zeroAt objCmd.body 0x20 32 = true ∧ fieldAt objCmd.body 0x10 8 = 0x80000 ∧ fieldAt objCmd.body 0x18 8 = 0x20000 ∧
    objState.virtRead x (fieldAt objCmd.body 0 8) (fieldAt objCmd.body 8 8) = (q, some objBytes) ∧ objectOf objBytes = some o ∧
    (chosenImage x o (x.choose o)).1 = some im ∧ im.text.length = 0 ∧ im.data.length ≤ 0x10000 ∧ im.relocate 0x90000 0x90000 = some y ∧
    State.storeAll x [(0x80000, y.heads.flatMap (placeHead 0x90000)), (0x90000, y.text), (0x90000, y.data)] objState = (t, true) := by
  obtain ⟨q, hq⟩ := obj_read
  have h : (State.storeAll objState.ctx [(0x80000, [zeros 64].flatMap (placeHead 0x90000)), (0x90000, []), (0x90000, [])] objState).2 = true := by
    decide +kernel
  have hx : objState.ctxAt objCmd.ctx = some objState.ctx := by decide +kernel
  have hc : (chosenImage objState.ctx ⟨leNat (leBytes 48 (Config.sha384 objImage).toNat), [⟨0, objImage⟩], []⟩ 0).1 =
      some ⟨0, [zeros 64], [], [], []⟩ := by decide +kernel
  refine ⟨q, _, ⟨0, [zeros 64], [], [], []⟩, ⟨0, [zeros 64], [], [], []⟩, by decide +kernel, by decide +kernel, hx, by decide +kernel,
    by decide +kernel, by decide +kernel, by decide +kernel, hq, obj_parse, hc, rfl, by decide, by decide +kernel, Prod.ext rfl h⟩

/-- An entry of a bind list. -/
def listEntry (name oid : Nat) : List Byte := leBytes 16 name ++ leBytes 4 oid ++ leBytes 12 0

/-- After bring-up, with names, an object and a queue of the context. -/
def registry : State := { hosted with punty := (withObject 0).punty, queues := [⟨3, ⟨1, 0⟩, 20, 0, false, [entry], 3⟩] }

/-- The body of a PODCFG. -/
def podBody (part parent : Nat) : List Byte :=
  leBytes 2 part ++ leBytes 1 parent ++ leBytes 5 0 ++ leBytes 4 0xF ++ leBytes 4 5 ++ leBytes 4 1 ++ leBytes 4 0 ++ leBytes 512 0x181

/-- REGCTX of a TAG of 0, a taken one, a set beyond the acknowledged one and a good one; REGOBJ good and bad; BIND that passes and
that does not; QCONF of a free and of a taken number, within and beyond its capacity; PODCFG with a parent and without. -/
theorem witness_HostRegistry :
    ([descriptor 0x1000 0, descriptor 1 0, descriptor 5 0, leBytes 4 5 ++ (descriptor 5 0).drop 4 |>.take 32 |>.append (leBytes 32 0x80)] :
      List (List Byte)).all (fun b => receives registry (cmd 8 0x20 0 0 b) 0x20 && b.length == 64 && decide (fieldAt b 0 4 < 2 ^ 20)) = true ∧
    (BitVec.ofNat 128 (fieldAt (descriptor 5 0) 0x20 16) &&& ~~~registry.boot.ack.getD 0 = 0) ∧
    (BitVec.ofNat 128 0x80 &&& ~~~registry.boot.ack.getD 0 ≠ 0) ∧ (∀ y ∈ registry.allCtxs, y.id.tag ≠ (CtxId.ofNat 5).tag) ∧
    ([(7, 2 ^ 56 - 8, 8), (7, 2 ^ 56 - 8, 9), (3, 0, 8), (0, 0, 8)] : List (Nat × Nat × Nat)).all (fun e =>
      receives registry (cmd 8 0x21 1 0 (leBytes 4 e.1 ++ leBytes 4 0 ++ leBytes 8 e.2.1 ++ leBytes 8 e.2.2)) 0x21) = true ∧
    ([(96, 3, true), (98, 3, false), (99, 3, true), (96, 9, false), (97, 0, true)] : List (Nat × Nat × Bool)).all (fun e =>
      let b := leBytes 4 1 ++ leBytes 28 0 ++ listEntry e.1 e.2.1
      receives registry (cmd 8 0x22 1 0 b) 0x22 && b.length == 32 + 32 * fieldAt b 0 4 && (match bindList b with
        | some l => (registry.punty.checkList ⟨1, 0⟩ true [] 0 0 l).isNone == e.2.2
        | none => false)) = true ∧
    ([(3, 10, 1, 0), (4, 10, 11, 1), (4095, 2 ^ 24 - 1, 10, 1), (4, 0, 0, 0)] : List (Nat × Nat × Nat × Nat)).all (fun e =>
      receives registry (cmd 9 0x30 1 0 (leBytes 4 e.1 ++ leBytes 4 e.2.1 ++ leBytes 4 e.2.2.1 ++ leBytes 4 e.2.2.2)) 0x30) = true ∧
    ([podBody 4095 0xFF, podBody 7 3] : List (List Byte)).all (fun b => receives registry (cmd 8 0x41 0 0 b) 0x41 && b.length == 536 &&
      decide (fieldAt b 0 2 < 4096) && zeroAt b 3 5 && (fieldAt b 12 4 &&& fieldAt b 8 4) == fieldAt b 12 4 &&
      (fieldAt b 2 1 == 0xFF || (fieldAt b 8 4).testBit (fieldAt b 2 1))) = true ∧
    registry.ctxAt (cmd 8 0x21 1 0 []).ctx = some registry.ctx ∧ registry.punty.objs.length < 262143 ∧ registry.binders ⟨1, 0⟩ 96 = [] := by decide +kernel

/-- The part at a step of bring-up. -/
def booting (step : Nat) : State := { State.reset with boot := { State.reset.boot with step := step, featoff := 0x3F, ack := if step = 7 then some 1 else none } }

/-- The body of a FEATNEG. -/
def featBody (op ack : Nat) : List Byte := leBytes 4 op ++ leBytes 4 0 ++ leBytes 16 ack ++ leBytes 48 0xABCD

/-- Step 1; a WRITE to the staging buffer that ends it, that does not and that runs past it; steps 3 to 6; FEATNEG that asks and
that commits, at steps 6 and 7. -/
theorem witness_BringUp : State.reset.boot.step = 1 ∧ State.reset.boot.fail = false ∧ (booting 3).boot.step ≠ 1 ∧
    ([(0, 12), (8, 5), (2 ^ 28 - 8, 8), (2 ^ 28 - 4, 8)] : List (Nat × Nat)).all (fun e =>
      let c := cmd 8 1 0 e.1 (leBytes 8 e.2)
      c.opc == 1 && c.ctxWord == 0 && c.len == c.bytes.length && decide (32 ≤ c.len) && decide (c.len ≤ 4096) && c.len % 8 == 0 &&
      zeroAt c.bytes 0x0C 4 && zeroAt c.bytes 0x18 8 && (booting 3).boot.step == 3 && !(booting 3).boot.fail) = true ∧
    (let b := (booting 3).boot.write 0 (leBytes 8 8); b.covers 4 = true ∧ b.len ≤ 2 ^ 28 ∧ b.covers (max 4 b.len) = true) ∧
    ((booting 3).boot.write 8 (leBytes 8 5)).covers 4 = false ∧
    ([3, 4, 5, 6] : List Nat).all (fun n => (booting n).boot.step == n && !(booting n).boot.fail) = true ∧
    ([1, 2, 4] : List Nat).all (fun n => let b := { (booting n).boot with fail := true }; b.step == n && b.fail) = true ∧
    ([(6, 0, 0), (6, 1, 3), (7, 0, 0), (7, 1, 1)] : List (Nat × Nat × Nat)).all (fun e =>
      let c := cmd 8 0x40 0 0 (featBody e.2.1 e.2.2)
      let s := booting e.1
      c.opc == 0x40 && c.addr == 0 && c.ctxWord == 0 && c.len == c.bytes.length && c.len == 104 && zeroAt c.bytes 0x0C 4 &&
      zeroAt c.bytes 0x18 8 && zeroAt c.body 4 4 && s.boot.step == e.1 && (s.boot.ack.isSome == (e.1 == 7)) &&
      (BitVec.ofNat 128 (fieldAt c.body 8 16) &&& ~~~s.boot.featoff) == 0) = true := by decide +kernel

/-- Every window at its last register and value. -/
theorem witness_RegisterWindows : 7 < 8 ∧ 11 < 12 ∧ 47 < 48 ∧ (0xFFFFFFFF : Nat) < 2 ^ 32 ∧ base.hub.held = [] ∧
    (let w : OrdWork := ⟨base.selfKey, 7, [4095], ⟨1, 0⟩, .write 0x40000 7⟩;
      let s : State := { base with work := [w] };
      s.work = [w] ∧ w.dests = [4095] ∧ w.die < 8 ∧ (0x1FFFF : Nat).testBit 16 = true ∧ (0xFFFF : Nat).testBit 16 = false) ∧
    (({ base with dies := base.dies.set! 7 { base.dieAt 7 with rejected := [(11, 15), (11, 0)] } } : State).dieAt 7).rejected = [(11, 15), (11, 0)] := by
  decide +kernel

/-- A slot's record at the last slot of the last cluster, and the last window of each kind. -/
theorem witness_WindowReads : (3 < 4 ∧ 31 < 32 ∧ 9 < 10) ∧
    (let s : State := { base with dies := base.dies.set! 7 { base.dieAt 7 with slots := [(16 * 11 + 15, bindRecord 9 0 1 1 1 0 1)] } };
      ((s.dieAt 7).slots.find? fun e => e.1 == 16 * 11 + 15) = some (16 * 11 + 15, bindRecord 9 0 1 1 1 0 1)) := by decide +kernel

/-- A die whose Lehr sends to queue 3 and hears from queue 4, with what it has gathered, and a parked split. -/
def lehr (pt : Nat) (batch : List FaultRec) (es : List QueueEntry) (w : Wait) : State :=
  let m : MergeEntry := ⟨⟨0, ⟨1, 0⟩, 0x40000, false⟩, true, 0, 1⟩
  let s : State := { base with
    dies := base.dies.set! 0 { base.dieAt 0 with
      lehrq := 0x80040003, ptime := pt, batch := batch, batchAt := 0, merge := if es = [] then [] else [m] }
    queues := [⟨3, ⟨1, 0⟩, 2, 1, false, [], 0⟩, ⟨4, ⟨1, 0⟩, 10, 0, false, es, 0⟩] }
  s.mapCur fun p => { p with wait := w }

/-- A reply of the fault path. -/
def replyEntry (act : Nat) : QueueEntry := ⟨leBytes 8 0x40000 ++ leBytes 4 1 ++ leBytes 4 1 ++ leBytes 1 act ++ leBytes 15 0, none, 0⟩

/-- The fault queue of `lehr` with no room, and its Lehr with a range record that waits. -/
def lehrFull (s : State) (full : Bool) : State :=
  { s with
    queues := (if full then [⟨3, ⟨1, 0⟩, 1, 1, false, [], 0⟩] else [⟨3, ⟨1, 0⟩, 2, 1, false, [], 0⟩] : List TaskQueue) ++ s.queues.drop 1
    dies := if full then s.dies else s.dies.set! 0 { s.dieAt 0 with flushing := [zeros 32] } }

/-- A due batch, one that is not, a RETRY and a FAIL that free the parked split, and a pending imprecise trap at two levels. -/
theorem witness_FaultEvents : (let s := lehr 320000 [⟨⟨1, 0⟩, 0x40000, 1, 1⟩] [] .none; let d := s.dieAt 0;
      d.lehrEn = true ∧ d.batch.length = 1 ∧ d.batchAt + 320000 ≤ d.ptime ∧ d.spare = [] ∧ d.merge = [] ∧ d.faultQ = 3 ∧
      (s.queues.find? fun x => x.num == d.faultQ).isSome = true ∧ d.flushing = [] ∧ s.pod.domain = []) ∧
    (let s := lehrFull (lehr 320000 [⟨⟨1, 0⟩, 0x40000, 1, 1⟩] [] .none) true; let d := s.dieAt 0;
      d.lehrEn = true ∧ d.batch ≠ [] ∧ d.batchAt + 320000 ≤ d.ptime ∧ d.merge = [] ∧ d.flushing = [] ∧
      s.queues.find? (fun x => x.num == d.faultQ) = some ⟨3, ⟨1, 0⟩, 1, 1, false, [], 0⟩ ∧ s.pod.domain = []) ∧
    (let s := lehrFull (lehr 5 [] [] .none) false; let d := s.dieAt 0;
      d.lehrEn = true ∧ d.flushing = [zeros 32] ∧ d.merge = [] ∧
      s.queues.find? (fun x => x.num == d.faultQ) = some ⟨3, ⟨1, 0⟩, 2, 1, false, [], 0⟩) ∧
    (let d := (lehr 319999 [⟨⟨1, 0⟩, 0x40000, 1, 1⟩] [] .none).dieAt 0; d.batch.length < 256 ∧ d.ptime < d.batchAt + 320000) ∧
    [0, 1].all (fun act =>
      let k : MergeKey := ⟨0, ⟨1, 0⟩, 0x40000, false⟩
      let s := lehr 5 [] [replyEntry act] (.parked [k])
      (s.dieAt 0).lehrEn && (s.dieAt 0).replyQ == 4 && s.crew.key != CrewKey.none && s.crews.isEmpty && s.crew.agents.isEmpty &&
      s.crew.copies.isEmpty && s.crew.marver.queue.isEmpty && s.self.replay.isEmpty && s.self.streams.isEmpty && s.self.splits.isEmpty && s.self.park.isEmpty &&
      s.self.cur.wait == .parked [k] && (match replyOf (replyEntry act).bytes with
        | some r => k.ctx == r.ctx && decide (r.va ≤ k.page) && decide (k.page < r.va + 65536 * r.pages) && r.fail == (act == 1) &&
          (s.dieAt 0).merge.any fun m => m.key == k
        | none => false)) = true ∧
    [0, 1].all (fun tl =>
      let s := (atTl base tl (tl == 1)).mapSelf fun a => { a with imprecise := some (.version, 5) }
      (match s.focus s.selfKey 0 with
        | some t => t.self.imprecise == some (.version, 5) && t.self.tl == tl && t.self.run.isNone
        | none => false)) = true := by decide +kernel

/-- A launch of two sheets of two crews on the context's clusters, a kernel, and the slots of die 0. -/
def binding (h : List Byte) (slots : List (Nat × List Byte)) : State :=
  let s := placed2.putBytes 0x40000 h
  { s with
    ctx := { s.ctx with launches := [launchAt 9 false], loaded := [⟨0x40000, 0⟩] }
    dies := s.dies.map fun d => { d with slots := slots } }

/-- A record that is not valid, one of no live context, one with a reserved bit, and one that matches its cluster. -/
theorem witness_CrewBinding : (let r := bindRecord 9 0 1 1 1 0 0; r.length = 32 ∧ recValid r = false) ∧
    (let r := bindRecord 9 0 1 2 1 0 1; r.length = 32 ∧ recValid r = true ∧ (binding [] []).ctxAt (recKey r).ctx = none) ∧
    (let r := bindRecord 9 0 1 1 1 8 1; recValid r = true ∧ recReserved r = true) ∧
    (let r := bindRecord 9 0 1 1 1 0 1; let s := binding [] []
      recValid r = true ∧ recReserved r = false ∧ s.ctxAt (recKey r).ctx = some s.ctx ∧ (s.mapEntry (s.ctxNow s.ctx) (recLcl r)).isSome = true ∧
      ((s.mapEntry (s.ctxNow s.ctx) (recLcl r)).map fun e => (e.socket, e.cluster)) = some (0, 1) ∧
      (s.ctx.launch (recKey r).launch).any (fun l => l.holds ((recKey r).sheet, (recKey r).crew) && !l.trec && !l.trep) = true) := by
  decide +kernel

/-- A record whose LCLUSTER entry names another cluster than that of the slot; one of a context whose descriptor R307 refuses. -/
theorem witness_CrewRejected :
    (let r := bindRecord 9 0 1 1 1 0 1; let s := binding [] []
      recValid r = true ∧ s.ctxAt (recKey r).ctx = some s.ctx ∧
      ((s.mapEntry (s.ctxNow s.ctx) (recLcl r)).map fun e => (e.socket, e.cluster)) = some (0, 1) ∧ (0, 1) ≠ (0, 2)) ∧
    (let r := bindRecord 9 0 1 1 1 0 1
      let s : State := { binding (kernelHeader 2 2 1 64) [(16 + 3, r)] with ctbase := 0x7000000 }
      firstSlot ((s.validSlots 0 1).filter fun x => (s.crewAt (recKey x.2)).isNone) = some (3, r) ∧
      s.readDescriptor (recKey r).ctx = none ∧ recReserved r = false ∧
      (((s.reload (recKey r).ctx).ctxAt (recKey r).ctx).map (s.reload (recKey r).ctx).ctxNow).isSome = true ∧
      ((s.reload (recKey r).ctx).launchOf (recKey r)).map (fun l => l.placed) = some []) := by decide +kernel

/-- A valid slot of a kernel that fits its cluster, and of one that does not; and no slot. -/
theorem witness_CrewPlacement : ([(kernelHeader 2 2 1 64, true), (kernelHeader 32 4 0 256, false)] : List (List Byte × Bool)).all (fun h =>
      let r := bindRecord 9 0 1 1 1 0 1
      let s := binding h.1 [(16 + 3, r)]
      decide (firstSlot ((s.validSlots 0 1).filter fun x => (s.crewAt (recKey x.2)).isNone) = some (3, r)) && !s.recRejected 0 1 r &&
      (s.readDescriptor (recKey r).ctx).isSome && (match ((s.reload (recKey r).ctx).ctxAt (recKey r).ctx).map (s.reload (recKey r).ctx).ctxNow with
        | some c => (match c.launch (recKey r).launch, (s.reload (recKey r).ctx).mapEntry c (recLcl r) with
          | some l, some e => c.saved.isEmpty && !l.started ((recKey r).sheet, (recKey r).crew) && !l.trep &&
            (match (s.reload (recKey r).ctx).header c l.kernel with
              | (u, some k) => u.fits e k.shape == h.2
              | (_, none) => false)
          | _, _ => false)
        | none => false)) = true ∧
    firstSlot (((binding [] []).validSlots 0 1).filter fun e => ((binding [] []).crewAt (recKey e.2)).isNone) = none := by decide +kernel

/-- Every unit retired; one that lives, one with a held store; a stopped operation left, and one that is not. -/
theorem witness_CrewRetirement :
    let ended : State := base.mapCur fun p => { p with mask := 0 }
    let done (s : State) : Bool := (s.frontCrew.agents.all fun a => a.live == 0 && a.replay.isEmpty) && s.crew.copies.isEmpty && s.redps.isEmpty
    base.crew.key ≠ CrewKey.none ∧ done ended = true ∧ ended.crew.marver.queue = [] ∧ done base = false ∧ done (holding ended) = false ∧
    (let s := ended.withMarver { ended.crew.marver with queue := [mop 1 5 0 .stopped none], mst := 0x4000 };
      done s = true ∧ s.crew.marver.queue = [mop 1 5 0 .stopped none] ∧ s.crew.marver.stopped = true) ∧
    (let s := ended.withMarver { ended.crew.marver with queue := [mop 1 5 0 .running none] };
      done s = true ∧ s.crew.marver.queue ≠ [] ∧ s.crew.marver.stopped = false) := by
  decide +kernel

/-- A path of the unit in front. -/
def path (slot : Nat) (m : Mask) (pc : DWord) : Path := { Path.empty with slot := slot, mask := m, pc := pc }

/-- A split and a parked path; two splits at one PC and at two; no parked path. -/
theorem witness_PathEvents :
    (let s : State := { base with self := { base.self with cur := path 0 0xFF 0x100000, park := [path 0 0xFF00 0x100008] } }; let a := s.self
      a.run = none ∧ a.cur.mask ≠ 0 ∧ a.splits = [] ∧ a.park.length = 1 ∧ (path 0 0xFF00 0x100008).mask ≠ 0 ∧
      (path 0 0xFF00 0x100008).mask ≠ a.cur.mask ∧ (a.cur :: a.park).all (fun y => y.wait == .none) = true ∧ a.cur.pfx.count = 0 ∧ s.crew.area = none ∧
      nextIs (exec (.parkRotation s.selfKey) s) (fun t => t.self.cur.pc == 0x100008) = true) ∧ base.self.park = [] ∧
    ([0x100000, 0x100008] : List DWord).all (fun pc =>
      let x := path 1 0xFF00 pc
      let s : State := { base with self := { base.self with cur := path 0 0xFF 0x100000, splits := [x] } }
      let a := s.self
      a.run.isNone && a.splits == [x] && a.park.isEmpty && a.cur.mask != 0 && x.mask != 0 && decide (a.cur.slot < x.slot) &&
      a.cur.pfx.count == 0 && x.pfx.count == 0 && a.cur.only.isNone && x.only.isNone && a.cur.wait == .none && x.wait == .none &&
      a.cur.failed.isEmpty && x.failed.isEmpty) = true := by decide +kernel

/-- Three splits, of which the one in slot 1 has held its slot longest, and two parked paths: the rotation counter below both, and
past both. -/
theorem witness_ParkRotation :
    let y (slot : Nat) (m : Mask) (since : Nat) : Path := { path slot m 0x100000 with since := since }
    let s (low : Nat) : State := { base with self := { base.self with
      cur := y 0 0xF 7, splits := [y 1 0xF0 3, y 2 0xF00 7], rotLow := low, park := [path 0 0xF000 0x100008, path 0 0xF0000 0x10000C] } }
    ([(0, 0xF000), (12, 0xF0000), (31, 0xF000)] : List (Nat × Mask)).all (fun e =>
      let a := (s e.1).self
      a.run.isNone && a.paths.all (fun z => z.wait == .none) &&
      (match a.park.find? (fun p => p.mask == e.2) with
        | some p => (decide (a.rotLow < p.mask.lowest) && a.park.all fun z => !decide (a.rotLow < z.mask.lowest) || decide (p.mask.lowest ≤ z.mask.lowest)) ||
            a.park.all fun z => decide (z.mask.lowest ≤ a.rotLow) && decide (p.mask.lowest ≤ z.mask.lowest)
        | none => false) &&
      (a.cur :: a.splits).all (fun z => z == y 1 0xF0 3 || decide (3 < z.since)) &&
      nextIs (exec (.parkRotation (s e.1).selfKey) (s e.1)) fun t =>
        t.self.cur.slot == 1 && t.self.cur.mask == e.2 && t.self.park.any fun z => z.mask == 0xF0) = true := by decide +kernel

/-- A port of the hub, a packet, and what the hub holds. -/
def hubAt (ports : List PodPort) (held : List OrdPacket) (pt : Nat) : State :=
  timed { base with pod := { base.pod with podPorts := 0xFF, part := 0 }, hub := { base.hub with top := 10, ordctl := 0x64, ports := ports, held := held } } 8 pt

/-- A packet for this part with a stamp, and a port. -/
def packet (stamp : Nat) : OrdPacket := ⟨stamp, 3, 0, 0, 0, ⟨1, 0⟩, none, .write 0x40000 7⟩
def port7 (stalled : Bool) : PodPort := ⟨7, [5, 10], stalled, 0, [4, 4], 0⟩

/-- The packet leaves die 2, whose link has credits or none; one below the watermark comes in at a pod port, and one at a port that
is none. -/
theorem witness_HubArrivals :
    (let s := hubAt [] [] 0; let t : State := { s with dies := s.dies.set! 2 { s.dieAt 2 with unpassed := [packet 5, packet 6] } };
      (t.dieAt 2).unpassed = packet 5 :: [packet 6] ∧ (∀ e < 2, (t.dieAt e).unpassed.head? ≠ some (packet 5)) ∧
      t.canSend (.interposer 2 0) 1 = true ∧ (packet 5).dest = t.pod.part ∧ t.hub.enabled = false ∧ t.hub.ports = [] ∧
      ({ t with credits := [⟨.interposer 2 0, 1, 4, 4, 0, 0⟩] } : State).canSend (.interposer 2 0) 1 = false) ∧
    (let s := hubAt [port7 false] [] 0; s.pod.podPorts.testBit 7 = true ∧ s.pod.podPorts.testBit 31 = false ∧ s.pod.cbfc = 0 ∧
      s.flits = [] ∧ (packet 10).stamp ≤ s.hub.top ∧ s.hub.relays = [] ∧ s.hub.top < (packet 11).stamp ∧ s.canSend (.interposer 9 0) 1 = true ∧
      ({ s with credits := [⟨.interposer 9 0, 1, 4, 4, 0, 0⟩], pod := { s.pod with podPorts := 0xFFFFFFFF } } : State).canSend (.interposer 9 0) 1 = false) ∧
    (let s := hubAt [] [] 0; let p : OrdPacket := { packet 5 with agent := some base.selfKey, dest := 7 }
      let t : State := { s with pod := { s.pod with domain := [0, 7] }, dies := s.dies.set! 2 { s.dieAt 2 with unpassed := [p] } }
      (t.dieAt 2).unpassed = [p] ∧ p.agent = some base.selfKey ∧ t.hub.waitsFor base.selfKey = false ∧ p.dest ≠ t.pod.part ∧
      t.pod.members.contains p.dest = true ∧ t.fenceRoom base.selfKey 7 = true ∧
      ({ t with fences := (List.range 1024).map fun n => ⟨base.selfKey, 10 + n, 1, 0⟩ } : State).fenceRoom base.selfKey 7 = false) := by
  decide +kernel

/-- Flits that raise a vector and its least entry, that raise another entry alone, and that lower one; a beacon before its time and
at it; a die with a packet of its own and one without. -/
theorem witness_HubWatermarks :
    (let s := hubAt [port7 true] [] 0; let x := port7 true; s.pod.cbfc = 0 ∧ s.flits = [] ∧ s.hub.ports = [x] ∧ x.num = 7 ∧
      s.hub.held = [] ∧ ([[6, 10], [5, 11], [5, 9]] : List (List Nat)).all (fun v => v.length == x.vec.length) = true ∧
      (∀ i < 2, x.vec.getD i 0 ≤ [6, 10].getD i 0) ∧ (∀ i < 2, x.vec.getD i 0 ≤ [5, 11].getD i 0) ∧
      (∃ i < 2, [5, 9].getD i 0 < x.vec.getD i 0)) ∧
    (((hubAt [port7 false] [] 15999).dieAt 8).ptime < (port7 false).sentAt + 16000 ∧
      (port7 false).sentAt + 16000 ≤ ((hubAt [port7 false] [] 16000).dieAt 8).ptime ∧
      (hubAt [port7 false] [] 0).hub.ports.find? (fun y => y.num == 7) = some (port7 false)) ∧
    (7 < 8 ∧ ((hubAt [] [] 0).dieAt 7).unpassed = []) := by decide +kernel

/-- A hub that is not enabled, one with a stalled port, and one that delivers none, the first and both of two packets. -/
theorem witness_HubDelivery :
    let on (s : State) : State := { s with hub := { s.hub with ordctl := 0x10064 } }
    let up (x : Die) : Die := { x with promise := max x.promise (leastOf (x.ptime :: x.unpassed.map (·.stamp)) - 1) }
    let at_ (n : Nat) (held : List OrdPacket) : State :=
      let s := on (hubAt [] held 0)
      { s with dies := s.dies.map fun d => { d with ptime := n, promise := 0 } }
    (hubAt [] [] 0).hub.enabled = false ∧ (hubAt [port7 true] [] 0).hub.ports = [port7 true] ∧ (port7 true).stalled = true ∧
    (on (hubAt [] [] 0)).hub.enabled = true ∧ (on (hubAt [] [] 0)).hub.ports = [] ∧
    (at_ 0 [packet 6, packet 5]).hub.held = [packet 6, packet 5] ∧ (packet 5).stamp < (packet 6).stamp ∧
    (let all (n : Nat) : Nat := ((List.range 8).foldl (fun s d => s.mapDie d up) (at_ n [])).watermark;
      all 6 < (packet 6).stamp ∧ (packet 5).stamp ≤ all 6 ∧ (packet 6).stamp ≤ all 7 ∧ all 5 < (packet 5).stamp) := by decide +kernel

/-- A stall before its time and at it, and a packet at the least entry; a DOPEN that waits for its probe, which the hub holds when
the port stalls, and which comes while it is stalled. -/
theorem witness_HubStalls :
    (let s := hubAt [port7 false] [packet 6] 1600000; s.hub.held = [packet 6] ∧ 5 < (packet 6).stamp ∧ (packet 5).stamp ≤ 5 ∧
      s.hub.ports.find? (fun y => y.num == 7) = some (port7 false) ∧
      (port7 false).advanced + 16000 * (s.hub.ordctl.toNat % 65536) ≤ (s.dieAt 8).ptime) ∧
    (let p : OrdPacket := { packet 6 with body := .probe base.selfKey 1 96 };
      let ask (s : State) : State := s.mapCur fun q => { q with wait := .probe ⟨0x100000, Pfx.empty, 0⟩ 6 };
      let s := ask (hubAt [port7 false] [p] 1600000);
      let t : State := ask (hubAt [port7 true] [] 0);
      let u : State := { t with dies := t.dies.set! 0 { t.dieAt 0 with unpassed := [p] } };
      p.body = .probe s.selfKey 1 96 ∧ p.body = .probe u.selfKey 1 96 ∧ s.self.cur.wait = .probe ⟨0x100000, Pfx.empty, 0⟩ p.stamp ∧
      u.self.cur.wait = .probe ⟨0x100000, Pfx.empty, 0⟩ p.stamp ∧ s.hub.ports = [port7 false] ∧ s.hub.held = [p] ∧
      (port7 false).advanced + 16000 * (s.hub.ordctl.toNat % 65536) ≤ (s.dieAt 8).ptime ∧ u.hub.ports = [port7 true] ∧
      u.hub.held = [] ∧ u.hub.waiting = [] ∧ (u.dieAt 0).unpassed = [p] ∧ u.canSend (.interposer 0 0) 1 = true ∧ p.dest = u.pod.part) := by decide +kernel

/-- An access of a context that is live and that is not, a store and a load; counters of 0 and 1; credits of a port. -/
theorem witness_FabricEvents : base.ctxAt ⟨1, 0⟩ = some base.ctx ∧ base.ctxAt ⟨2, 0⟩ = none ∧
    base.fenceCount base.selfKey 3 = 0 ∧ ({ base with fences := [⟨base.selfKey, 3, 1, 0⟩] } : State).fenceCount base.selfKey 3 = 1 ∧
    base.hub.waiting = [] ∧ base.hub.relays = [] ∧ base.pod.credited (.interposer 2 0) = true ∧ base.hub.out = [] ∧ base.hub.enq = [] ∧ base.hub.markers = [] ∧ base.flits = [] ∧ base.pod.cbfc = 0 ∧
    (let s : State := { base with pod := { base.pod with podPorts := 0xFF, cbfc := 0x80 }, credits := [⟨.port 7, 3, 4, 6, 1, 3⟩] }
      let x := s.creditOf (.port 7) 3
      s.pod.credited (.port 7) = true ∧ x.link = .port 7 ∧ x.vc = 3 ∧
      ((x.buffers : Int) - (((x.sent + 65536 - 6 % 65536) % 65536 : Nat) : Int) = 4) ∧
      (x.buffers : Int) - (((x.sent + 65536 - 1 % 65536) % 65536 : Nat) : Int) = -1) := by decide +kernel

/-- A populated address and one that is not; the last core of the last cluster of an empty part; a context that is not live, and
one with no crew and no launch. -/
theorem witness_HardwareErrors : (canonical 0x40000).isSome = true ∧ (canonical 0x5000000000000000).isSome = false ∧
    (let s := State.reset; s.allCrews = [] ∧ s.allCtxs = [] ∧ s.self = Agent.empty ∧ s.crew = Crew.empty ∧ s.ctxAt ⟨1, 0⟩ = none) ∧
    (let s : State := { base with crew := Crew.empty, self := Agent.empty };
      s.ctx.id = ⟨1, 0⟩ ∧ s.ctx.id ≠ CtxId.none ∧ s.ctx.kill = false ∧ s.ctxs = [] ∧ s.crew.key = CrewKey.none ∧ s.crews = [] ∧
      s.ctx.launches = []) := by decide +kernel

/-- A step of the small machine from a state in its canonical form. -/
theorem witness_StepKeepsMemoryForm : formed (State.reset.withFetchWord 32 0x83C578FF) = true ∧
    nextIs (step (State.reset.withFetchWord 32 0x83C578FF)) (fun _ => true) = true := by decide +kernel

/-- An instruction below PL2, and one at PL0, that gives a next state. -/
theorem witness_PrivilegeHolds : [0, 1].all (fun pl =>
      let s := sysAt pl 0 0x90 0x40000
      (Instr.wrsr 20 21).isWord && s.ctx.id != CtxId.none && s.ctxs.isEmpty && s.ctx.pl == pl && nextIs (exec (.wrsr 20 21) s) fun _ => true) = true := by
  decide +kernel

end Sys2Proof.Tests
end

section
/-!
What an instruction gives, from the frame that its meaning is written in (08 R181 to R183): one lemma for each frame.
-/
namespace Sys2Proof.Machine

open Sys2Proof

/-- An instruction that is the vector frame around `op` gives `f`, when `op` gives `f`'s values and flags and never traps. -/
theorem vecValues_of_vec {i : Instr} {n : Needs} {m : State → Mask} {rd : Bool} {d a : BitVec 7} {b : BSrc}
    {op : State → Lanes → Lanes → Lanes → LaneRes} {f : State → Lanes → Lanes → Lanes → Lanes × Flags}
    (hx : ∀ s, exec i s = s.vec (encode i) n false (m s) d a b rd (op s))
    (ho : ∀ s x y z, op s x y (if rd then z else Lanes.const 0) = .ok (f s x y z)) :
    VecValues i n m rd d a b f := fun s _ _ _ _ hc hp hw =>
  (hx s).trans (vec_done hc hp (ho s _ _ _) hw)

/-- An instruction that computes `op` lane by lane gives `f`, when `op` is `f`. -/
theorem intResult_of_intOp {i : Instr} {h : HmodUse} {g : BitVec 3} {rd : Bool} {d a : BitVec 7} {b : BSrc}
    {op f : State → Word → Word → Word → Word}
    (hx : ∀ s, exec i s = s.intOp (encode i) h g d a b rd (op s)) (hf : ∀ s x y z, op s x y z = f s x y z) :
    IntResult i h g rd d a b f := by
  refine vecValues_of_vec hx fun s x y z => ?_
  have hl : (Lanes.tab fun n => op s (x.at n) (y.at n) ((if rd then z else Lanes.const 0).at n)) =
      Lanes.tab fun n => f s (x.at n) (y.at n) (if rd then z.at n else 0) :=
    Lanes.tab_congr fun n hn => by cases rd <;> simp [hf, hn]
  rw [laneWise, hl]

/-- An instruction that is the predicate frame around `op` gives `f`, when `op` is `f`. -/
theorem predResult_of_vecP {i : Instr} {h : HmodUse} {g p : BitVec 3} {a : BitVec 7} {b : BSrc}
    {op f : State → Lanes → Lanes → Mask × Flags}
    (hx : ∀ s, exec i s = s.vecP (encode i) { hmod := h } false (s.part g) p a b (op s))
    (hf : ∀ s x y, op s x y = f s x y) : PredResult i h g p a b f := fun s s1 ps fl hc hp => by
  rw [hx, vecP_done hc hp, hf]

end Sys2Proof.Machine
end

section
/-!
What each lane operation of the integer instructions gives (08 R184 to R187), as the spec's own formulas say it.
-/
namespace Sys2Proof.Machine

open Sys2Proof

/-! ### Clamping, products, order -/

theorem ite_eq_nearest {lo hi v : Int} (h : lo ≤ hi) :
    (if v < lo then lo else if hi < v then hi else v) = nearest lo hi v := by
  unfold nearest
  split_ifs <;> omega

theorem clamp32_eq_nearest32 (uns : Bool) (v : Int) : clamp32 uns v = nearest32 uns v := by
  cases uns <;> exact congrArg (BitVec.ofInt 32) (ite_eq_nearest (by decide))

theorem intOf_add (uns : Bool) (x y : Word) :
    intOf uns x + intOf uns y = if uns then (x.toNat + y.toNat : Int) else x.toInt + y.toInt := by cases uns <;> rfl

theorem intOf_sub (uns : Bool) (x y : Word) :
    intOf uns x - intOf uns y = if uns then (x.toNat - y.toNat : Int) else x.toInt - y.toInt := by cases uns <;> rfl

theorem mulHigh_eq (uns : Bool) (x y : Word) :
    mulHigh uns x y =
      if uns then BitVec.ofNat 32 (x.toNat * y.toNat / 2 ^ 32) else BitVec.ofInt 32 (x.toInt * y.toInt / 2 ^ 32) := by
  cases uns with
  | false => rfl
  | true => exact BitVec.ofInt_natCast ..

/-- The same choice of two words by the opposite comparison. -/
theorem ite_lt_eq_ite_le (a b : Int) (x y : Word) : (if a < b then x else y) = if b ≤ a then y else x := by
  by_cases h : a < b
  · rw [if_pos h, if_neg (Int.not_le.2 h)]
  · rw [if_neg h, if_pos (Int.not_lt.1 h)]

theorem minLane_eq (uns : Bool) (x y : Word) :
    minLane uns x y =
      if uns then (if x.toNat ≤ y.toNat then x else y) else if x.toInt ≤ y.toInt then x else y := by
  rw [minLane, ite_lt_eq_ite_le]
  cases uns <;> simp [intOf]

theorem maxLane_eq (uns : Bool) (x y : Word) :
    maxLane uns x y =
      if uns then (if y.toNat ≤ x.toNat then x else y) else if y.toInt ≤ x.toInt then x else y := by
  rw [maxLane, ite_lt_eq_ite_le]
  cases uns <;> simp [intOf]

/-! ### Bit fields -/

/-- A number of `w` bits as a signed one. -/
theorem signedOf_of_lt {w n : Nat} (hw : 0 < w) (hn : n < 2 ^ w) :
    signedOf w n = if n < 2 ^ (w - 1) then (n : Int) else (n : Int) - 2 ^ w := by
  obtain ⟨k, rfl⟩ : ∃ k, w = k + 1 := ⟨w - 1, by omega⟩
  rw [signedOf, BitVec.toInt_eq_toNat_cond, BitVec.toNat_ofNat, Nat.mod_eq_of_lt hn, Nat.add_sub_cancel]
  push_cast
  congr 1
  rw [pow_succ']
  exact propext ⟨fun h => by omega, fun h => by omega⟩

/-- A field of `w` bits read unsigned, or with its sign bit. -/
theorem fieldValue_eq {w n : Nat} (uns : Bool) (hw : 0 < w) (hn : n < 2 ^ w) :
    (if uns then (n : Int) else signedOf w n) = if uns ∨ n < 2 ^ (w - 1) then (n : Int) else (n : Int) - 2 ^ w := by
  rw [signedOf_of_lt hw hn]
  cases uns <;> simp

theorem bfeLane_eq (uns : Bool) (x y : Word) :
    bfeLane uns x y =
      let pos := y.toNat % 32
      let wid := min (y.toNat / 2 ^ 8 % 64) (32 - pos)
      let f := x.toNat / 2 ^ pos % 2 ^ wid
      if wid = 0 then 0
      else if uns ∨ f < 2 ^ (wid - 1) then BitVec.ofNat 32 f else BitVec.ofInt 32 ((f : Int) - 2 ^ wid) := by
  change (if fieldWid y = 0 then 0 else _) = if fieldWid y = 0 then 0 else _
  by_cases hw : fieldWid y = 0
  · rw [if_pos hw, if_pos hw]
  · have hf := fieldValue_eq uns (Nat.pos_of_ne_zero hw) (Nat.mod_lt (x.toNat / 2 ^ fieldPos y) (Nat.two_pow_pos _))
    have := congrArg (BitVec.ofInt 32) hf
    rw [apply_ite (BitVec.ofInt 32), apply_ite (BitVec.ofInt 32), BitVec.ofInt_natCast] at this
    rw [if_neg hw, if_neg hw, this]
    rfl

theorem bfiLane_eq (x y z : Word) :
    bfiLane x y z =
      let pos := y.toNat % 32
      let wid := min (y.toNat / 2 ^ 8 % 64) (32 - pos)
      let mask := (BitVec.ofNat 32 (2 ^ wid - 1)) <<< pos
      (z &&& ~~~mask) ||| ((x <<< pos) &&& mask) := by
  have hm (k p : Nat) : BitVec.ofNat 32 (k * 2 ^ p) = BitVec.ofNat 32 k <<< p := by
    apply BitVec.eq_of_toNat_eq
    simp [Nat.shiftLeft_eq]
  unfold bfiLane
  rw [hm]
  rfl

/-! ### Counting and turning bits -/

theorem popcLane_eq (x : Word) : popcLane x = BitVec.ofNat 32 ((List.range 32).countP fun j => x.getLsbD j) := by
  rw [popcLane, Mask.count, Mask.lanes, ← List.countP_eq_length_filter, ← List.map_coe_finRange_eq_range, List.countP_map]
  rfl

/-- How many of 0, 1, …, n - 1 pass a test from the start on: as many as stand before the first number that fails. -/
theorem length_takeWhile_range {n k : Nat} {p : Nat → Bool} (hk : k ≤ n) (hp : ∀ j < k, p j = true)
    (hf : k < n → p k = false) : ((List.range n).takeWhile p).length = k := by
  obtain ⟨r, rfl⟩ := Nat.exists_eq_add_of_le hk
  rw [List.range_add, List.takeWhile_append_of_pos fun j hj => hp j (List.mem_range.1 hj)]
  cases r with
  | zero => simp
  | succ r => simp [List.range_succ_eq_map, hf]

theorem clzLane_eq (x : Word) :
    clzLane x = BitVec.ofNat 32 ((List.range 32).takeWhile fun j => !x.getLsbD (31 - j)).length := by
  unfold clzLane
  congr 1
  by_cases hx : x = 0
  · subst hx
    rfl
  · have h0 : x.toNat ≠ 0 := fun h => hx (BitVec.eq_of_toNat_eq h)
    have hl : Nat.log2 x.toNat < 32 := (Nat.log2_lt h0).2 x.isLt
    rw [if_neg hx, length_takeWhile_range (k := 31 - Nat.log2 x.toNat) (by omega)]
    · intro j hj
      have : x.toNat < 2 ^ (31 - j) := (Nat.log2_lt h0).1 (by omega)
      simp [BitVec.getLsbD, Nat.testBit_lt_two_pow this]
    · intro _
      rw [show 31 - (31 - Nat.log2 x.toNat) = Nat.log2 x.toNat by omega]
      simp [BitVec.getLsbD, Nat.testBit_log2 h0]

theorem brevLane_eq_reverse (x : Word) : brevLane x = x.reverse := by
  apply BitVec.eq_of_getLsbD_eq
  intro n hn
  rw [BitVec.getLsbD_reverse, BitVec.getMsbD, brevLane, Mask.getLsbD_ofTest]

theorem absLane_eq (sat : Bool) (x : Word) :
    absLane sat x = if x = 0x80000000 ∧ sat then 0x7FFFFFFF else BitVec.ofNat 32 x.toInt.natAbs := by
  unfold absLane
  by_cases hx : x.toInt < 0
  · have hneg : BitVec.ofNat 32 x.toInt.natAbs = -x := by
      rw [← BitVec.ofInt_natCast, Int.ofNat_natAbs_of_nonpos hx.le, BitVec.ofInt_neg, BitVec.ofInt_toInt]
    rw [if_pos hx, hneg]
    simp only [and_comm]
  · have hpos : BitVec.ofNat 32 x.toInt.natAbs = x := by
      rw [← BitVec.ofInt_natCast, Int.natAbs_of_nonneg (Int.not_lt.1 hx), BitVec.ofInt_toInt]
    have hne : x ≠ 0x80000000 := by rintro rfl; exact hx (by decide)
    rw [if_neg hx, if_neg fun h => hne h.1, hpos]

/-! ### Quotients and dot products -/

theorem divLane_eq (uns : Bool) (x y : Word) :
    divLane uns x y =
      if uns then BitVec.ofNat 32 (x.toNat / y.toNat)
      else if x = 0x80000000 ∧ y = 0xFFFFFFFF then 0x80000000
      else BitVec.ofInt 32 (x.toInt.tdiv y.toInt) := by
  cases uns with
  | true => exact BitVec.ofInt_natCast ..
  | false =>
    by_cases h : x = 0x80000000 ∧ y = 0xFFFFFFFF
    · obtain ⟨rfl, rfl⟩ := h
      rfl
    · rw [if_neg Bool.false_ne_true, if_neg h]
      rfl

theorem dpElem_eq {w : Nat} (uns : Bool) (x : Word) (i : Nat) (hw : 0 < w) :
    dpElem w uns x i =
      let f := x.toNat / 2 ^ (w * i) % 2 ^ w
      if uns ∨ f < 2 ^ (w - 1) then (f : Int) else (f : Int) - 2 ^ w :=
  fieldValue_eq uns hw (Nat.mod_lt _ (Nat.two_pow_pos w))

theorem foldl_add_eq_sum (f : Nat → Int) (l : List Nat) (z : Int) :
    l.foldl (fun s i => s + f i) z = z + (l.map f).sum := by
  induction l generalizing z with
  | nil => simp
  | cons i l ih => simp [ih, Int.add_assoc]

/-- The total of a dot product: D and the products of the elements. -/
theorem dpSum_eq (w k : Nat) (tv : BitVec 3) (uns : Bool) (x y z : Word) :
    dpSum w k tv uns x y z = (if uns then (z.toNat : Int) else z.toInt) + ((List.range k).map fun i =>
      dpElem w (tv == 1 || tv == 3) x i * dpElem w (tv == 1 || tv == 2) y i).sum := foldl_add_eq_sum _ _ _

end Sys2Proof.Machine
end

section
/-!
What the conditions, the classes, the sources of a shuffle and the votes of a tile are, as the spec's own tables say it
(08 R188, R194, R195, R201 to R203).
-/
namespace Sys2Proof

/-- Masks are equal when they hold the same lanes. -/
theorem Mask.eq_of_has {p q : Mask} (h : ∀ j, p.has j = true ↔ q.has j = true) : p = q :=
  BitVec.eq_of_getLsbD_eq fun j _ => Bool.eq_iff_iff.2 (h j)

end Sys2Proof

namespace Sys2Proof.Machine

open Sys2Proof

/-! ### Conditions and classes -/

/-- An encoding is a NaN when its exponent field is all ones and its trailing significand is not zero. -/
theorem FFmt.isNan_iff (f : FFmt) (w : Nat) :
    f.isNan w = true ↔ w / 2 ^ f.t % 2 ^ f.e = 2 ^ f.e - 1 ∧ w % 2 ^ f.t ≠ 0 := by
  dsimp only [FFmt.isNan, FFmt.unpack]
  split_ifs with he ht h0
  · simp [ht]
  · simp [he, ht]
  · simp [he]
  · simp [he]

/-- The exponent field and the trailing significand of an FP32 word make up its magnitude. -/
theorem fp32_magnitude (n : Nat) : n % 2 ^ 31 = n / 2 ^ 23 % 256 * 2 ^ 23 + n % 2 ^ 23 := by omega

theorem fp32_isNan_eq (x : Word) : fp32.isNan x.toNat = decide (0x7F800000 < x.toNat % 2 ^ 31) := by
  rw [Bool.eq_iff_iff, FFmt.isNan_iff, decide_eq_true_iff, fp32_magnitude]
  change x.toNat / 2 ^ 23 % 256 = 255 ∧ x.toNat % 2 ^ 23 ≠ 0 ↔ _
  omega

theorem fclassOf_eq (x : Word) :
    fclassOf x =
      let neg := decide (2 ^ 31 ≤ x.toNat)
      let m := x.toNat % 2 ^ 31
      if m = 0 then (if neg then 3 else 4) else if m < 0x00800000 then (if neg then 2 else 5)
      else if m < 0x7F800000 then (if neg then 1 else 6) else if m = 0x7F800000 then (if neg then 0 else 7)
      else if m < 0x7FC00000 then 8 else 9 := by
  have hneg : x.getLsbD 31 = decide (2 ^ 31 ≤ x.toNat) := BitVec.msb_eq_decide x
  have he : x.toNat / 2 ^ 23 % 256 < 256 := Nat.mod_lt _ (by decide)
  have ht : x.toNat % 2 ^ 23 < 2 ^ 23 := Nat.mod_lt _ (by decide)
  dsimp only [fclassOf]
  rw [hneg, fp32_magnitude]
  generalize decide (2 ^ 31 ≤ x.toNat) = neg, x.toNat / 2 ^ 23 % 256 = e, x.toNat % 2 ^ 23 = t at he ht ⊢
  by_cases h255 : e = 255
  · rw [if_pos h255]
    split_ifs <;> omega
  · by_cases h0 : e = 0
    · rw [if_neg h255, if_pos h0]
      split_ifs <;> omega
    · rw [if_neg h255, if_neg h0]
      split_ifs <;> omega

theorem icond_eq (c : BitVec 4) (x y : Int) :
    icond c x y =
      if c = 0 then decide (x = y) else if c = 1 then decide (x ≠ y) else if c = 2 then decide (x < y)
      else if c = 3 then decide (x ≤ y) else if c = 4 then decide (x > y) else decide (x ≥ y) := by
  have hc (k : Nat) (hk : k < 16) : c = BitVec.ofNat 4 k ↔ c.toNat = k := by
    rw [← BitVec.toNat_inj, BitVec.toNat_ofNat, Nat.mod_eq_of_lt hk]
  unfold icond
  split <;> simp_all

/-- FCMP's truth and flags, as R194 lists its conditions. -/
theorem fcond_eq (c : BitVec 4) (x y : Word) (hc : c.toNat ≤ 11) :
    fcond c x.toNat y.toNat =
      let un := fp32.isNan x.toNat || fp32.isNan y.toNat
      let o := cmpNum (fp32.unpack x.toNat) (fp32.unpack y.toNat)
      (if c = 0 then !un && decide (o = 0) else if c = 1 then un || decide (o ≠ 0)
       else if c = 2 ∨ c = 8 then !un && decide (o < 0) else if c = 3 ∨ c = 9 then !un && decide (o ≤ 0)
       else if c = 4 ∨ c = 10 then !un && decide (0 < o) else if c = 5 ∨ c = 11 then !un && decide (0 ≤ o)
       else if c = 6 then !un else un,
       if 2 ≤ c.toNat ∧ c.toNat ≤ 5 ∧ un = true then flagNV else 0) := by
  generalize hu : (fp32.isNan x.toNat || fp32.isNan y.toNat) = un
  generalize ho : cmpNum (fp32.unpack x.toNat) (fp32.unpack y.toNat) = o
  dsimp only [fcond]
  rw [hu, ho]
  have hcs : c = 0 ∨ c = 1 ∨ c = 2 ∨ c = 3 ∨ c = 4 ∨ c = 5 ∨ c = 6 ∨ c = 7 ∨ c = 8 ∨ c = 9 ∨ c = 10 ∨ c = 11 := by
    bv_omega
  rcases hcs with rfl | rfl | rfl | rfl | rfl | rfl | rfl | rfl | rfl | rfl | rfl | rfl <;> simp [bne, beq_eq_decide]

/-- The lane that SHFL reads, as R202 writes it. -/
theorem shflSource_eq (mode : BitVec 3) (w n k : Nat) :
    shflSource mode.toNat w n k =
      let t := n - n % w
      if mode = 0 then t + k % w else if mode = 1 then (if k ≤ n - t then n - k else n)
      else if mode = 2 then (if k ≤ t + w - 1 - n then n + k else n) else n ^^^ (k % w) := by
  have hm : mode = 0 ∨ mode = 1 ∨ mode = 2 ∨ mode = 3 ∨ mode = 4 ∨ mode = 5 ∨ mode = 6 ∨ mode = 7 := by bv_omega
  rcases hm with rfl | rfl | rfl | rfl | rfl | rfl | rfl | rfl <;> rfl

/-! ### Tiles -/

theorem tileBase_eq_iff {w : Nat} (hw : 0 < w) (j n : Nat) : tileBase w j = tileBase w n ↔ j / w = n / w := by
  have h (k : Nat) : tileBase w k = w * (k / w) := by
    have := Nat.div_add_mod k w
    unfold tileBase
    omega
  rw [h, h, Nat.mul_right_inj hw.ne']

/-- The participants of lane `n`'s tile, in increasing order. -/
def tileMates (w : Nat) (m : Mask) (n : Nat) : List Nat := (List.range 32).filter fun j => m.has j && j / w == n / w

theorem mem_tileMates {w : Nat} {m : Mask} {n j : Nat} :
    j ∈ tileMates w m n ↔ j < 32 ∧ m.has j = true ∧ j / w = n / w := by simp [tileMates]

theorem has_tileParts {w : Nat} (hw : 0 < w) (m : Mask) (n j : Nat) :
    (tileParts w m n).has j = true ↔ j ∈ tileMates w m n := by
  simp [tileParts, mem_tileMates, tileBase_eq_iff hw]

theorem has_tileVotes {w : Nat} (hw : 0 < w) (m : Mask) (x : Lanes) (n j : Nat) :
    (tileVotes w m x n).has j = true ↔ j ∈ tileMates w m n ∧ x.at j ≠ 0 := by
  simp [tileVotes, mem_tileMates, tileBase_eq_iff hw, and_assoc]

/-- The mask that BALLOT writes (R203). -/
theorem tileVotes_eq {w : Nat} (hw : 0 < w) (m : Mask) (x : Lanes) (n : Nat) :
    tileVotes w m x n = Mask.ofTest fun j => (tileMates w m n).contains j && x.at j != 0 := by
  refine Mask.eq_of_has fun j => ?_
  rw [has_tileVotes hw]
  have hj : j ∈ tileMates w m n → j < 32 := fun h => (mem_tileMates.1 h).1
  simpa using fun h _ => hj h

theorem tileVotes_eq_tileParts {w : Nat} (hw : 0 < w) (m : Mask) (x : Lanes) (n : Nat) :
    tileVotes w m x n = tileParts w m n ↔ ∀ j ∈ tileMates w m n, x.at j ≠ 0 := by
  constructor
  · intro h j hj
    rw [← has_tileParts hw, ← h, has_tileVotes hw] at hj
    exact hj.2
  · intro h
    refine Mask.eq_of_has fun j => ?_
    rw [has_tileVotes hw, has_tileParts hw]
    exact ⟨And.left, fun hj => ⟨hj, h j hj⟩⟩

theorem tileVotes_eq_zero {w : Nat} (hw : 0 < w) (m : Mask) (x : Lanes) (n : Nat) :
    tileVotes w m x n = 0 ↔ ∀ j ∈ tileMates w m n, x.at j = 0 := by
  constructor
  · intro h j hj
    by_contra hx
    have := (has_tileVotes hw m x n j).2 ⟨hj, hx⟩
    rw [h] at this
    simp [Mask.has] at this
  · intro h
    refine Mask.eq_of_has fun j => ?_
    rw [has_tileVotes hw]
    simpa [Mask.has] using h j

theorem voteOf_eq {w : Nat} (hw : 0 < w) (mode : BitVec 4) (m : Mask) (x : Lanes) (n : Nat) :
    voteOf mode.toNat w m x n =
      let all := (tileMates w m n).all fun j => x.at j != 0
      let any := (tileMates w m n).any fun j => x.at j != 0
      if mode = 0 then all else if mode = 1 then any else !any || all := by
  have hall : (tileVotes w m x n == tileParts w m n) = (tileMates w m n).all fun j => x.at j != 0 := by
    rw [Bool.eq_iff_iff, beq_iff_eq, tileVotes_eq_tileParts hw]
    simp
  have hany : (tileVotes w m x n == 0) = !(tileMates w m n).any fun j => x.at j != 0 := by
    rw [Bool.eq_iff_iff, beq_iff_eq, tileVotes_eq_zero hw]
    simp
  have hm : mode = 0 ∨ mode = 1 ∨ 2 ≤ mode.toNat := by bv_omega
  rcases hm with rfl | rfl | hm
  · exact hall
  · exact (congrArg not hany).trans (Bool.not_not _)
  · have h0 : mode ≠ 0 := by bv_omega
    have h1 : mode ≠ 1 := by bv_omega
    simp only [h0, h1, if_false]
    rw [← hall, ← hany]
    unfold voteOf
    split
    · omega
    · omega
    · rfl

end Sys2Proof.Machine
end

section
/-!
O12: the results of the integer, bit-field, move and select instructions (08 R184, R186, R189, R190, R206).
-/
namespace Sys2Proof.Machine

open Sys2Proof

theorem integerArithmetic : Parts.IntegerArithmetic := fun g d a b k => by
  refine ⟨?_, ?_, ?_, ?_, ?_, ?_, ?_, ?_, ?_, ?_, ?_⟩
  · exact intResult_of_intOp (exec_iadd g d a b) fun _ _ _ _ => rfl
  · exact intResult_of_intOp (exec_isub g d a b) fun _ _ _ _ => rfl
  · exact intResult_of_intOp (exec_iadds g d a b) fun s x y _ => by rw [intOf_add, clamp32_eq_nearest32]
  · exact intResult_of_intOp (exec_isubs g d a b) fun s x y _ => by rw [intOf_sub, clamp32_eq_nearest32]
  · exact intResult_of_intOp (exec_imul g d a b) fun _ _ _ _ => rfl
  · exact intResult_of_intOp (exec_imulh g d a b) fun s x y _ => mulHigh_eq s.uns x y
  · exact intResult_of_intOp (exec_imad g d a b) fun _ _ _ _ => rfl
  · exact intResult_of_intOp (exec_imin g d a b) fun s x y _ => minLane_eq s.uns x y
  · exact intResult_of_intOp (exec_imax g d a b) fun s x y _ => maxLane_eq s.uns x y
  · exact intResult_of_intOp (exec_iaddi g d a k) fun _ _ _ _ => rfl
  · exact intResult_of_intOp (exec_imuli g d a k) fun _ _ _ _ => rfl

theorem integerBits : Parts.IntegerBits := fun g d a b k => by
  refine ⟨?_, ?_, ?_, ?_, ?_, ?_, ?_, ?_, ?_, ?_, ?_, ?_, ?_, ?_, ?_, ?_, ?_, ?_, ?_, ?_, ?_, ?_, ?_⟩
  · exact intResult_of_intOp (exec_and g d a b) fun _ _ _ _ => rfl
  · exact intResult_of_intOp (exec_or g d a b) fun _ _ _ _ => rfl
  · exact intResult_of_intOp (exec_xor g d a b) fun _ _ _ _ => rfl
  · exact intResult_of_intOp (exec_andn g d a b) fun _ _ _ _ => rfl
  · exact intResult_of_intOp (exec_shl g d a b) fun _ _ _ _ => rfl
  · exact intResult_of_intOp (exec_shr g d a b) fun _ _ _ _ => rfl
  · exact intResult_of_intOp (exec_sar g d a b) fun _ _ _ _ => rfl
  · exact intResult_of_intOp (exec_rotl g d a b) fun _ _ _ _ => rfl
  · exact intResult_of_intOp (exec_bfe g d a b) fun s x y _ => bfeLane_eq s.uns x y
  · exact intResult_of_intOp (exec_bfi g d a b) fun _ x y z => bfiLane_eq x y z
  · exact intResult_of_intOp (exec_popc g d a) fun _ x _ _ => popcLane_eq x
  · exact intResult_of_intOp (exec_clz g d a) fun _ x _ _ => clzLane_eq x
  · exact intResult_of_intOp (exec_brev g d a) fun _ x _ _ => brevLane_eq_reverse x
  · exact intResult_of_intOp (exec_iabs g d a) fun s x _ _ => absLane_eq s.sat x
  · exact intResult_of_intOp (exec_mov g d a) fun _ _ _ _ => rfl
  · exact intResult_of_intOp (exec_movi g d k) fun _ _ _ _ => rfl
  · exact intResult_of_intOp (exec_andi g d a k) fun _ _ _ _ => rfl
  · exact intResult_of_intOp (exec_ori g d a k) fun _ _ _ _ => rfl
  · exact intResult_of_intOp (exec_xori g d a k) fun _ _ _ _ => rfl
  · exact intResult_of_intOp (exec_shli g d a k) fun _ _ _ _ => rfl
  · exact intResult_of_intOp (exec_shri g d a k) fun _ _ _ _ => rfl
  · exact intResult_of_intOp (exec_sari g d a k) fun _ _ _ _ => rfl
  · exact vecValues_of_vec (exec_sel g d a b) fun _ _ _ _ => rfl

/-- Settles O12: each instruction is its lane operation in the vector frame, and the operation is the spec's formula. -/
theorem integerLanes : Obligations.IntegerLanes := ⟨integerArithmetic, integerBits⟩

end Sys2Proof.Machine
end

section
/-!
O13: division, remainder and the dot products (08 R185, R187).
-/
namespace Sys2Proof.Machine

open Sys2Proof

/-- The participating lanes whose divisor is zero (R185). -/
def zeroLanes (m : Mask) (y : Lanes) : Mask := Mask.ofTest fun n => m.has n && y.at n == 0

/-- A zero divisor in a participating lane is INT_DIV0. -/
theorem divWise_zero {m : Mask} {f : Word → Word → Word → Word} {x y z : Lanes} (h : zeroLanes m y ≠ 0) :
    divWise m f x y z = .error (Trap.at .intDiv0 (zeroLanes m y).toNat m) := if_neg h

/-- Without one the operation is done lane by lane. -/
theorem divWise_ok {m : Mask} {f : Word → Word → Word → Word} {x y z : Lanes} (h : zeroLanes m y = 0) :
    divWise m f x y z = .ok (Lanes.tab fun n => f (x.at n) (y.at n) (z.at n), 0#5) := if_pos h

/-- A vector instruction whose operation traps pops nothing (R182). -/
theorem vec_error {s s1 : State} {i : Instr} {n : Needs} {m : Mask} {d a : BitVec 7} {b : BSrc} {rd : Bool}
    {op : Lanes → Lanes → Lanes → LaneRes} {ps : Pops} {fl : Nat → Flags} {t : Trap}
    (hc : firstTrap (s.vecChecks i n m rd d a b) = none) (hp : s.pops i m (a :: b.specs) = .ok (s1, ps, fl))
    (ho : op (s.readV ps a) (s.readB ps b) (if rd then s.oldDest d else Lanes.const 0) = .error t) :
    s.vec (encode i) n false m d a b rd op = .next ((s1.restoreQueues s).raise t) := by
  refine (frame_pops hc hp).trans ?_
  rw [ho]
  rfl

/-- What R185 says of an instruction that divides: INT_DIV0 with the lanes of zero divisors and nothing popped, or `f` in each
lane. -/
def DivResult (i : Instr) (g : BitVec 3) (d a b : BitVec 7) (f : State → Word → Word → Word) : Prop :=
  ∀ s s1 ps fl, firstTrap (s.vecChecks i (vecNeeds useUns) (s.part g) false d a (.spec b)) = none →
    s.pops i (s.part g) [a, b] = .ok (s1, ps, fl) →
    (zeroLanes (s.part g) (s.readV ps b) ≠ 0 → exec i s = .next ((s1.restoreQueues s).raise
      (Trap.at .intDiv0 (zeroLanes (s.part g) (s.readV ps b)).toNat (s.part g)))) ∧
    (zeroLanes (s.part g) (s.readV ps b) = 0 → ∀ s2, s1.writeDest d (encode i) (s.part g)
        (Lanes.tab fun n => f s ((s.readV ps a).at n) ((s.readV ps b).at n)) = .done s2 →
      exec i s = .next (s2.raiseFlags (orFlags (s.part g) fl)).advance)

/-- An instruction that is the vector frame around `divWise` of `op` gives `f`, when `op` is `f`. -/
theorem divResult_of_divWise {i : Instr} {g : BitVec 3} {d a b : BitVec 7} {op f : State → Word → Word → Word}
    (hx : ∀ s, exec i s = s.vec (encode i) (vecNeeds useUns) false (s.part g) d a (.spec b) false
      (divWise (s.part g) fun x y _ => op s x y)) (hf : ∀ s x y, op s x y = f s x y) : DivResult i g d a b f := by
  obtain rfl : op = f := funext fun s => funext fun x => funext fun y => hf s x y
  refine fun s s1 ps fl hc hp => ⟨fun hz => ?_, fun hz s2 hw => ?_⟩
  · exact (hx s).trans (vec_error hc hp (divWise_zero hz))
  · rw [hx, vec_done (op := divWise (s.part g) fun x y _ => op s x y) hc hp (divWise_ok hz) hw, BitVec.zero_or]

theorem integerDivision : Parts.IntegerDivision := by
  rintro g d a b quot zeros i (rfl | rfl) s s1 ps fl hc hp
  · have h := divResult_of_divWise (exec_idiv g d a b) (fun s x y => divLane_eq s.uns x y) s s1 ps fl hc hp
    exact ⟨h.1, fun hz s2 hw => h.2 hz s2 (by simpa only [if_true] using hw)⟩
  · have h := divResult_of_divWise (exec_irem g d a b) (f := fun s x y => x - quot s x y * y)
      (fun s x y => by rw [remLane, divLane_eq]) s s1 ps fl hc hp
    exact ⟨h.1, fun hz s2 hw => h.2 hz s2 (by simpa only [reduceCtorEq, if_false] using hw)⟩

theorem dotProducts : Parts.DotProducts := by
  intro g d a b elem total use
  have helem (w : Nat) (hw : 0 < w) (uns : Bool) (x : Word) (i : Nat) : dpElem w uns x i = elem w uns x i :=
    dpElem_eq uns x i hw
  have htotal (w k : Nat) (hw : 0 < w) (s : State) (x y z : Word) :
      dpSum w k s.hmod.tv s.uns x y z = total w k s x y z := by
    simp only [dpSum_eq, helem w hw, total, Bool.decide_or, Bool.beq_eq_decide_eq]
  refine ⟨?_, ?_, ?_, ?_⟩
  · exact intResult_of_intOp (exec_dp4 g d a b) fun s x y z => congrArg (BitVec.ofInt 32) (htotal 8 4 (by decide) s x y z)
  · exact intResult_of_intOp (exec_dp4s g d a b) fun s x y z => by
      rw [← htotal 8 4 (by decide), ← clamp32_eq_nearest32]; rfl
  · exact intResult_of_intOp (exec_dp2 g d a b) fun s x y z => congrArg (BitVec.ofInt 32) (htotal 16 2 (by decide) s x y z)
  · exact intResult_of_intOp (exec_dp2s g d a b) fun s x y z => by
      rw [← htotal 16 2 (by decide), ← clamp32_eq_nearest32]; rfl

/-- Settles O13: one lemma of the frame for IDIV and IREM, and the exact total for the dot products. -/
theorem integerQuotientsAndDots : Obligations.IntegerQuotientsAndDots := ⟨integerDivision, dotProducts⟩

end Sys2Proof.Machine
end

section
/-!
O14: comparisons, classification, shuffles, ballots and votes (08 R188, R194, R195, R201 to R203).
-/
namespace Sys2Proof.Machine

open Sys2Proof

theorem comparisons : Parts.Comparisons := by
  intro g c p a b k icond' int order nan fcond' class_
  have hi (s : State) (x y : Lanes) : lanePred (fun x y => icond c (intOf s.uns x) (intOf s.uns y)) x y =
      (Mask.ofTest fun n => icond' (int s (x.at n)) (int s (y.at n)), 0) := by
    simp only [lanePred, icond_eq]
    rfl
  refine ⟨fun _ => ⟨?_, ?_⟩, fun hc => ?_, ?_⟩
  · exact predResult_of_vecP (exec_icmp g c p a b) hi
  · exact predResult_of_vecP (exec_icmpi g c p a k) hi
  · refine predResult_of_vecP (exec_fcmp g c p a b) fun s x y => ?_
    simp only [fcond_eq _ _ _ hc, fp32_isNan_eq, Bool.or_eq_true]
    rfl
  · refine predResult_of_vecP (exec_fclass g p a b) fun s x y => ?_
    simp only [lanePred, fclassOf_eq]
    rfl

theorem shuffleAndVote : Parts.ShuffleAndVote := by
  intro g mode p d a b width mates
  have hw (s : State) : 0 < width s := Nat.two_pow_pos _
  refine ⟨?_, ?_, fun _ => ?_⟩
  · refine vecValues_of_vec (exec_shfl g d a b) fun s x y z => ?_
    simp only [shflSource_eq]
    rfl
  · refine vecValues_of_vec (exec_ballot g d a) fun s x y z => congrArg (fun l => Except.ok (l, 0)) ?_
    exact Lanes.tab_congr fun n _ => tileVotes_eq (hw s) (s.part g) x n
  · exact predResult_of_vecP (exec_vote g mode p a) fun s x y =>
      Prod.ext (Mask.ofTest_congr fun n _ => voteOf_eq (hw s) mode (s.part g) x n) rfl

/-- Settles O14: each instruction is its condition or its tile operation in the frame, and that is the spec's table or formula. -/
theorem lanePredicates : Obligations.LanePredicates := ⟨comparisons, shuffleAndVote⟩

end Sys2Proof.Machine
end
